-- ==== Sys2Proof/Word.lean ====
section
/-! DEFINITION. The byte, the one machine word every interface of the KY-8800 carries (Tables 0-5, 2-1). -/

namespace Sys2Proof

/-- One byte of a buffer, a message, a memory or a flash image. -/
abbrev Byte := BitVec 8

/-- A byte string, first byte first. -/
abbrev Bytes := List (BitVec 8)

end Sys2Proof
end

