-- ==== Sys2Proof/Syntax.lean ====
section
/-! DEFINITION. The commands of the block: one constructor per row of the table of operations and events, with the data
that each brings from outside. -/

namespace Sys2Proof

/-- The two dictionary channels (R24). -/
inductive Channel where
  | pcie
  | can
  deriving DecidableEq, Repr

/-- A parcel as it arrives on a link: the Start header bits [55:0] of Table 4-5, the body, End bytes 1-3 and the CRC, and
whether the block stream framed it wrongly (R97). -/
structure Parcel where
  header : Nat
  body : Bytes
  endBytes : Bytes
  crc : Nat
  framing : Bool
  deriving DecidableEq, Repr

/-- The switch's Training block that ended link training, Table 4-4, and whether the lanes came up (R89, R91). -/
structure Training where
  version : Nat
  fec : Bool
  spread : Bool
  lanes : Nat
  fresh : Bool
  port : Nat
  lastRxSeq : Nat
  errWord : Nat
  deriving DecidableEq, Repr

/-- What a ring's descriptor fetch brings from host memory (R58, R425): the descriptor, its operand block, or none where
the fetch failed, and whether the endpoint can write result data and the completion record to host memory. -/
structure Fetch where
  desc : Option Bytes
  block : Option Bytes
  dataOk : Bool
  compOk : Bool
  deriving DecidableEq, Repr

/-- One BAR0 register access (R53, R54). -/
structure BarAccess where
  write : Bool
  offset : Nat
  size : Nat
  value : Bytes
  poisoned : Bool
  deriving DecidableEq, Repr

/-- A USDO request of a client (R30). -/
inductive Usdo where
  | upload (index sub : Nat)
  | uploadSegment
  | download (index sub : Nat) (data : Bytes)
  | downloadInit (index sub size : Nat)
  | downloadSegment (data : Bytes) (last : Bool)
  deriving DecidableEq, Repr

/-- What the sensors read at a telemetry update (R406, Table 18-10): temperatures in 0.1 degree, two's complement,
millivolts, milliwatts and rates. -/
structure Telemetry where
  temps : List Nat
  battery : Nat
  rails : List Nat
  powers : List Nat
  searches : Nat
  topOps : Nat
  sweepOps : Nat
  share : Nat
  deriving DecidableEq, Repr

/-- The field that a bounded increment counts in: a freshness counter's Value, or its AUTH_FAIL or REPLAY count (R250, R251). -/
inductive CounterField where
  | value
  | failures
  | replays
  deriving DecidableEq, Repr

/-- The atomics of Table 12-7; the E of a token-bucket update is the device's own. -/
inductive AtomOp where
  | fetchAdd (a b : Nat)
  | compareAndSwap (compare mask value : Nat)
  | compareAndAdvance (v window : Nat)
  | tokenBucket (profile frameLength preColour : Nat)
  | boundedIncrement (field : CounterField) (bound window : Nat)
  deriving DecidableEq, Repr

/-- An atomic as ATM brings it: whether it is posted, and its operation (R272). -/
structure Atom where
  posted : Bool
  op : AtomOp
  deriving DecidableEq, Repr

/-- A granule of a line (Table 12-2). -/
structure GranuleAt where
  line : Nat
  granule : Nat
  deriving DecidableEq, Repr

/-- A line, and what the row's read of a cache or home array finds: bits 7 to 0 the granules that are uncorrectable, bit 8 the tag, state or
directory entry (R280, R283). -/
structure LineRead where
  line : Nat
  found : Nat
  deriving DecidableEq, Repr

/-- Where a read of the scratchpad starts: in BAR4's alias windows or BAR2, and the offset there (R71, R77). -/
structure WindowAt where
  bar4 : Bool
  offset : Nat
  deriving DecidableEq, Repr

/-- A write TLP to an alias window: its data, and whether it is poisoned (R53, R77). -/
structure AliasWrite where
  data : Bytes
  poisoned : Bool
  deriving DecidableEq, Repr

/-- The endpoint's link as it has trained, and the host's enables that stand after it (R52, R425). -/
structure HostLink where
  width : Nat
  busMaster : Bool
  msix : Bool
  deriving DecidableEq, Repr

/-- What a scrub read of one unit finds (R291, R299): nothing, or a word of it that is corrected, uncorrectable, or all zeros, check bits
included (R290). -/
inductive Observation where
  | clean
  | corrected (word : Nat)
  | uncorrectable (word : Nat)
  | zeros (word : Nat)
  deriving DecidableEq, Repr

/-- A HELLO message (Table 17-8). -/
structure Hello where
  role : Nat
  version : Nat
  pairId : Nat
  epoch : Nat
  uid : Nat
  build : Nat
  digest : Nat
  deriving DecidableEq, Repr

/-- A Domino LOOKUP message (Table 17-9). -/
structure LookupMsg where
  ticket : Nat
  cls : Nat
  quarter : Nat
  wide : Bool
  hit : Bool
  position : Nat
  tableId : Nat
  index : Nat
  record : Nat
  word : Nat
  deriving DecidableEq, Repr

/-- The commands: each row of the table of operations and events, whole and indivisible. -/
inductive Instr where
  /-- VAUX_RISE: VAUX and VBAT come into range; the always-on island leaves reset, samples SLEW, asserts PWR_HOLD and the device enters Sleep from Battery. (R412) -/
  | vauxRise (slew : Nat)
  /-- VAUX_LOSS: Loss of VAUX discards the Sluice held configuration and states; the device goes to Battery, or the loss reads as PWR_GOOD deasserted while the main rails are up. (R363) -/
  | vauxLoss
  /-- PWR_GOOD_ASSERT: A start from PWR_GOOD: the straps are sampled, the PUF is read, the fill begins and StartCause is set. (R394) -/
  | pwrGoodAssert (nodeId : Nat) (secondary : Bool) (chainPos : Nat)
  /-- ROOT_RECONSTRUCTED: The PUF fuzzy extractor completes; the root and the level-0 keys are derived, or RootState becomes PUF_FAIL. (R311) -/
  | rootReconstructed (ok : Bool)
  /-- ON_CHIP_FILL_DONE: The on-chip SRAM fill completes and the Marionettes are released to verify firmware. (R292) -/
  | onChipFillDone
  /-- FIRMWARE_VERIFIED: Both firmware slots are checked; the chosen image runs, Ready is set and the CAN boot-up message is sent, or the device enters Halt with fault FIRMWARE. (R396) -/
  | firmwareVerified
  /-- FILL_END: The manifest and sealed bundles are verified and applied, the key slots are rebuilt, the freshness counters are set and Fill ends in the mode chosen by the transition table. (R392) -/
  | fillEnd
  /-- CLASS_A_READY: The Flume copies are in place and class A becomes ready, filling the policing buckets. (R395) -/
  | classAReady
  /-- CLASS_B_READY: The seeds are fixed, the sealed class B and C entries are placed, the Laterals are released and class B becomes ready. (R395) -/
  | classBReady
  /-- PWR_GOOD_DEASSERT: PWR_GOOD falls for 10 us or more; the core stops and the main-rail outputs go high-impedance. (R413) -/
  | pwrGoodDeassert
  /-- SUPPLY_RANGE_TIMER: A rail has stayed outside its recommended range for more than 100 us, which raises SUPPLY_RANGE. (R402) -/
  | supplyRangeTimer (rail : Nat)
  /-- REFERENCE_LOST: A reference stays outside plus or minus 1,000 ppm for more than 100 us; its domain's crossings hold and its blocks stop. (R16) -/
  | referenceLost (domain : Nat)
  /-- PACE_UPDATE: The 1 ms pace window ends; the quadrant paces are updated and PaceLow is checked. (R11) -/
  | paceUpdate (p0 : Nat) (p1 : Nat) (p2 : Nat) (p3 : Nat)
  /-- TELEMETRY_UPDATE: The periodic update of temperatures, rail voltages and power estimates, with the temperature faults checked. (R406) -/
  | telemetryUpdate (t : Telemetry)
  /-- DATA_PARCEL_RECEIVED: A Data parcel arrives at a Headgate link; it is accepted, discarded as a duplicate, or answered with a Nak. (R97) -/
  | dataParcelReceived (link : Nat) (p : Parcel)
  /-- NULL_PARCEL_RECEIVED: A Null parcel arrives; its AckSeq and Nak are processed. (R96) -/
  | nullParcelReceived (link : Nat) (p : Parcel)
  /-- PAYLOAD_TIMEOUT: The Last segment is missing 10 us after its Key Token; the payload is LEN_MISMATCH or absorption ends. (R105) -/
  | payloadTimeout (link : Nat) (cls : Nat) (tag : Nat)
  /-- REPLAY_TIMER: 4 us pass without an AckSeq advance; all unacknowledged parcels are resent, and after 8 resends the link retrains. (R98) -/
  | replayTimer (link : Nat)
  /-- LANE_LOST: A lane loses block lock or exceeds its invalid-header count, and the link retrains on one or two lanes. (R91) -/
  | laneLost (link : Nat) (lane : Nat)
  /-- LINK_UP: Link training completes; sequence and replay resume or restart on Fresh, and a new credit epoch begins. (R92) -/
  | linkUp (link : Nat) (t : Training)
  /-- CREDIT_TOKEN_TIMER: At least every 1 us while the link is up, a Credit token is sent. (R102) -/
  | creditTokenTimer (link : Nat)
  /-- SEARCH_RUN: A search enters its Lateral or the Flume and runs its program steps and combine() to a verdict. (R121) -/
  | searchRun (slot : Nat)
  /-- MAC_OPERATION_DONE: A MAC operation on an engine completes and the verify or generate outcome is applied to the verdict. (R252) -/
  | macOperationDone (slot : Nat)
  /-- RESULT_TOKEN_SEND: A Result Token leaves its reorder buffer in order, its slot is returned and the class A span is measured. (R107) -/
  | resultTokenSend (link : Nat) (cls : Nat) (span : Nat)
  /-- CHAIN_TIMEOUT_A: A class A chain-wide lookup times out at 90 ns per member and resolves with CHAIN_TIMEOUT. (R135) -/
  | chainTimeoutA (slot : Nat)
  /-- COUNTER_FETCH_ADD: A posted counter-pair fetch-add executes at its home slice. (R234) -/
  | counterFetchAdd (home : Nat)
  /-- METER_IDLE_REFRESH: A meter not updated for 2^42 ns is refreshed with B = 0. (R231) -/
  | meterIdleRefresh (flume : Bool) (meter : Nat)
  /-- LEARN_APPLY: A posted NEW or MOVE learn executes at its table slice, creating, refreshing or moving the entry. (R207) -/
  | learnApply (slice : Nat)
  /-- REFRESH: A posted timestamp refresh executes at its slice, or is dropped as an orphan. (R214) -/
  | refresh (slice : Nat)
  /-- AGING_SWEEP_READ: The aging sweep reads a bucket and posts compare-and-deletes for expired entries. (R215) -/
  | agingSweepRead (table : Nat)
  /-- AGE_DELETE: An aging compare-and-delete executes at its slice and removes the entry or fails. (R217) -/
  | ageDelete (slice : Nat)
  /-- MAILBOX_DOORBELL: A doorbell write starts a mailbox transaction: the request record is taken, checked, executed and answered. (R33) -/
  | mailboxDoorbell
  /-- USDO_REQUEST: A USDO request or segment on the CAN port is served, answered within 1 ms. (R30) -/
  | usdoRequest (client : Nat) (req : Usdo)
  /-- USDO_TIMEOUT: A segmented transfer idle for 1 s is abandoned. (R30) -/
  | usdoTimeout
  /-- NMT_START: The NMT start command puts the port in Operational. (R29) -/
  | nmtStart
  /-- NMT_STOP: The NMT stop command puts the port in Stopped. (R29) -/
  | nmtStop
  /-- NMT_ENTER_PRE_OPERATIONAL: The NMT command puts the port in Pre-operational. (R29) -/
  | nmtEnterPreOperational
  /-- NMT_RESET_COMMUNICATION: Communication objects return to their committed values, any open USDO ends and boot-up is sent. (R29) -/
  | nmtResetCommunication
  /-- NMT_RESET_NODE: NMT reset node acts as reset communication. (R29) -/
  | nmtResetNode
  /-- HEARTBEAT_TIMER: The producer heartbeat time expires and a heartbeat is sent. (R48) -/
  | heartbeatTimer
  /-- TPDO_EVENT_TIMER: A TPDO event timer expires and the TPDO is sent, subject to its inhibit time. (R31) -/
  | tpdoEventTimer (tpdo : Nat)
  /-- CAN_BUS_OFF: The CAN controller goes bus-off and the event is counted. (R28) -/
  | canBusOff
  /-- BUS_OFF_RECOVERY: 128 occurrences of 11 recessive bits end bus-off. (R28) -/
  | busOffRecovery
  /-- CAN_REJOIN: After a new bit timing or re-enable, the port rejoins after 11 recessive bits. (R28) -/
  | canRejoin
  /-- COMMIT: Commit 0x01 snapshots the staging set, validates it and makes it live at one instant, or restores it on failure. (R39) -/
  | commit (ch : Channel) (seq : Nat)
  /-- DISCARD_STAGING: Commit 0x02 empties the staging set. (R37) -/
  | discardStaging (ch : Channel) (seq : Nat)
  /-- STAGING_LOCK: A StagingLock write sets or releases the lock for one channel. (R38) -/
  | stagingLock (ch : Channel) (value : Nat)
  /-- OBJECT_WRITE: A write to a dictionary object with no row of its own, applied, staged or rejected by its attribute. (R22) -/
  | objectWrite (ch : Channel) (index : Nat) (sub : Nat) (data : Bytes)
  /-- PEAK_READ_CLEAR: A read of a peak or cleared-by-reading object returns its value and clears it. (R110) -/
  | peakReadClear (ch : Channel) (index : Nat) (sub : Nat)
  /-- LAST_FAILED_KEY_READ: A read of LastFailedKey re-arms vector 22 for the table. (R195) -/
  | lastFailedKeyRead (ch : Channel) (table : Nat)
  /-- PCIE_CONVENTIONAL_RESET: PERST#, hot reset or link down resets the endpoint only, disabling the rings and MSI-X. (R52) -/
  | pcieConventionalReset
  /-- BAR0_REGISTER_WRITE: A BAR0 register access with no row of its own: reserved, misaligned or plain register write. (R53) -/
  | bar0RegisterWrite (acc : BarAccess)
  /-- SCRATCHPAD_WINDOW_WRITE: A BAR2 window write to scratchpad banks, refused whole if any bank is not host-owned. (R75) -/
  | scratchpadWindowWrite (offset : Nat) (data : Bytes) (poisoned : Bool)
  /-- SCRATCHPAD_WINDOW_READ: A BAR2 window read, refused with Completer Abort or poisoned on an uncorrectable word. (R75) -/
  | scratchpadWindowRead (at_ : WindowAt) (length : Nat)
  /-- ALIAS_BIT_SET: A BAR4 bit-set window write ORs data into the scratchpad word atomically. (R77) -/
  | aliasBitSet (offset : Nat) (tlp : AliasWrite)
  /-- ALIAS_BIT_CLEAR: A BAR4 bit-clear window write ANDs NOT data into the scratchpad word atomically. (R77) -/
  | aliasBitClear (offset : Nat) (tlp : AliasWrite)
  /-- RING_ENABLE: Setting Enable clears the ring indices and sets Enabled. (R56) -/
  | ringEnable (ring : Nat)
  /-- RING_DISABLE: Clearing Enable finishes the command in execution, discards fetched descriptors and clears Enabled. (R56) -/
  | ringDisable (ring : Nat)
  /-- PRODUCER_INDEX: A ProducerIndex write posts descriptors, or sets DoorbellOverrun when out of range. (R57) -/
  | producerIndex (ring : Nat) (value : Nat)
  /-- HALT_RETRY: HaltAction Retry refetches and re-executes the failed descriptor. (R67) -/
  | haltRetry (ring : Nat) (f : Fetch)
  /-- HALT_SKIP: HaltAction Skip writes the failure completion and continues. (R67) -/
  | haltSkip (ring : Nat)
  /-- TCAM_INSERT: TCAM_INSERT places a ternary entry, making moves along the group path. (R149) -/
  | tcamInsert (ring : Nat) (f : Fetch)
  /-- TCAM_DELETE: TCAM_DELETE invalidates an entry and moves the group's last entry into the hole. (R151) -/
  | tcamDelete (ring : Nat) (f : Fetch)
  /-- TCAM_MODIFY_RESULT: TCAM_MODIFY_RESULT replaces an entry's RecordIndex in one shadow write. (R152) -/
  | tcamModifyResult (ring : Nat) (f : Fetch)
  /-- TRIE_ADD: TRIE_ADD adds or replaces a prefix by copy-on-write with one publishing write. (R171) -/
  | trieAdd (ring : Nat) (f : Fetch)
  /-- TRIE_DELETE: TRIE_DELETE removes a prefix by copy-on-write with one publishing write. (R171) -/
  | trieDelete (ring : Nat) (f : Fetch)
  /-- BUCKET_INSERT: BUCKET_INSERT places an exact-match entry in a bucket way or an overflow slot. (R193) -/
  | bucketInsert (ring : Nat) (f : Fetch)
  /-- BUCKET_DELETE: BUCKET_DELETE clears an entry, after which a promotion may follow. (R193) -/
  | bucketDelete (ring : Nat) (f : Fetch)
  /-- BUCKET_UPDATE: BUCKET_UPDATE rewrites an entry whole. (R193) -/
  | bucketUpdate (ring : Nat) (f : Fetch)
  /-- RESULT_WRITE: RESULT_WRITE replaces a result record in the Reservoir or the Verdict Store. (R227) -/
  | resultWrite (ring : Nat) (f : Fetch)
  /-- METER_CONFIGURE: METER_CONFIGURE sets the profile and validity of a run of meters and fills their buckets. (R233) -/
  | meterConfigure (ring : Nat) (f : Fetch)
  /-- COUNTER_READ_CLEAR: COUNTER_READ_CLEAR reads counter pairs, optionally clears them, and writes them to host memory. (R235) -/
  | counterReadClear (ring : Nat) (f : Fetch)
  /-- FLOW_FLUSH: FLOW_FLUSH sets a filter in all slices and removes the selected entries. (R194) -/
  | flowFlush (ring : Nat) (f : Fetch)
  /-- FENCE: FENCE waits for the named rings' descriptors and, optionally, for the search slots to drain. (R68) -/
  | fence (ring : Nat) (f : Fetch)
  /-- FENCE_TIMEOUT: TimeoutUs expires before the fence is satisfied, and it completes FENCE_TIMEOUT. (R68) -/
  | fenceTimeout (ring : Nat)
  /-- BULK_LOAD: BULK_LOAD replaces a table or store from an image in scratchpad banks as one update. (R82) -/
  | bulkLoad (ring : Nat) (f : Fetch)
  /-- TABLE_DUMP: TABLE_DUMP writes a table's contents into scratchpad banks. (R84) -/
  | tableDump (ring : Nat) (f : Fetch)
  /-- BUNDLE_SUBMIT: BUNDLE_SUBMIT checks a Brynvon bundle and applies it or rejects it, writing a Receipt. (R320) -/
  | bundleSubmit (ring : Nat) (f : Fetch)
  /-- BLOCK_POWER_DOWN: A TCAM block powers down 1 ms after its last valid slot is invalidated. (R145) -/
  | blockPowerDown (quarter : Nat) (block : Nat)
  /-- DRAIN_MARKER_DONE: The drain marker leaves stage 11 of both pipelines and the superseded Furrow words are freed. (R173) -/
  | drainMarkerDone (table : Nat)
  /-- BANK_OWNER: A BankOwner write hands one bank to a new owner once no access is in progress. (R74) -/
  | bankOwner (ch : Channel) (bank : Nat) (code : Nat)
  /-- BANK_HANDOVER: A BankHandover write changes the owner of every bank named together. (R74) -/
  | bankHandover (ch : Channel) (value : Nat)
  /-- BANK_CODE: A BankCode write changes a host-owned bank's code and refills it with zeros. (R79) -/
  | bankCode (ch : Channel) (bank : Nat) (code : Nat)
  /-- LINK_RETRAIN: LinkAction 1 retrains a Headgate link, recovering any lost lane. (R91) -/
  | linkRetrain (ch : Channel) (link : Nat)
  /-- LINK_DISCARD_HELD: LinkAction 2 discards the results held for a down link and returns their slots. (R109) -/
  | linkDiscardHeld (ch : Channel) (link : Nat)
  /-- MOVE_LOCK_CLEAR: A MoveLockClear write clears the move-lock of one key or of a whole table. (R211) -/
  | moveLockClear (ch : Channel) (data : Bytes)
  /-- FRESHNESS_RESET: A FreshnessReset write resets every counter of an unsealed profile to 0. (R259) -/
  | freshnessReset (ch : Channel) (seq : Nat) (profile : Nat)
  /-- FRESHNESS_SNAPSHOT: At each FreshSaveInterval an authenticated freshness snapshot is written to flash. (R256) -/
  | freshnessSnapshot (ok : Bool)
  /-- RDS: Home receives RdS, a read for sharing, and serves it by DataH or a snoop. (R271) -/
  | rds (agent : Nat) (line : Nat)
  /-- RDO: Home receives RdO, a read for ownership, and grants M after invalidating or snooping. (R271) -/
  | rdo (agent : Nat) (line : Nat)
  /-- UPG: Home receives Upg from an S copy and grants M, with data if the requester has left the sharer set. (R271) -/
  | upg (agent : Nat) (line : Nat)
  /-- WBD: Home receives an announced dirty eviction, writes the data and answers EvAck. `at_.found`, here and below, is what the receiver finds
  uncorrectable: bits 7 to 0 granules of the data, bit 8 its tag or state array, at home its directory entry (R280, R283). (R271) -/
  | wbd (agent : Nat) (at_ : LineRead)
  /-- EVC: Home receives an announced clean eviction from Weir or Tally and answers EvAck. (R271) -/
  | evc (agent : Nat) (line : Nat)
  /-- CMP: Home receives Cmp and the transaction closes. (R268) -/
  | cmp (agent : Nat) (line : Nat)
  /-- RDH: Home receives an uncached read from a home requester and returns the current value. (R279) -/
  | rdh (req : Nat) (line : Nat) (mask : Nat)
  /-- WRH: Home receives an uncached write of whole granules and writes after invalidating or recalling copies. (R279) -/
  | wrh (req : Nat) (line : Nat) (mask : Nat) (data : List Nat)
  /-- ATM: Home receives an atomic and executes it on one granule after recalls and invalidations. (R272) -/
  | atm (req : Nat) (at_ : GranuleAt) (op : Atom)
  /-- SNP_DATA: An agent receives SnpData, forwards the data and keeps S. (R267) -/
  | snpData (agent : Nat) (at_ : LineRead) (requester : Nat)
  /-- SNP_OWN: An agent receives SnpOwn, forwards the data and goes to I. (R267) -/
  | snpOwn (agent : Nat) (at_ : LineRead) (requester : Nat)
  /-- SNP_INV: An agent receives SnpInv and goes to I without data. (R267) -/
  | snpInv (agent : Nat) (at_ : LineRead)
  /-- SNP_RECALL: An agent receives SnpRecall, returns any dirty data and goes to I. (R267) -/
  | snpRecall (agent : Nat) (at_ : LineRead) (backInv : Bool)
  /-- DATA_FWD: An agent receives cache-to-cache data for a line it requested. (R267) -/
  | dataFwd (agent : Nat) (at_ : LineRead)
  /-- RSP_I: Home receives RspI; stale pointers are corrected and home supplies the data itself. (R276) -/
  | rspI (agent : Nat) (line : Nat)
  /-- RSP_FWD: Home receives RspFwd after an owner has forwarded the data. (R271) -/
  | rspFwd (agent : Nat) (line : Nat)
  /-- RSP_FWD_DATA: Home receives RspFwdData and writes the M data to memory. (R271) -/
  | rspFwdData (agent : Nat) (at_ : LineRead)
  /-- RSP_DATA: Home receives RspData with the returned M data and the line invalid. (R271) -/
  | rspData (agent : Nat) (at_ : LineRead)
  /-- RSP_EV_IN_FLIGHT: Home receives RspEvInFlight and takes the queued eviction as the snoop response. (R278) -/
  | rspEvInFlight (agent : Nat) (line : Nat)
  /-- DATA_H: An agent receives data from home memory for a line being fetched. (R267) -/
  | dataH (agent : Nat) (at_ : LineRead)
  /-- GRANT: An agent receives Grant and, with its data, installs the line and sends Cmp. (R267) -/
  | grant (agent : Nat) (line : Nat)
  /-- NACK: A requester receives Nack with a ticket for a full slice. (R270) -/
  | nack (req : Nat) (line : Nat)
  /-- NACK_RETRY: The backoff of a NACKed request expires and it retries. (R270) -/
  | nackRetry (req : Nat) (line : Nat)
  /-- ATM_RSP: A requester receives the result of its atomic. (R272) -/
  | atmRsp (req : Nat) (line : Nat)
  /-- WR_ACK: A home requester receives the acknowledgement of its uncached write. (R268) -/
  | wrAck (req : Nat) (line : Nat)
  /-- RD_RSP: A home requester receives the data of its uncached read. (R268) -/
  | rdRsp (req : Nat) (line : Nat)
  /-- EV_ACK: An agent in IE receives EvAck and goes to I. (R267) -/
  | evAck (agent : Nat) (line : Nat)
  /-- CAPACITY_EVICTION: An agent evicts a line for capacity, silently or by announcing WbD or EvC. (R267) -/
  | capacityEviction (agent : Nat) (at_ : LineRead)
  /-- HOLD_END: An agent's 20 ns hold on a newly installed line ends and a waiting snoop is answered. (R273) -/
  | holdEnd (agent : Nat) (line : Nat)
  /-- SNOOP_TIMEOUT: A snoop unanswered for 10 us is a domain failure. (R283) -/
  | snoopTimeout (agent : Nat) (line : Nat)
  /-- TRANSACTION_TIMEOUT: A transaction open for 10 us is a domain failure. (R283) -/
  | transactionTimeout (line : Nat)
  /-- RESTART_COMPLETE: The restore ends, latched ring commands complete and the domain leaves Fallback. (R286) -/
  | restartComplete
  /-- CHECKPOINT: At each CheckpointInterval the counter and freshness regions are checkpointed to LPDDR5. (R285) -/
  | checkpoint
  /-- POISON_REPAIR: Home repairs a poisoned granule from its source within 2 us. (R281) -/
  | poisonRepair (store : Nat) (granule : Nat)
  /-- TOP_SCRUB_VISIT: Top visits the next unit of a region at TopRate, corrects it and writes it back. (R299) -/
  | topScrubVisit (region : Nat) (obs : Observation)
  /-- OUT_OF_TURN_SCRUB: A word corrected by a foreground read is scrubbed out of turn within 100 us. (R291) -/
  | outOfTurnScrub (region : Nat) (word : Nat) (obs : Observation)
  /-- YOYO_SCRUB: Yo-yo scrubs a bank that has been idle for 32 ns. (R300) -/
  | yoyoScrub (region : Nat) (obs : Observation)
  /-- YOYO_LAP_TIMEOUT: A Yo-yo lap exceeds YoyoLapLimit and Top finishes the lap. (R300) -/
  | yoyoLapTimeout (region : Nat)
  /-- WEAK_WORD_RETEST: A weak word's line is borrowed, pattern-tested and restored. (R303) -/
  | weakWordRetest (region : Nat) (word : Nat) (hard : Bool)
  /-- MERGE_ENTRY_RETIRE: A merge-buffer entry retires after 64 bank operations by read-modify-write. (R297) -/
  | mergeEntryRetire (bank : Nat) (word : Nat)
  /-- LPDDR_TRAINED: LPDDR5 training completes and the fill begins. (R296) -/
  | lpddrTrained (density : Nat)
  /-- LPDDR_TRAINING_FAILED: LPDDR5 training fails and every wait on the shadow, the table shadows or ExtReady ends. (R428) -/
  | lpddrTrainingFailed
  /-- SHADOW_READY: The Reservoir and table shadows are filled and copied in, and Tally moves its staged records to the ring. (R296) -/
  | shadowReady
  /-- EXT_READY: The extended flow table is filled and class C becomes ready. (R200) -/
  | extReady
  /-- LPDDR_FILL_DONE: The Tally ring and staging are filled and LpddrState becomes 3. (R296) -/
  | lpddrFillDone
  /-- TALLY_COMMIT: At CommitInterval or CommitRecords, the numbered records are committed to the flash pool. (R328) -/
  | tallyCommit
  /-- SEAL_NOW: A SealNow write makes Tally write an interim seal. (R329) -/
  | sealNow (ch : Channel) (seq : Nat)
  /-- ADVANCE: An Advance write moves the Tally read Cursor by its value. (R332) -/
  | advance (ch : Channel) (seq : Nat) (value : Nat)
  /-- CURSOR: A Cursor write sets the read window position, clamped to the oldest record present. (R332) -/
  | cursor (ch : Channel) (value : Nat)
  /-- ATTEST_REQUEST: An AttestRequest write makes the device sign an Attestation Statement for a key handle. (R326) -/
  | attestRequest (ch : Channel) (data : Bytes)
  /-- TAMPER_ALARM: An armed tamper source is declared; causes are latched, secrets zeroized and Locked entered. (R338) -/
  | tamperAlarm (source : Nat)
  /-- TAMPER_CLEAR: A TamperClear write clears the latched causes when no latched source is in alarm. (R342) -/
  | tamperClear (ch : Channel) (seq : Nat)
  /-- JACK_RESPONSE: An accepted JackResponse on CAN journals, zeroizes, burns an epoch fuse and enters Jack-Open. (R346) -/
  | jackResponse (ch : Channel) (data : Bytes) (fuseOk : Bool)
  /-- JACK_NONCE_REDRAW: The Jack challenge nonce is redrawn 60 s after it was drawn. (R345) -/
  | jackNonceRedraw
  /-- JACK_MEMORY_REQUEST: A JackMemoryRequest write reads a permitted memory space into JackMemoryData. (R347) -/
  | jackMemoryRequest (ch : Channel) (data : Bytes)
  /-- MARIONETTE_HALT: A MarionetteHalt write halts or resumes Marionettes, pausing their rings. (R347) -/
  | marionetteHalt (ch : Channel) (value : Nat)
  /-- TRACE_CONTROL: A TraceControl write starts or stops capture of one Lateral's searches. (R347) -/
  | traceControl (ch : Channel) (value : Nat)
  /-- WAKE_PIN_ACTIVE: A WAKE input is declared active after its debounce and wakes its PNs. (R354) -/
  | wakePinActive (pin : Nat)
  /-- WAKE_PIN_RELEASE: A level-mode WAKE input reads inactive and releases its PNs. (R354) -/
  | wakePinRelease (pin : Nat)
  /-- WAKE_HIT: A class A hit in a Q0 wake table posts a wake to the mapped network-management source. (R355) -/
  | wakeHit (source : Nat)
  /-- HOST_REQUEST: A HostRequest write wakes or releases PNs as source 8. (R356) -/
  | hostRequest (ch : Channel) (value : Nat)
  /-- SLEEP_ACK: A SleepAck write acknowledges sleep for PNs in Prepare. (R356) -/
  | sleepAck (ch : Channel) (value : Nat)
  /-- SOURCE_MASK_CLEAR: A SourceMaskClear write clears the masks of one source or of all sources. (R359) -/
  | sourceMaskClear (ch : Channel) (value : Nat)
  /-- SOURCE_HOLD_EXPIRED: A source's SourceHold runs out and it releases its PNs. (R353) -/
  | sourceHoldExpired (source : Nat)
  /-- WAKE_SETTLE_EXPIRED: WakeSettle expires after the last gate line and the PN goes to Awake-Requested or Awake-Hold. (R357) -/
  | wakeSettleExpired (pn : Nat)
  /-- HOLD_TIME_EXPIRED: HoldTime expires; the PN enters Prepare and vector 18 is raised. (R357) -/
  | holdTimeExpired (pn : Nat)
  /-- ACK_TIMEOUT_EXPIRED: AckTimeout expires in Prepare and the PN commits fail-safe unless a wake came. (R357) -/
  | ackTimeoutExpired (pn : Nat)
  /-- GATE_STEP_EXPIRED: GateStep expires and the next gate line of a waking or committing PN changes level. (R352) -/
  | gateStepExpired (pn : Nat)
  /-- LATCHED_REWAKE: 1 ms after a Commit with a latched wake, the PN enters Waking. (R358) -/
  | latchedRewake (pn : Nat)
  /-- SOURCE_MAX_AWAKE: A source holds a PN beyond MaxAwake and is masked for it. (R359) -/
  | sourceMaxAwake (source : Nat) (pn : Nat)
  /-- PN_MAX_AWAKE: A PN out of Asleep beyond PnMaxAwake masks every source holding it. (R359) -/
  | pnMaxAwake (pn : Nat)
  /-- WAKE_TIMER: A Sluice timer expires, giving an event from source 9 + i. (R362) -/
  | wakeTimer (timer : Nat)
  /-- SLEEP_ENTRY: Every defined PN is Asleep, 1 s after PWR_GOOD; the core is told to enter Sleep and Tally commits and seals. (R360) -/
  | sleepEntry
  /-- CORE_SLEEP: The closing snapshot is written; the core powers down, the mode becomes Sleep and PWR_HOLD is deasserted. (R360) -/
  | coreSleep
  /-- SLEEP_ENTRY_TIMEOUT: Steps 2 and 3 of Sleep entry exceed SleepEntryLimit and the core powers down anyway. (R360) -/
  | sleepEntryTimeout
  /-- PWR_HOLD_MIN_LOW: PwrHoldMinLow elapses and a waiting wake reasserts PWR_HOLD. (R360) -/
  | pwrHoldMinLow
  /-- HELLO_TIMER: Every 100 us during pairing a HELLO is sent. (R368) -/
  | helloTimer
  /-- HELLO: A received HELLO fixes the roles or moves the pair state. (R368) -/
  | hello (m : Hello)
  /-- CONFIG_DIGEST: A received CONFIG_DIGEST is compared with the device's own PairConfigDigest. (R369) -/
  | configDigest (commitCount : Nat) (digest : Nat)
  /-- CONFIG_GRACE_EXPIRED: ConfigGrace expires with the digests still differing; the primary Splits and the secondary goes to Standby. (R370) -/
  | configGraceExpired
  /-- CULVERT_LOST: The Culvert link has not been up for SoloAfter; the device goes Solo. (R367) -/
  | culvertLost
  /-- CULVERT_UP: The Culvert link comes up and Solo moves to Pairing. (R370) -/
  | culvertUp
  /-- PROMOTE: A Promote write on a Solo secondary makes it primary and raises PairEpoch. (R370) -/
  | promote (ch : Channel) (seq : Nat)
  /-- PAIR_RELEASE: A PairRelease write moves Standby to Unpaired and disables Culvert. (R370) -/
  | pairRelease (ch : Channel) (seq : Nat)
  /-- CMD_PREPARE: The secondary checks and places a forwarded command without its effect write and votes. (R371) -/
  | cmdPrepare (pairSeq : Nat) (desc : Bytes) (block : Bytes)
  /-- CMD_VOTE: The primary receives a vote and makes its effect write or fails with PEER_FAIL. (R374) -/
  | cmdVote (status : Nat) (detail : Nat) (pairSeq : Nat)
  /-- CMD_COMMIT: The secondary makes its effect write and answers CMD_DONE. (R371) -/
  | cmdCommit (pairSeq : Nat)
  /-- CMD_ABORT: The secondary releases its reservation. (R374) -/
  | cmdAbort (pairSeq : Nat)
  /-- CMD_DONE: The primary receives CMD_DONE and writes the completion record. (R371) -/
  | cmdDone (pairSeq : Nat)
  /-- PEER_VOTE_TIMEOUT: No vote arrives within PeerTimeout and the command completes PEER_TIMEOUT. (R374) -/
  | peerVoteTimeout (pairSeq : Nat)
  /-- PEER_DONE_TIMEOUT: No CMD_DONE arrives within PeerTimeout; the effect stands and the region is resynced. (R374) -/
  | peerDoneTimeout (pairSeq : Nat)
  /-- RESERVATION_TIMEOUT: The secondary releases its reservation PeerTimeout after voting without a commit or abort. (R374) -/
  | reservationTimeout (pairSeq : Nat)
  /-- IMAGE_DATA: Bulk-load image data lands in the Culvert banks and is moved to staging. (R381) -/
  | imageData (offset : Nat) (pairSeq : Nat) (data : Bytes)
  /-- RESULT_DIGEST: The secondary compares a primary class A result digest with its own. (R376) -/
  | resultDigest (link : Nat) (transition : Bool) (token : Nat)
  /-- COMPARE_TIMEOUT: A result digest finds no partner within 100 us and is counted missing. (R376) -/
  | compareTimeout (link : Nat)
  /-- TIME_TIMER: Every 1 ms the primary sends TIME. (R378) -/
  | timeTimer
  /-- TIME: A TIME message is echoed or used to slew or step the secondary's Timebase. (R378) -/
  | time (t1 : Nat) (t2 : Nat) (t3 : Nat) (t4 : Nat)
  /-- STATE_DIGEST_TIMER: Every 10 ms the primary sends its region digests. (R379) -/
  | stateDigestTimer
  /-- STATE_DIGEST: The secondary compares region digests and requests a resync of any region that differs. (R379) -/
  | stateDigest (pairSeq : Nat) (regions : List (Nat × Nat)) (last : Bool)
  /-- RESYNC_REQUEST: The primary dumps the region at a PairSeq boundary and sends it. (R380) -/
  | resyncRequest (region : Nat)
  /-- RESYNC_DATA: Resync image data lands in the Culvert banks. (R381) -/
  | resyncData (region : Nat) (offset : Nat) (data : Bytes)
  /-- RESYNC_END: The secondary applies the region image and answers RESYNC_DONE. (R380) -/
  | resyncEnd (region : Nat) (length : Nat) (pairSeq : Nat) (digest : Nat)
  /-- RESYNC_DONE: The primary resumes forwarding commands on the region. (R380) -/
  | resyncDone (region : Nat)
  /-- DOMINO_LINK_UP: The Domino link comes up; the head sends DISCOVER and the members send MEMBER_ID. (R382) -/
  | dominoLinkUp
  /-- DISCOVER: A member adds its position and forwards DISCOVER, or the head evaluates the returned message. (R382) -/
  | discover (positions : List Nat)
  /-- MEMBER_ID: A member identity message is forwarded toward the head or taken by it. (R382) -/
  | memberId (position : Nat) (uid : Nat)
  /-- LOOKUP: A member searches its region for a chain-wide LOOKUP, or the head resolves the returned message. (R383) -/
  | lookup (m : LookupMsg)
  /-- CHAIN_TIMEOUT_BC: A class B or C chain-wide LOOKUP does not return within ChainTimeoutBC. (R384) -/
  | chainTimeoutBc (slot : Nat)
  /-- WRITE: A member writes a slot of a chain-wide table as the head directs. (R386) -/
  | write (position : Nat) (quarter : Nat) (index : Nat) (shadow : Nat)
  /-- WRITE_ACK: The head receives a member's write acknowledgement. (R386) -/
  | writeAck (position : Nat) (quarter : Nat) (index : Nat)
  /-- CHAIN_DIGEST: A chain digest is compared with the head's to detect an inconsistent member. (R385) -/
  | chainDigest (position : Nat) (digest : Nat)
  /-- DROWSE_ENTRY: The Drowse conditions hold for DrowseIdle and searches are confined to Lateral 0. (R398) -/
  | drowseEntry
  /-- DROWSE_LATERALS_DRAINED: Laterals 1-7 finish their searches and power down with Furrow and LPDDR5, and the mode becomes Drowse. (R399) -/
  | drowseLateralsDrained
  /-- DROWSE_EXIT: A DrowseExit write triggers the exit from Drowse. (R399) -/
  | drowseExit (ch : Channel) (value : Nat)
  /-- DROWSE_EXIT_COMPLETE: The Laterals, Furrow and LPDDR5 are back and assignment over all Laterals resumes. (R399) -/
  | drowseExitComplete
  /-- FIRMWARE_STAGE: A FirmwareStage write starts checking and programming an image into the slot not running. (R397) -/
  | firmwareStage (ch : Channel) (data : Bytes)
  /-- FIRMWARE_STAGE_DONE: Firmware staging ends as done or failed. (R397) -/
  | firmwareStageDone (ok : Bool)
  /-- QUARANTINE: A unit meets its quarantine condition and is quarantined until the next start. (R400) -/
  | quarantine (unit : Nat)
  /-- MARIONETTE_HEARTBEAT_TIMEOUT: No Marionette heartbeat for 10 ms quarantines the Marionette. (R400) -/
  | marionetteHeartbeatTimeout (marionette : Nat)
  /-- FAULT_CLEAR_TIMER: A fault's clearing condition has held for its stated time and the fault clears. (R402) -/
  | faultClearTimer (code : Nat)
  /-- EMCY_SPACING_EXPIRED: The 100 ms EMCY spacing ends and a deferred raise or clear is sent. (R402) -/
  | emcySpacingExpired (code : Nat)
  /-- TAMPER_SOURCE_CLEARED: A tamper source's filter output stops showing the alarm condition, so the source leaves alarm and its TamperActive bit clears. (R337) -/
  | tamperSourceCleared (source : Nat)
  /-- VBAT_LOST: VBAT is lost while VAUX is absent, so the battery island loses power, the vault decays, the arming copy returns to defaults and the RTC stops. (R336) -/
  | vbatLost
  /-- PCIE_LINK_UP: The PCIe link completes training, which updates PcieLinkSpeed and PcieLinkWidth and lets the endpoint send vectors and records held back while it could not. (R425) -/
  | pcieLinkUp (speed : Nat) (trained : HostLink)
  /-- REFERENCE_RESTORED: A lost reference is back within range for 100 us, so its clocked domain restarts, its crossings release and REF_LOST can clear. (R402) -/
  | referenceRestored (domain : Nat)
  /-- DOMINO_LINK_LOST: The Domino ring breaks, so ChainState becomes broken, CHAIN_FAULT is raised, chain-wide lookups get CHAIN_TIMEOUT and a command in progress completes PEER_FAIL with CHAIN_LINK. (R386) -/
  | dominoLinkLost
  /-- UNDEFINED_CONTROL_BLOCK: A control block of an undefined type, or a stray data block, arrives between parcels on a Headgate link and is ignored and counted in ProtocolErrors. (R88) -/
  | undefinedControlBlock (link : Nat)
  deriving DecidableEq, Repr

end Sys2Proof
end

