-- ==== Sys2Proof/WellFormed.lean ====
section
/-! DEFINITION. Well-formed commands: every unit, line and address that a command names exists, and every written value fits its object.
A command that is not well-formed cannot reach the device. -/

namespace Sys2Proof

/-- A unit that may ask for a line of the Reservoir: an agent or a home requester. -/
def anyRequest (req line : Nat) : Bool := decide (req < 64) && decide (req ≠ 15) && decide (line < 262144)

/-- A home requester and a line (R263): a unit from code 0x10 on, or a Marionette outside its own area. -/
def homeRequest (req line : Nat) : Bool :=
  ((decide (16 ≤ req) && decide (req < 64)) || (decide (8 ≤ req) && decide (req < 12) && !(decide (0x34000 ≤ line) && decide (line < 0x38000)))) &&
    decide (line < 262144)

/-- The units that a command names exist (rings, links, slots, tables, slices, banks, PNs, sources, agents, lines, rails, domains), and
values of one object fit it. -/
def Instr.wf : Instr → Bool
  | .vauxRise slew => decide (slew < 4)
  | .vauxLoss => true
  | .pwrGoodAssert nodeId _ chainPos => decide (nodeId < 128) && decide (chainPos < 4)
  | .rootReconstructed _ => true
  | .onChipFillDone => true
  | .firmwareVerified => true
  | .fillEnd => true
  | .classAReady => true
  | .classBReady => true
  | .pwrGoodDeassert => true
  | .supplyRangeTimer rail => decide (1 ≤ rail) && decide (rail ≤ 9)
  | .referenceLost domain => decide (1 ≤ domain) && decide (domain ≤ 9)
  | .paceUpdate p0 p1 p2 p3 => decide (p0 < 65536) && decide (p1 < 65536) && decide (p2 < 65536) && decide (p3 < 65536)
  | .telemetryUpdate _ => true
  | .dataParcelReceived link _ => decide (link < 8)
  | .nullParcelReceived link _ => decide (link < 8)
  | .payloadTimeout link cls _ => decide (link < 8) && decide (1 ≤ cls) && decide (cls ≤ 3)
  | .replayTimer link => decide (link < 8)
  | .laneLost link lane => decide (link < 8) && decide (lane < 2)
  | .linkUp link _ => decide (link < 8)
  | .creditTokenTimer link => decide (link < 8)
  | .searchRun slot => decide (slot < 256)
  | .macOperationDone slot => decide (slot < 256)
  | .resultTokenSend link cls _ => decide (link < 8) && decide (1 ≤ cls) && decide (cls ≤ 3)
  | .chainTimeoutA slot => decide (slot < 64)
  | .counterFetchAdd home => decide (home < 16)
  | .meterIdleRefresh flume meter => decide (meter < (if flume = true then 16384 else 131072))
  | .learnApply slice => decide (slice < 16)
  | .refresh slice => decide (slice < 16)
  | .agingSweepRead table => decide (table < 64)
  | .ageDelete slice => decide (slice < 16)
  | .mailboxDoorbell => true
  | .usdoRequest client _ => decide (1 ≤ client) && decide (client < 128)
  | .usdoTimeout => true
  | .nmtStart => true
  | .nmtStop => true
  | .nmtEnterPreOperational => true
  | .nmtResetCommunication => true
  | .nmtResetNode => true
  | .heartbeatTimer => true
  | .tpdoEventTimer tpdo => decide (tpdo < 16)
  | .canBusOff => true
  | .busOffRecovery => true
  | .canRejoin => true
  | .commit _ seq => decide (seq < 256)
  | .discardStaging _ seq => decide (seq < 256)
  | .stagingLock _ value => decide (value < 256)
  | .objectWrite _ index sub _ => decide (index < 65536) && decide (sub < 256)
  | .peakReadClear _ index sub => decide (index < 65536) && decide (sub < 256)
  | .lastFailedKeyRead _ table => decide (table < 64)
  | .pcieConventionalReset => true
  | .bar0RegisterWrite _ => true
  | .scratchpadWindowWrite _ _ _ => true
  | .scratchpadWindowRead _ _ => true
  | .aliasBitSet _ _ => true
  | .aliasBitClear _ _ => true
  | .ringEnable ring => decide (ring < 8)
  | .ringDisable ring => decide (ring < 8)
  | .producerIndex ring _ => decide (ring < 8)
  | .haltRetry ring _ => decide (ring < 8)
  | .haltSkip ring => decide (ring < 8)
  | .tcamInsert ring _ => decide (ring < 8)
  | .tcamDelete ring _ => decide (ring < 8)
  | .tcamModifyResult ring _ => decide (ring < 8)
  | .trieAdd ring _ => decide (ring < 8)
  | .trieDelete ring _ => decide (ring < 8)
  | .bucketInsert ring _ => decide (ring < 8)
  | .bucketDelete ring _ => decide (ring < 8)
  | .bucketUpdate ring _ => decide (ring < 8)
  | .resultWrite ring _ => decide (ring < 8)
  | .meterConfigure ring _ => decide (ring < 8)
  | .counterReadClear ring _ => decide (ring < 8)
  | .flowFlush ring _ => decide (ring < 8)
  | .fence ring _ => decide (ring < 8)
  | .fenceTimeout ring => decide (ring < 8)
  | .bulkLoad ring _ => decide (ring < 8)
  | .tableDump ring _ => decide (ring < 8)
  | .bundleSubmit ring _ => decide (ring < 8)
  | .blockPowerDown quarter block => decide (quarter < 4) && decide (block < 8)
  | .drainMarkerDone table => decide (table < 16)
  | .bankOwner _ bank code => decide (bank < 32) && decide (code < 256)
  | .bankHandover _ value => decide (value < 2 ^ 64)
  | .bankCode _ bank code => decide (bank < 32) && decide (code < 256)
  | .linkRetrain _ link => decide (link < 8)
  | .linkDiscardHeld _ link => decide (link < 8)
  | .moveLockClear _ _ => true
  | .freshnessReset _ seq profile => decide (seq < 256) && decide (profile < 256)
  | .freshnessSnapshot _ => true
  | .rds agent line => decide (agent < 15) && decide (line < 262144)
  | .rdo agent line => decide (agent < 15) && decide (line < 262144)
  | .upg agent line => decide (agent < 15) && decide (line < 262144)
  | .wbd agent ⟨line, _⟩ => decide (agent < 15) && decide (line < 262144)
  | .evc agent line => decide (agent < 15) && decide (line < 262144)
  | .cmp agent line => decide (agent < 15) && decide (line < 262144)
  | .rdh req line _ => homeRequest req line
  | .wrh req line _ _ => homeRequest req line
  | .atm req ⟨line, granule⟩ _ =>
    anyRequest req line && decide (granule < (if line < 0x2C000 then 4 else if line < 0x38000 then 8 else 1))
  | .snpData agent ⟨line, _⟩ _ => decide (agent < 15) && decide (line < 262144)
  | .snpOwn agent ⟨line, _⟩ _ => decide (agent < 15) && decide (line < 262144)
  | .snpInv agent ⟨line, _⟩ => decide (agent < 15) && decide (line < 262144)
  | .snpRecall agent ⟨line, _⟩ _ => decide (agent < 15) && decide (line < 262144)
  | .dataFwd agent ⟨line, _⟩ => decide (agent < 15) && decide (line < 262144)
  | .rspI agent line => decide (agent < 15) && decide (line < 262144)
  | .rspFwd agent line => decide (agent < 15) && decide (line < 262144)
  | .rspFwdData agent ⟨line, _⟩ => decide (agent < 15) && decide (line < 262144)
  | .rspData agent ⟨line, _⟩ => decide (agent < 15) && decide (line < 262144)
  | .rspEvInFlight agent line => decide (agent < 15) && decide (line < 262144)
  | .dataH agent ⟨line, _⟩ => decide (agent < 15) && decide (line < 262144)
  | .grant agent line => decide (agent < 15) && decide (line < 262144)
  | .nack req line => anyRequest req line
  | .nackRetry req line => anyRequest req line
  | .atmRsp req line => anyRequest req line
  | .wrAck req line => anyRequest req line
  | .rdRsp req line => anyRequest req line
  | .evAck agent line => decide (agent < 15) && decide (line < 262144)
  | .capacityEviction agent ⟨line, _⟩ => decide (agent < 15) && decide (line < 262144)
  | .holdEnd agent line => decide (agent < 15) && decide (line < 262144)
  | .snoopTimeout agent line => decide (agent < 15) && decide (line < 262144)
  | .transactionTimeout line => decide (line < 262144)
  | .restartComplete => true
  | .checkpoint => true
  | .poisonRepair store granule =>
    decide (store < 6) &&
      decide (granule < (if store = 0 ∨ store = 5 then 2 ^ 21 else if store = 3 then 524288 else if store = 4 then 32768 else 16384))
  | .topScrubVisit region _ => decide (region < 18)
  | .outOfTurnScrub region _ _ => decide (region < 18)
  | .yoyoScrub region _ => decide (region < 18)
  | .yoyoLapTimeout region => decide (region < 18)
  | .weakWordRetest region _ _ => decide (region < 18)
  | .mergeEntryRetire bank _ => decide (bank < 64)
  | .lpddrTrained _ => true
  | .lpddrTrainingFailed => true
  | .shadowReady => true
  | .extReady => true
  | .lpddrFillDone => true
  | .tallyCommit => true
  | .sealNow _ seq => decide (seq < 256)
  | .advance _ seq value => decide (seq < 256) && decide (value < 65536)
  | .cursor _ value => decide (value < 2 ^ 64)
  | .attestRequest _ _ => true
  | .tamperAlarm source => decide (source < 13)
  | .tamperClear _ seq => decide (seq < 256)
  | .jackResponse _ _ _ => true
  | .jackNonceRedraw => true
  | .jackMemoryRequest _ _ => true
  | .marionetteHalt _ value => decide (value < 256)
  | .traceControl _ value => decide (value < 2 ^ 32)
  | .wakePinActive pin => decide (pin < 8)
  | .wakePinRelease pin => decide (pin < 8)
  | .wakeHit source => decide (16 ≤ source) && decide (source < 128)
  | .hostRequest _ value => decide (value < 2 ^ 64)
  | .sleepAck _ value => decide (value < 2 ^ 64)
  | .sourceMaskClear _ value => decide (value < 256)
  | .sourceHoldExpired source => decide (source < 128)
  | .wakeSettleExpired pn => decide (pn < 64)
  | .holdTimeExpired pn => decide (pn < 64)
  | .ackTimeoutExpired pn => decide (pn < 64)
  | .gateStepExpired pn => decide (pn < 64)
  | .latchedRewake pn => decide (pn < 64)
  | .sourceMaxAwake source pn => decide (source < 128) && decide (pn < 64)
  | .pnMaxAwake pn => decide (pn < 64)
  | .wakeTimer timer => decide (timer < 4)
  | .sleepEntry => true
  | .coreSleep => true
  | .sleepEntryTimeout => true
  | .pwrHoldMinLow => true
  | .helloTimer => true
  | .hello _ => true
  | .configDigest _ _ => true
  | .configGraceExpired => true
  | .culvertLost => true
  | .culvertUp => true
  | .promote _ seq => decide (seq < 256)
  | .pairRelease _ seq => decide (seq < 256)
  | .cmdPrepare _ _ _ => true
  | .cmdVote _ _ _ => true
  | .cmdCommit _ => true
  | .cmdAbort _ => true
  | .cmdDone _ => true
  | .peerVoteTimeout _ => true
  | .peerDoneTimeout _ => true
  | .reservationTimeout _ => true
  | .imageData _ _ _ => true
  | .resultDigest link _ _ => decide (link < 8)
  | .compareTimeout link => decide (link < 8)
  | .timeTimer => true
  | .time _ _ _ _ => true
  | .stateDigestTimer => true
  | .stateDigest _ _ _ => true
  | .resyncRequest _ => true
  | .resyncData _ _ _ => true
  | .resyncEnd _ _ _ _ => true
  | .resyncDone _ => true
  | .dominoLinkUp => true
  | .discover _ => true
  | .memberId _ _ => true
  | .lookup _ => true
  | .chainTimeoutBc slot => decide (slot < 256)
  | .write _ quarter index _ => decide (quarter < 4) && decide (index < 8192)
  | .writeAck _ quarter index => decide (quarter < 4) && decide (index < 8192)
  | .chainDigest _ _ => true
  | .drowseEntry => true
  | .drowseLateralsDrained => true
  | .drowseExit _ value => decide (value < 256)
  | .drowseExitComplete => true
  | .firmwareStage _ _ => true
  | .firmwareStageDone _ => true
  | .quarantine unit => decide (unit < 12) || (decide (0x10 ≤ unit) && decide (unit < 0x14)) || (decide (0x20 ≤ unit) && decide (unit < 0x40))
  | .marionetteHeartbeatTimeout marionette => decide (marionette < 4)
  | .faultClearTimer _ => true
  | .emcySpacingExpired _ => true
  | .tamperSourceCleared source => decide (source < 13)
  | .vbatLost => true
  | .pcieLinkUp speed ⟨width, _, _⟩ => decide (1 ≤ speed ∧ speed ≤ 4) && [1, 2, 4].contains width
  | .referenceRestored domain => decide (1 ≤ domain) && decide (domain ≤ 9)
  | .dominoLinkLost => true
  | .undefinedControlBlock link => decide (link < 8)

end Sys2Proof
end

