-- ==== Sys2Proof/Decode.lean ====
section
/-! DEFINITION. Words as commands. The manual's table gives no row any bits: a command is an event, a transaction or a message, not a
word, so no word spells one. -/

namespace Sys2Proof

/-- The command that a word of `nbits` bits spells: none, since no row of the table has bits. -/
def decodeTableWord (_nbits _w : Nat) : Option Instr := none

end Sys2Proof
end

