-- ==== Sys2Proof/Machine/Bits.lean ====
section
/-! DEFINITION. Byte orders and bit fields: the numbers that bytes and words spell (R4, Table 0-5). -/

namespace Sys2Proof.Machine

/-- Bits [hi:lo] of `n`, as the manual writes bit maps. -/
def bits (n hi lo : Nat) : Nat := (n >>> lo) % 2 ^ (hi + 1 - lo)

/-- Bit `i` of `n`. -/
def bit (n i : Nat) : Bool := n.testBit i

/-- `n` with bits [hi:lo] replaced by `v`. -/
def setBits (n hi lo v : Nat) : Nat :=
  n % 2 ^ lo + (v % 2 ^ (hi + 1 - lo)) * 2 ^ lo + (n >>> (hi + 1)) * 2 ^ (hi + 1)

/-- A Boolean as a bit. -/
def b2n (b : Bool) : Nat := if b then 1 else 0

/-- The number a byte string spells, least significant byte first. -/
def leNat : Bytes → Nat
  | [] => 0
  | b :: bs => b.toNat + 256 * leNat bs

/-- The number a byte string spells, most significant byte first. -/
def beNat (bs : Bytes) : Nat := leNat bs.reverse

/-- `n` bytes of `v`, least significant byte first. -/
def leBytes : Nat → Nat → Bytes
  | 0, _ => []
  | n + 1, v => BitVec.ofNat 8 v :: leBytes n (v / 256)

/-- `n` bytes of `v`, most significant byte first. -/
def beBytes (n v : Nat) : Bytes := (leBytes n v).reverse

/-- `n` zero bytes. -/
def zeros (n : Nat) : Bytes := List.replicate n 0#8

/-- Bytes [off, off + n) of a byte string; bytes beyond its end read as zero. -/
def slice (bs : Bytes) (off n : Nat) : Bytes :=
  let t := (bs.drop off).take n
  t ++ zeros (n - t.length)

/-- The little-endian field of `n` bytes at `off`. -/
def le (bs : Bytes) (off n : Nat) : Nat := leNat (slice bs off n)

/-- The big-endian field of `n` bytes at `off`. -/
def be (bs : Bytes) (off n : Nat) : Nat := beNat (slice bs off n)

/-- Byte `off` as a number. -/
def u8 (bs : Bytes) (off : Nat) : Nat := le bs off 1

/-- Every byte of [off, off + n) is zero. -/
def allZero (bs : Bytes) (off n : Nat) : Bool := (slice bs off n).all fun b => b == 0#8

/-- A byte string of exactly `n` bytes: cut, or padded with zeros. -/
def fit (n : Nat) (bs : Bytes) : Bytes := slice bs 0 n

/-- A string's ASCII bytes. -/
def ascii (t : String) : Bytes := t.toList.map fun c => BitVec.ofNat 8 c.toNat

/-- Number of bits set among the low `w` bits. -/
def popcount : Nat → Nat → Nat
  | 0, _ => 0
  | w + 1, n => n % 2 + popcount w (n / 2)

/-- Positions of the bits set among the low `w` bits, ascending. -/
def bitList (w n : Nat) : List Nat := (List.range w).filter fun i => n.testBit i

/-- Round up to the next multiple of 8. -/
def ceil8 (n : Nat) : Nat := (n + 7) / 8 * 8

/-- Ceiling division. -/
def cdiv (a b : Nat) : Nat := (a + b - 1) / b

/-- The byte string cut into pieces of `n` bytes; `fuel` bounds the pieces. -/
def chunks (n : Nat) : Nat → Bytes → List Bytes
  | 0, _ => []
  | fuel + 1, bs => if bs.isEmpty then [] else bs.take n :: chunks n fuel (bs.drop n)

/-- Records of exactly `n` bytes of an image whose length is a multiple of `n`. -/
def records (n : Nat) (bs : Bytes) : List Bytes := chunks n (bs.length / n) bs

/-- Two's complement reading of a `w`-bit number. -/
def signed (w n : Nat) : Int := if n < 2 ^ (w - 1) then (n : Int) else (n : Int) - (2 ^ w : Nat)

/-- Two's complement writing of an integer in `w` bits. -/
def unsigned (w : Nat) (i : Int) : Nat := (i % ((2 ^ w : Nat) : Int)).toNat

end Sys2Proof.Machine
end

