-- ==== Sys2Proof/Machine/Crypto.lean ====
section
/-! DEFINITION. The published algorithms that the manual names: CRC-32C (R93), SHA-256 and HMAC (FIPS 180-4, 198-1), AES,
CMAC and GMAC (SP 800-38B, 38D), the KDF of SP 800-108 (R312), AES key wrap (RFC 5649) and ECDSA and ECDH on P-256 (R316). -/

namespace Sys2Proof.Machine

/-! ### CRC-32C -/

/-- One bit of the reflected CRC of polynomial 0x1EDC_6F41 (R93); 0x82F6_3B78 is that polynomial reflected. -/
def crcBit (c : BitVec 32) : BitVec 32 := if c.getLsbD 0 then (c >>> 1) ^^^ 0x82f63b78#32 else c >>> 1

/-- One byte enters least significant bit first. -/
def crcByte (c : BitVec 32) (b : Byte) : BitVec 32 :=
  let c := c ^^^ b.setWidth 32
  crcBit (crcBit (crcBit (crcBit (crcBit (crcBit (crcBit (crcBit c)))))))

/-- CRC-32C of R93. -/
def crc32c (bs : Bytes) : BitVec 32 := (bs.foldl crcByte 0xffffffff#32) ^^^ 0xffffffff#32

/-! ### SHA-256 and HMAC -/

/-- The 64 round constants of FIPS 180-4. -/
def shaK : List (BitVec 32) :=
  [0x428a2f98, 0x71374491, 0xb5c0fbcf, 0xe9b5dba5, 0x3956c25b, 0x59f111f1, 0x923f82a4, 0xab1c5ed5] ++
  [0xd807aa98, 0x12835b01, 0x243185be, 0x550c7dc3, 0x72be5d74, 0x80deb1fe, 0x9bdc06a7, 0xc19bf174] ++
  [0xe49b69c1, 0xefbe4786, 0x0fc19dc6, 0x240ca1cc, 0x2de92c6f, 0x4a7484aa, 0x5cb0a9dc, 0x76f988da] ++
  [0x983e5152, 0xa831c66d, 0xb00327c8, 0xbf597fc7, 0xc6e00bf3, 0xd5a79147, 0x06ca6351, 0x14292967] ++
  [0x27b70a85, 0x2e1b2138, 0x4d2c6dfc, 0x53380d13, 0x650a7354, 0x766a0abb, 0x81c2c92e, 0x92722c85] ++
  [0xa2bfe8a1, 0xa81a664b, 0xc24b8b70, 0xc76c51a3, 0xd192e819, 0xd6990624, 0xf40e3585, 0x106aa070] ++
  [0x19a4c116, 0x1e376c08, 0x2748774c, 0x34b0bcb5, 0x391c0cb3, 0x4ed8aa4a, 0x5b9cca4f, 0x682e6ff3] ++
  [0x748f82ee, 0x78a5636f, 0x84c87814, 0x8cc70208, 0x90befffa, 0xa4506ceb, 0xbef9a3f7, 0xc67178f2]

/-- The initial hash value of FIPS 180-4. -/
def shaH : List (BitVec 32) := [0x6a09e667, 0xbb67ae85, 0x3c6ef372, 0xa54ff53a, 0x510e527f, 0x9b05688c, 0x1f83d9ab, 0x5be0cd19]

/-- Word `i` of a word list. -/
def shaW (ws : List (BitVec 32)) (i : Nat) : BitVec 32 := ws.getD i 0

/-- The 32-bit words of a byte string. -/
def shaWords : Nat → Bytes → List (BitVec 32)
  | 0, _ => []
  | n + 1, bs => BitVec.ofNat 32 (beNat (bs.take 4)) :: shaWords n (bs.drop 4)

/-- The message schedule: `n` further words, newest first. -/
def shaSchedule : Nat → List (BitVec 32) → List (BitVec 32)
  | 0, rev => rev
  | n + 1, rev =>
    let w15 := shaW rev 14
    let w2 := shaW rev 1
    let s0 := (w15.rotateRight 7) ^^^ (w15.rotateRight 18) ^^^ (w15 >>> 3)
    let s1 := (w2.rotateRight 17) ^^^ (w2.rotateRight 19) ^^^ (w2 >>> 10)
    shaSchedule n ((shaW rev 15 + s0 + shaW rev 6 + s1) :: rev)

/-- One round on the eight working variables. -/
def shaRound (v : List (BitVec 32)) (k w : BitVec 32) : List (BitVec 32) :=
  match v with
  | [a, b, c, d, e, f, g, h] =>
    let s1 := (e.rotateRight 6) ^^^ (e.rotateRight 11) ^^^ (e.rotateRight 25)
    let t1 := h + s1 + ((e &&& f) ^^^ (~~~e &&& g)) + k + w
    let s0 := (a.rotateRight 2) ^^^ (a.rotateRight 13) ^^^ (a.rotateRight 22)
    let t2 := s0 + ((a &&& b) ^^^ (a &&& c) ^^^ (b &&& c))
    [t1 + t2, a, b, c, d + t1, e, f, g]
  | v => v

/-- One 64-byte block. -/
def shaBlock (h : List (BitVec 32)) (blk : Bytes) : List (BitVec 32) :=
  let ws := (shaSchedule 48 (shaWords 16 blk).reverse).reverse
  let v := (shaK.zip ws).foldl (fun v p => shaRound v p.1 p.2) h
  (h.zip v).map fun p => p.1 + p.2

/-- SHA-256. -/
def sha256 (m : Bytes) : Bytes :=
  let n := m.length
  let padded := m ++ [0x80#8] ++ zeros ((119 - n % 64) % 64) ++ beBytes 8 (8 * n)
  let h := (chunks 64 (padded.length / 64) padded).foldl shaBlock shaH
  h.flatMap fun w => beBytes 4 w.toNat

/-- HMAC-SHA-256 with a 32-byte key. -/
def hmacSha256 (key m : Bytes) : Bytes :=
  let k := fit 64 (if key.length ≤ 64 then key else sha256 key)
  sha256 ((k.map fun b => b ^^^ 0x5c#8) ++ sha256 ((k.map fun b => b ^^^ 0x36#8) ++ m))

/-! ### AES -/

/-- Multiplication by x in GF(2^8). -/
def xtime (b : Byte) : Byte := if b.getLsbD 7 then (b <<< 1) ^^^ 0x1b#8 else b <<< 1

/-- Multiplication in GF(2^8), over the low `n` bits of the second factor. -/
def gmulN : Nat → Byte → Byte → Byte
  | 0, _, _ => 0
  | n + 1, a, b => (if b.getLsbD 0 then a else 0) ^^^ gmulN n (xtime a) (b >>> 1)

/-- Multiplication in GF(2^8). -/
def gmul (a b : Byte) : Byte := gmulN 8 a b

/-- a^254, the inverse in GF(2^8). -/
def ginv (a : Byte) : Byte :=
  let a2 := gmul a a
  let a4 := gmul a2 a2
  let a8 := gmul a4 a4
  let a16 := gmul a8 a8
  let a32 := gmul a16 a16
  let a64 := gmul a32 a32
  let a128 := gmul a64 a64
  gmul a128 (gmul a64 (gmul a32 (gmul a16 (gmul a8 (gmul a4 a2)))))

/-- The AES S-box. -/
def aesSub (b : Byte) : Byte :=
  let i := ginv b
  i ^^^ i.rotateLeft 1 ^^^ i.rotateLeft 2 ^^^ i.rotateLeft 3 ^^^ i.rotateLeft 4 ^^^ 0x63#8

/-- The inverse AES S-box. -/
def aesInvSub (b : Byte) : Byte := ginv (b.rotateLeft 1 ^^^ b.rotateLeft 3 ^^^ b.rotateLeft 6 ^^^ 0x05#8)

/-- Byte-wise exclusive or. -/
def xorBytes (a b : Bytes) : Bytes := a.zipWith (fun x y => x ^^^ y) b

/-- The key schedule: 4-byte words, newest first; `i` counts words made. -/
def aesExpand (nk : Nat) : Nat → Nat → List Bytes → List Bytes
  | 0, _, rev => rev
  | n + 1, i, rev =>
    let t := rev.getD 0 []
    let t :=
      if i % nk = 0 then
        let r := (t.drop 1 ++ t.take 1).map aesSub
        xorBytes r ([Nat.rec (1#8) (fun _ b => xtime b) (i / nk - 1), 0#8, 0#8, 0#8])
      else if nk = 8 ∧ i % nk = 4 then t.map aesSub else t
    aesExpand nk n (i + 1) (xorBytes (rev.getD (nk - 1) []) t :: rev)

/-- The round keys of a 16- or 32-byte key, in order. -/
def aesRoundKeys (key : Bytes) : List Bytes :=
  let nk := key.length / 4
  let words := (aesExpand nk (4 * (nk + 7) - nk) nk (chunks 4 nk key).reverse).reverse
  chunks 16 (nk + 7) words.flatten

/-- ShiftRows on the column-major state. -/
def aesShift (s : Bytes) : Bytes := (List.range 16).map fun i => s.getD ((i + 4 * (i % 4)) % 16) 0

/-- Inverse ShiftRows. -/
def aesInvShift (s : Bytes) : Bytes := (List.range 16).map fun i => s.getD ((i + 16 - 4 * (i % 4)) % 16) 0

/-- A column matrix of MixColumns with first row `m`. -/
def aesMixWith (m : Bytes) (s : Bytes) : Bytes := (List.range 16).map fun i =>
  (List.range 4).foldl (fun a j => a ^^^ gmul (m.getD ((j + 4 - i % 4) % 4) 0) (s.getD (i / 4 * 4 + j) 0)) 0

/-- AES encryption of one block. -/
def aesEncrypt (key blk : Bytes) : Bytes :=
  match aesRoundKeys key with
  | [] => blk
  | k0 :: ks =>
    let n := ks.length
    (ks.zipIdx).foldl (fun s p =>
      let s := aesShift (s.map aesSub)
      let s := if p.2 + 1 = n then s else aesMixWith [2#8, 3#8, 1#8, 1#8] s
      xorBytes s p.1) (xorBytes blk k0)

/-- AES decryption of one block. -/
def aesDecrypt (key blk : Bytes) : Bytes :=
  match (aesRoundKeys key).reverse with
  | [] => blk
  | k0 :: ks =>
    let n := ks.length
    (ks.zipIdx).foldl (fun s p =>
      let s := xorBytes ((aesInvShift s).map aesInvSub) p.1
      if p.2 + 1 = n then s else aesMixWith [14#8, 11#8, 13#8, 9#8] s) (xorBytes blk k0)

/-! ### CMAC, GMAC and the KDF -/

/-- Doubling in the CMAC field: the subkey step of SP 800-38B. -/
def cmacDouble (l : Nat) : Nat := (2 * l % 2 ^ 128) ^^^ (if l.testBit 127 then 0x87 else 0)

/-- AES-CMAC, 16 bytes. -/
def aesCmac (key m : Bytes) : Bytes :=
  let k1 := cmacDouble (beNat (aesEncrypt key (zeros 16)))
  let k2 := cmacDouble k1
  let n := if m.isEmpty then 1 else cdiv m.length 16
  let last := m.drop (16 * (n - 1))
  let last :=
    if last.length = 16 then xorBytes last (beBytes 16 k1)
    else xorBytes (fit 16 (last ++ [0x80#8])) (beBytes 16 k2)
  (chunks 16 (n - 1) m ++ [last]).foldl (fun c b => aesEncrypt key (xorBytes c b)) (zeros 16)

/-- Multiplication in the GHASH field (SP 800-38D), over the remaining bits of `x`, most significant first. -/
def ghashMul : Nat → Nat → Nat → Nat
  | 0, _, _ => 0
  | n + 1, x, v =>
    (if x.testBit n then v else 0) ^^^
      ghashMul n x ((v / 2) ^^^ (if v % 2 = 1 then 0xe1000000000000000000000000000000 else 0))

/-- GMAC: additional data `a`, empty plaintext, 12-byte IV. -/
def aesGmac (key iv a : Bytes) : Bytes :=
  let h := beNat (aesEncrypt key (zeros 16))
  let blocks := chunks 16 (cdiv a.length 16) a ++ [beBytes 8 (8 * a.length) ++ zeros 8]
  let g := blocks.foldl (fun y b => ghashMul 128 (y ^^^ beNat (fit 16 b)) h) 0
  xorBytes (beBytes 16 g) (aesEncrypt key (iv ++ [0#8, 0#8, 0#8, 1#8]))

/-- The KDF of R312: counter mode of SP 800-108, PRF AES-256-CMAC, 32-bit counter; `bitsOut` is L. -/
def kdf (key : Bytes) (label : String) (context : Bytes) (bitsOut : Nat) : Bytes :=
  ((List.range (cdiv bitsOut 128)).flatMap fun i =>
    aesCmac key (beBytes 4 (i + 1) ++ ascii label ++ [0#8] ++ context ++ beBytes 4 bitsOut)).take (bitsOut / 8)

/-! ### RFC 5649 key unwrap -/

/-- One of the six passes of the unwrapping function, from step `t` down; the state is A and the halves R. -/
def unwrapStep (kek : Bytes) (n : Nat) (t : Nat) (st : Bytes × List Bytes) : Bytes × List Bytes :=
  let i := (t - 1) % n
  let b := aesDecrypt kek (xorBytes st.1 (beBytes 8 t) ++ st.2.getD i [])
  (b.take 8, st.2.set i (b.drop 8))

/-- The steps t = 6n down to 1. -/
def unwrapSteps (kek : Bytes) (n : Nat) : Nat → Bytes × List Bytes → Bytes × List Bytes
  | 0, st => st
  | t + 1, st => unwrapSteps kek n t (unwrapStep kek n (t + 1) st)

/-- RFC 5649 unwrap; none when the integrity check fails. -/
def keyUnwrap (kek wrapped : Bytes) : Option Bytes :=
  let n := wrapped.length / 8 - 1
  if wrapped.length % 8 ≠ 0 ∨ n = 0 then none
  else
    let st :=
      if n = 1 then
        let b := aesDecrypt kek wrapped
        (b.take 8, [b.drop 8])
      else unwrapSteps kek n (6 * n) (wrapped.take 8, chunks 8 n (wrapped.drop 8))
    let len := be st.1 4 4
    let p := st.2.flatten
    if be st.1 0 4 = 0xa65959a6 ∧ len ≤ 8 * n ∧ 8 * (n - 1) < len ∧ (p.drop len).all (fun b => b == 0#8) then
      some (p.take len)
    else none

/-- One pass of the wrapping function at step `t`. -/
def wrapStep (kek : Bytes) (n t : Nat) (st : Bytes × List Bytes) : Bytes × List Bytes :=
  let i := (t - 1) % n
  let b := aesEncrypt kek (st.1 ++ st.2.getD i [])
  (xorBytes (b.take 8) (beBytes 8 t), st.2.set i (b.drop 8))

/-- RFC 5649 wrap of a key of more than 8 bytes. -/
def keyWrap (kek key : Bytes) : Bytes :=
  let n := cdiv key.length 8
  let st := (List.range (6 * n)).foldl (fun st t => wrapStep kek n (t + 1) st) (beBytes 4 0xa65959a6 ++ beBytes 4 key.length, chunks 8 n (fit (8 * n) key))
  st.1 ++ st.2.flatten

/-! ### P-256 -/

/-- The field prime of P-256. -/
def p256p : Nat := 0xffffffff00000001000000000000000000000000ffffffffffffffffffffffff

/-- The group order n of P-256. -/
def p256n : Nat := 0xffffffff00000000ffffffffffffffffbce6faada7179e84f3b9cac2fc632551

/-- The curve constant b. -/
def p256b : Nat := 0x5ac635d8aa3a93e7b3ebbd55769886bc651d06b0cc53b0f63bce3c3e27d2604b

/-- The base point. -/
def p256G : Nat × Nat :=
  (0x6b17d1f2e12c4247f8bce6e563a440f277037d812deb33a0f4a13945d898c296,
   0x4fe342e2fe1a7f9b8ee7eb4a7c0f9e162bce33576b315ececbb6406837bf51f5)

/-- a^e mod m over the low `w` bits of e. -/
def powMod (m : Nat) : Nat → Nat → Nat → Nat
  | 0, _, _ => 1 % m
  | w + 1, a, e => (if e % 2 = 1 then a else 1) * powMod m w (a * a % m) (e / 2) % m

/-- Inverse modulo a prime. -/
def invMod (m a : Nat) : Nat := powMod m 256 (a % m) (m - 2)

/-- Point addition; none is the point at infinity. -/
def ecAdd (a b : Option (Nat × Nat)) : Option (Nat × Nat) :=
  match a, b with
  | none, q => q
  | q, none => q
  | some (x1, y1), some (x2, y2) =>
    let p := p256p
    if x1 = x2 ∧ (y1 + y2) % p = 0 then none
    else
      let l :=
        if x1 = x2 then (3 * x1 * x1 + (p - 3)) * invMod p (2 * y1) % p
        else (y2 + p - y1) * invMod p (x2 + p - x1) % p
      let x3 := (l * l + 2 * p - x1 - x2) % p
      some (x3, (l * (x1 + p - x3) + p - y1) % p)

/-- Scalar multiplication over the low `w` bits of k. -/
def ecMul : Nat → Nat → Option (Nat × Nat) → Option (Nat × Nat)
  | 0, _, _ => none
  | w + 1, k, q => ecAdd (if k % 2 = 1 then q else none) (ecMul w (k / 2) (ecAdd q q))

/-- The point X ‖ Y that 64 bytes spell lies on the curve. -/
def onCurve (x y : Nat) : Bool :=
  decide (x < p256p ∧ y < p256p) && (y * y % p256p == (x * x % p256p * x + (p256p - 3) * x + p256b) % p256p)

/-- ECDSA P-256 verification over SHA-256 of `m`; key X ‖ Y, signature r ‖ s. -/
def ecdsaVerify (key m sig : Bytes) : Bool :=
  let x := be key 0 32
  let y := be key 32 32
  let r := be sig 0 32
  let s := be sig 32 32
  if onCurve x y ∧ 1 ≤ r ∧ r < p256n ∧ 1 ≤ s ∧ s < p256n then
    let e := beNat (sha256 m)
    let w := invMod p256n s
    match ecAdd (ecMul 256 (e * w % p256n) (some p256G)) (ecMul 256 (r * w % p256n) (some (x, y))) with
    | none => false
    | some (px, _) => px % p256n == r
  else false

/-- The ECDSA P-256 signature r ‖ s of `m` under private key `d` with per-signature secret `k`. -/
def ecdsaSign (d k : Nat) (m : Bytes) : Bytes :=
  let k := k % (p256n - 1) + 1
  match ecMul 256 k (some p256G) with
  | none => zeros 64
  | some (x, _) =>
    let r := x % p256n
    let s := invMod p256n k * ((beNat (sha256 m) + r * d) % p256n) % p256n
    beBytes 32 r ++ beBytes 32 s

/-- The public key X ‖ Y of a private key. -/
def ecPublic (d : Nat) : Bytes :=
  match ecMul 256 d (some p256G) with
  | none => zeros 64
  | some (x, y) => beBytes 32 x ++ beBytes 32 y

/-- The ECDH shared x-coordinate. -/
def ecdhX (d : Nat) (key : Bytes) : Bytes :=
  match ecMul 256 d (some (be key 0 32, be key 32 32)) with
  | none => zeros 32
  | some (x, _) => beBytes 32 x

/-- A private key from 320 bits of KDF output (R312). -/
def ecPrivate (c : Bytes) : Nat := beNat c % (p256n - 1) + 1

end Sys2Proof.Machine
end

