-- ==== Sys2Proof/Machine/Objects.lean ====
section
/-! DEFINITION. The object dictionary's table: every object of every chapter's object tables, with its type, access
attribute, default and range (R20–R23, R47–R49 and the object tables of each chapter). -/

namespace Sys2Proof.Machine

/-- How an object's value is read (Table 2-1). -/
inductive ObjKind where
  | int
  | bool
  | octets
  | domain
  deriving DecidableEq, Repr

/-- The access attributes of Table 2-2; `stagedSealable` is rw-staged, sealed when loaded from a bundle (R114, R228, R240). -/
inductive ObjAccess where
  | ro
  | wo
  | rw
  | const
  | staged
  | stagedSealable
  | sealed
  deriving DecidableEq, Repr

/-- One row of an object table: `idxN` indices from `idx`, each with `subN` subindices from `sub`. A value is held as the
number its bytes spell, least significant byte first (R21); `range` lists the closed intervals allowed, all values where empty. -/
structure ObjRow where
  idx : Nat
  idxN : Nat
  sub : Nat
  subN : Nat
  size : Nat
  kind : ObjKind
  access : ObjAccess
  default : Nat
  range : List (Nat × Nat)
  sequenced : Bool
  deriving DecidableEq, Repr

/-- Objects of chapter 02, part 1. -/
def objects02_0 : List ObjRow := [
  ⟨0x1000, 1, 0, 1, 4, .int, .const, 0, [], false⟩,  -- DeviceType
  ⟨0x1001, 1, 0, 1, 1, .int, .ro, 0, [], false⟩,  -- ErrorRegister
  ⟨0x1014, 1, 0, 1, 4, .int, .staged, 0, [], false⟩,  -- CobIdEmcy
  ⟨0x1017, 1, 0, 1, 2, .int, .staged, 0x3e8, [(0, 0), (10, 65535)], false⟩,  -- ProducerHeartbeatTime
  ⟨0x1018, 1, 1, 1, 4, .int, .const, 0xa3d, [], false⟩,  -- VendorId
  ⟨0x1018, 1, 2, 1, 4, .int, .const, 0x8800, [], false⟩,  -- ProductCode
  ⟨0x1018, 1, 3, 1, 4, .int, .const, 0x20001, [], false⟩,  -- RevisionNumber
  ⟨0x1018, 1, 4, 1, 4, .int, .const, 0, [], false⟩,  -- SerialNumber
  ⟨0x1800, 16, 1, 1, 4, .int, .staged, 0, [], false⟩,  -- TpdoCobId
  ⟨0x1800, 16, 2, 1, 1, .int, .staged, 0xfe, [(254, 255)], false⟩,  -- TpdoTransmissionType
  ⟨0x1800, 16, 3, 1, 2, .int, .staged, 0, [], false⟩,  -- TpdoInhibitTime
  ⟨0x1800, 16, 5, 1, 2, .int, .staged, 0, [], false⟩,  -- TpdoEventTimer
  ⟨0x1A00, 16, 0, 1, 1, .int, .staged, 0, [(0, 16)], false⟩,  -- TpdoMappingCount
  ⟨0x1A00, 16, 1, 16, 4, .int, .staged, 0, [], false⟩,  -- TpdoMapping
  ⟨0x2000, 1, 1, 1, 32, .octets, .ro, 0, [], false⟩,  -- FirmwareBuildDigest
  ⟨0x2000, 1, 2, 1, 4, .int, .ro, 0, [], false⟩,  -- FirmwareVersion
  ⟨0x2000, 1, 3, 1, 16, .octets, .const, 0, [], false⟩,  -- DeviceUid
  ⟨0x2001, 1, 1, 1, 1, .int, .wo, 0, [(1, 2)], true⟩,  -- Commit
  ⟨0x2001, 1, 2, 1, 2, .int, .ro, 0, [], false⟩,  -- CommitDetail
  ⟨0x2001, 1, 3, 1, 4, .int, .ro, 0, [], false⟩  -- CommitConflict
]

/-- Objects of chapter 02, part 2. -/
def objects02_1 : List ObjRow := [
  ⟨0x2001, 1, 4, 1, 1, .int, .rw, 0, [(0, 2)], false⟩,  -- StagingLock
  ⟨0x2001, 1, 5, 1, 2, .int, .ro, 0, [], false⟩,  -- StagedCount
  ⟨0x2001, 1, 6, 1, 4, .int, .ro, 0, [], false⟩,  -- CommitCount
  ⟨0x2001, 1, 7, 1, 32, .octets, .ro, 0, [], false⟩,  -- LiveConfigDigest
  ⟨0x2002, 1, 1, 1, 2, .int, .ro, 0, [], false⟩,  -- LastDetailPcie
  ⟨0x2002, 1, 2, 1, 2, .int, .ro, 0, [], false⟩,  -- LastDetailCan
  ⟨0x2002, 1, 3, 1, 4, .int, .ro, 0, [], false⟩,  -- LastAbortPcie
  ⟨0x2002, 1, 4, 1, 4, .int, .ro, 0, [], false⟩,  -- LastAbortCan
  ⟨0x2010, 1, 1, 1, 1, .int, .ro, 0, [], false⟩,  -- NodeIdSource
  ⟨0x2010, 1, 2, 1, 1, .int, .ro, 0, [], false⟩,  -- NodeId
  ⟨0x2010, 1, 3, 1, 2, .int, .staged, 0x1f4, [(125, 125), (250, 250), (500, 500), (1000, 1000)], false⟩,  -- ArbitrationBitRate
  ⟨0x2010, 1, 4, 1, 2, .int, .staged, 0x7d0, [(1000, 1000), (2000, 2000), (4000, 4000), (5000, 5000), (8000, 8000)], false⟩,  -- DataBitRate
  ⟨0x2010, 1, 5, 1, 1, .int, .staged, 0x50, [(50, 90)], false⟩,  -- ArbitrationSamplePoint
  ⟨0x2010, 1, 6, 1, 1, .int, .staged, 0x4b, [(50, 90)], false⟩,  -- DataSamplePoint
  ⟨0x2010, 1, 7, 1, 1, .bool, .staged, 1, [(0, 1)], false⟩,  -- CanChannelEnable
  ⟨0x3002, 1, 1, 1, 4, .int, .ro, 0, [], false⟩,  -- PcieRequests
  ⟨0x3002, 1, 2, 1, 4, .int, .ro, 0, [], false⟩,  -- CanRequests
  ⟨0x3002, 1, 3, 1, 4, .int, .ro, 0, [], false⟩,  -- PcieAborts
  ⟨0x3002, 1, 4, 1, 4, .int, .ro, 0, [], false⟩,  -- CanAborts
  ⟨0x3002, 1, 5, 1, 4, .int, .ro, 0, [], false⟩  -- KeptResponses
]

/-- Objects of chapter 02, part 3. -/
def objects02_2 : List ObjRow := [
  ⟨0x3002, 1, 6, 1, 4, .int, .ro, 0, [], false⟩,  -- MailboxBusyDoorbells
  ⟨0x3002, 1, 7, 1, 4, .int, .ro, 0, [], false⟩,  -- TransfersAbandoned
  ⟨0x3002, 1, 8, 1, 4, .int, .ro, 0, [], false⟩,  -- CanBusOffCount
  ⟨0x3002, 1, 9, 1, 1, .int, .ro, 0, [], false⟩,  -- CanTec
  ⟨0x3002, 1, 10, 1, 1, .int, .ro, 0, [], false⟩  -- CanRec
]

/-- Objects of chapter 03. -/
def objects03 : List ObjRow := [
  ⟨0x2110, 1, 1, 32, 1, .int, .rw, 0, [(0, 4)], false⟩,  -- BankOwner
  ⟨0x2111, 1, 1, 32, 1, .int, .rw, 0, [(0, 1)], false⟩,  -- BankCode
  ⟨0x2112, 1, 0, 1, 8, .int, .wo, 0, [], false⟩,  -- BankHandover
  ⟨0x2113, 1, 0, 1, 4, .int, .staged, 0, [], false⟩,  -- TallyBanks
  ⟨0x2114, 1, 0, 1, 4, .int, .staged, 0, [], false⟩,  -- CulvertBanks
  ⟨0x3100, 1, 1, 1, 1, .int, .ro, 0, [], false⟩,  -- PcieLinkSpeed
  ⟨0x3100, 1, 2, 1, 1, .int, .ro, 0, [], false⟩,  -- PcieLinkWidth
  ⟨0x3100, 1, 3, 1, 4, .int, .ro, 0, [], false⟩,  -- PcieResets
  ⟨0x3100, 1, 4, 1, 4, .int, .ro, 0, [], false⟩,  -- RefusedWindowAccesses
  ⟨0x3110, 1, 1, 32, 4, .int, .ro, 0, [], false⟩,  -- BankCollisions
  ⟨0x3111, 1, 1, 32, 4, .int, .ro, 0, [], false⟩,  -- BankRefusals
  ⟨0x3112, 1, 1, 8, 4, .int, .ro, 0, [], false⟩,  -- MasterConflicts
  ⟨0x3120, 1, 1, 8, 1, .int, .ro, 0, [], false⟩,  -- RingExecutor
  ⟨0x3121, 1, 1, 8, 4, .int, .ro, 0, [], false⟩,  -- RingCompletions
  ⟨0x3122, 1, 1, 8, 4, .int, .ro, 0, [], false⟩,  -- RingHalts
  ⟨0x3123, 1, 1, 8, 4, .int, .ro, 0, [], false⟩  -- RingReplays
]

/-- Objects of chapter 04, part 1. -/
def objects04_0 : List ObjRow := [
  ⟨0x2210, 8, 1, 1, 1, .bool, .staged, 1, [(0, 1)], false⟩,  -- LinkEnable
  ⟨0x2210, 8, 2, 1, 1, .int, .staged, 8, [(0, 16)], false⟩,  -- TokenCreditsA
  ⟨0x2210, 8, 3, 1, 1, .int, .staged, 0x10, [(0, 64)], false⟩,  -- TokenCreditsB
  ⟨0x2210, 8, 4, 1, 1, .int, .staged, 8, [(0, 64)], false⟩,  -- TokenCreditsC
  ⟨0x2210, 8, 5, 1, 2, .int, .staged, 0x10, [(0, 4096)], false⟩,  -- PayloadUnitsA
  ⟨0x2210, 8, 6, 1, 2, .int, .staged, 0x1000, [(0, 4096)], false⟩,  -- PayloadUnitsB
  ⟨0x2210, 8, 7, 1, 2, .int, .staged, 0x1000, [(0, 4096)], false⟩,  -- PayloadUnitsC
  ⟨0x2210, 8, 8, 1, 1, .bool, .staged, 0, [(0, 1)], false⟩,  -- FecEnable
  ⟨0x2210, 8, 9, 1, 1, .bool, .staged, 1, [(0, 1)], false⟩,  -- AllowDegrade
  ⟨0x2210, 8, 10, 1, 1, .int, .staged, 4, [(0, 7)], false⟩,  -- TxPreset
  ⟨0x2210, 8, 11, 1, 1, .int, .staged, 0, [(0, 30)], false⟩,  -- TxDownSpread
  ⟨0x2218, 1, 1, 8, 1, .int, .wo, 0, [(1, 2)], false⟩,  -- LinkAction
  ⟨0x3200, 1, 1, 1, 1, .int, .ro, 0, [], false⟩,  -- FlumeSlotsInUse
  ⟨0x3200, 1, 2, 1, 1, .int, .ro, 0, [], false⟩,  -- SharedSlotsInUse
  ⟨0x3200, 1, 3, 1, 1, .int, .ro, 0, [], false⟩,  -- ClassCSlotsInUse
  ⟨0x3200, 1, 4, 1, 1, .int, .ro, 0, [], false⟩,  -- SharedSlotsPeak
  ⟨0x3200, 1, 5, 1, 4, .int, .ro, 0, [], false⟩,  -- CisternUnitsInUse
  ⟨0x3210, 8, 1, 1, 1, .int, .ro, 0, [], false⟩,  -- LinkState
  ⟨0x3210, 8, 2, 1, 1, .bool, .ro, 0, [], false⟩,  -- FecActive
  ⟨0x3210, 8, 3, 1, 4, .int, .ro, 0, [], false⟩  -- CrcErrors
]

/-- Objects of chapter 04, part 2. -/
def objects04_1 : List ObjRow := [
  ⟨0x3210, 8, 4, 1, 4, .int, .ro, 0, [], false⟩,  -- FramingErrors
  ⟨0x3210, 8, 5, 1, 4, .int, .ro, 0, [], false⟩,  -- DuplicateParcels
  ⟨0x3210, 8, 6, 1, 4, .int, .ro, 0, [], false⟩,  -- Resends
  ⟨0x3210, 8, 7, 1, 4, .int, .ro, 0, [], false⟩,  -- Retrains
  ⟨0x3210, 8, 8, 1, 4, .int, .ro, 0, [], false⟩,  -- ProtocolErrors
  ⟨0x3210, 8, 9, 1, 4, .int, .ro, 0, [], false⟩,  -- CreditViolations
  ⟨0x3210, 8, 10, 1, 4, .int, .ro, 0, [], false⟩,  -- OrphanPayloads
  ⟨0x3210, 8, 11, 1, 4, .int, .ro, 0, [], false⟩,  -- DupTags
  ⟨0x3210, 8, 12, 1, 2, .int, .ro, 0, [], false⟩,  -- HeldResults
  ⟨0x3210, 8, 13, 1, 4, .int, .ro, 0, [], false⟩,  -- DiscardedResults
  ⟨0x3210, 8, 14, 1, 1, .int, .ro, 0, [], false⟩  -- PeerPort
]

/-- Objects of chapter 05. -/
def objects05 : List ObjRow := [
  ⟨0x2300, 1, 1, 1, 1, .bool, .staged, 0, [(0, 1)], false⟩,  -- FlumeQ1
  ⟨0x2300, 1, 2, 1, 1, .bool, .staged, 0, [(0, 1)], false⟩,  -- ClassAAuth
  ⟨0x2310, 8, 1, 1, 1, .int, .staged, 0xa, [(0, 20)], false⟩,  -- ClassARate
  ⟨0x2310, 8, 2, 1, 1, .int, .staged, 1, [(1, 4)], false⟩,  -- ClassABurst
  ⟨0x2310, 8, 3, 1, 1, .int, .staged, 1, [(1, 1), (3, 3)], false⟩,  -- PolicedAction
  ⟨0x2340, 8, 1, 128, 128, .octets, .stagedSealable, 0, [], false⟩,  -- Program
  ⟨0x3300, 1, 1, 1, 4, .int, .ro, 0, [], false⟩,  -- ClassASearches
  ⟨0x3300, 1, 2, 1, 4, .int, .ro, 0, [], false⟩,  -- AuthPoliced
  ⟨0x3300, 1, 3, 1, 4, .int, .ro, 0, [], false⟩,  -- ClassAOverBound
  ⟨0x3300, 1, 4, 1, 2, .int, .ro, 0, [], false⟩,  -- ClassAMaxLatency
  ⟨0x3300, 1, 5, 1, 1, .int, .ro, 0, [], false⟩,  -- FlumeEntryPeak
  ⟨0x3300, 1, 6, 1, 4, .int, .ro, 0, [], false⟩,  -- FallbackResults
  ⟨0x3300, 1, 7, 1, 4, .int, .ro, 0, [], false⟩,  -- ErrDataResults
  ⟨0x3310, 8, 1, 1, 4, .int, .ro, 0, [], false⟩,  -- ClassAPoliced
  ⟨0x3340, 8, 1, 128, 4, .int, .ro, 0, [], false⟩  -- ProgramSearches
]

/-- Objects of chapter 06. -/
def objects06 : List ObjRow := [
  ⟨0x2410, 1, 1, 1, 1, .int, .staged, 4, [(0, 64)], false⟩,  -- LpmGap
  ⟨0x2410, 1, 2, 1, 1, .int, .staged, 2, [(0, 64)], false⟩,  -- PriorityGap
  ⟨0x2410, 1, 3, 1, 2, .int, .staged, 0x40, [(1, 1024)], false⟩,  -- InsertMoveLimit
  ⟨0x2420, 4, 1, 32, 8, .int, .staged, 0, [], false⟩,  -- TableDefinition
  ⟨0x3400, 1, 1, 1, 4, .int, .ro, 0, [], false⟩,  -- WinnerMismatches
  ⟨0x3400, 1, 2, 1, 4, .int, .ro, 0, [], false⟩,  -- ShadowRewrites
  ⟨0x3400, 1, 3, 1, 4, .int, .ro, 0, [], false⟩,  -- ScrubMismatches
  ⟨0x3400, 1, 4, 1, 4, .int, .ro, 0, [], false⟩,  -- Moves
  ⟨0x3400, 1, 5, 1, 4, .int, .ro, 0, [], false⟩,  -- MoveLimitFailures
  ⟨0x3400, 1, 6, 1, 1, .int, .ro, 0, [], false⟩,  -- BlocksPowered
  ⟨0x3410, 1, 1, 4, 2, .int, .ro, 0x2000, [], false⟩,  -- QuarterFree
  ⟨0x3420, 4, 1, 32, 4, .int, .ro, 0, [], false⟩  -- TableUsage
]

/-- Objects of chapter 07. -/
def objects07 : List ObjRow := [
  ⟨0x2500, 1, 1, 1, 4, .int, .staged, 0x4000, [(4096, 65536)], false⟩,  -- CowReserve
  ⟨0x2510, 1, 1, 16, 4, .int, .staged, 0, [], false⟩,  -- TrieDefinition
  ⟨0x3500, 1, 1, 1, 4, .int, .ro, 0, [], false⟩,  -- WordsInUse
  ⟨0x3500, 1, 2, 1, 4, .int, .ro, 0, [], false⟩,  -- WordsPeak
  ⟨0x3500, 1, 3, 1, 4, .int, .ro, 0, [], false⟩,  -- Publishes
  ⟨0x3500, 1, 4, 1, 4, .int, .ro, 0, [], false⟩,  -- ErrDataLookups
  ⟨0x3500, 1, 5, 1, 4, .int, .ro, 0, [], false⟩,  -- ReserveDraws
  ⟨0x3500, 1, 6, 1, 4, .int, .ro, 0, [], false⟩,  -- FullFailures
  ⟨0x3500, 1, 7, 1, 4, .int, .ro, 0, [], false⟩,  -- LookupsPipeline0
  ⟨0x3500, 1, 8, 1, 4, .int, .ro, 0, [], false⟩,  -- LookupsPipeline1
  ⟨0x3510, 1, 1, 16, 4, .int, .ro, 0, [], false⟩,  -- TableWords
  ⟨0x3520, 1, 1, 16, 4, .int, .ro, 0, [], false⟩,  -- TablePrefixes
  ⟨0x3530, 1, 1, 16, 4, .int, .ro, 0, [], false⟩,  -- TableNodes
  ⟨0x3540, 1, 1, 12, 4, .int, .ro, 0, [], false⟩  -- StageWords
]

/-- Objects of chapter 08. -/
def objects08 : List ObjRow := [
  ⟨0x2600, 1, 1, 1, 1, .int, .staged, 0x78, [(10, 120)], false⟩,  -- ExtLookupRate
  ⟨0x2610, 1, 1, 64, 8, .int, .staged, 0, [], false⟩,  -- BucketTableDefinition
  ⟨0x3600, 1, 1, 1, 1, .int, .ro, 0, [], false⟩,  -- SeedSource
  ⟨0x3600, 1, 2, 1, 2, .int, .ro, 0, [], false⟩,  -- OverflowInUse
  ⟨0x3600, 1, 3, 1, 2, .int, .ro, 0, [], false⟩,  -- OverflowPeak
  ⟨0x3600, 1, 4, 1, 4, .int, .ro, 0, [], false⟩,  -- SliceDrops
  ⟨0x3600, 1, 5, 1, 4, .int, .ro, 0, [], false⟩,  -- Promotions
  ⟨0x3600, 1, 6, 1, 4, .int, .ro, 0, [], false⟩,  -- ExtLookupsDeferred
  ⟨0x3600, 1, 7, 1, 1, .bool, .ro, 0, [], false⟩,  -- ExtReady
  ⟨0x3610, 1, 1, 64, 4, .int, .ro, 0, [], false⟩,  -- TableEntries
  ⟨0x3620, 1, 1, 64, 2, .int, .ro, 0, [], false⟩,  -- TableOverflow
  ⟨0x3630, 1, 1, 64, 4, .int, .ro, 0, [], false⟩,  -- InsertFailures
  ⟨0x3640, 1, 1, 64, 40, .octets, .ro, 0, [], false⟩,  -- LastFailedKey
  ⟨0x3650, 1, 1, 64, 4, .int, .ro, 0, [], false⟩  -- RegionBase
]

/-- Objects of chapter 09. -/
def objects09 : List ObjRow := [
  ⟨0x2700, 1, 1, 1, 1, .bool, .staged, 1, [(0, 1)], false⟩,  -- LearnEnable
  ⟨0x2710, 1, 1, 64, 8, .int, .staged, 0, [], false⟩,  -- AgingDefinition
  ⟨0x2720, 1, 1, 64, 8, .int, .staged, 0, [], false⟩,  -- LearnDefinition
  ⟨0x2730, 1, 1, 64, 4, .int, .staged, 0, [(0, 1048576)], false⟩,  -- LearnLimit
  ⟨0x2740, 1, 0, 1, 42, .octets, .wo, 0, [], true⟩,  -- MoveLockClear
  ⟨0x3700, 1, 1, 1, 4, .int, .ro, 0, [], false⟩,  -- LearnsApplied
  ⟨0x3700, 1, 2, 1, 4, .int, .ro, 0, [], false⟩,  -- StationMoves
  ⟨0x3700, 1, 3, 1, 4, .int, .ro, 0, [], false⟩,  -- MoveLocks
  ⟨0x3700, 1, 4, 1, 4, .int, .ro, 0, [], false⟩,  -- LockedMoveAttempts
  ⟨0x3700, 1, 5, 1, 4, .int, .ro, 0, [], false⟩,  -- StaticConflicts
  ⟨0x3700, 1, 6, 1, 4, .int, .ro, 0, [], false⟩,  -- LearnChannelRange
  ⟨0x3700, 1, 7, 1, 4, .int, .ro, 0, [], false⟩,  -- RefreshWrites
  ⟨0x3700, 1, 8, 1, 4, .int, .ro, 0, [], false⟩,  -- RefreshOrphans
  ⟨0x3700, 1, 9, 1, 4, .int, .ro, 0, [], false⟩,  -- AgedOut
  ⟨0x3700, 1, 10, 1, 4, .int, .ro, 0, [], false⟩,  -- AgeDeleteLost
  ⟨0x3700, 1, 11, 1, 4, .int, .ro, 0, [], false⟩,  -- SweepOverruns
  ⟨0x3710, 1, 1, 64, 4, .int, .ro, 0, [], false⟩,  -- LearnedEntries
  ⟨0x3720, 1, 1, 64, 2, .int, .ro, 0, [], false⟩,  -- CurrentTick
  ⟨0x3730, 1, 1, 64, 2, .int, .ro, 0, [], false⟩  -- LastLapTicks
]

/-- Objects of chapter 10. -/
def objects10 : List ObjRow := [
  ⟨0x2840, 8, 1, 128, 24, .octets, .stagedSealable, 0, [], false⟩,  -- MeterProfile
  ⟨0x3800, 1, 1, 1, 4, .int, .ro, 0, [], false⟩,  -- InvalidRecordHits
  ⟨0x3800, 1, 2, 1, 4, .int, .ro, 0, [], false⟩,  -- UnconfiguredMeters
  ⟨0x3800, 1, 3, 1, 4, .int, .ro, 0, [], false⟩,  -- GreenResults
  ⟨0x3800, 1, 4, 1, 4, .int, .ro, 0, [], false⟩,  -- YellowResults
  ⟨0x3800, 1, 5, 1, 4, .int, .ro, 0, [], false⟩,  -- RedResults
  ⟨0x3800, 1, 6, 1, 4, .int, .ro, 0, [], false⟩,  -- MeterRedResults
  ⟨0x3800, 1, 7, 1, 4, .int, .ro, 0, [], false⟩,  -- WeirCacheUpdates
  ⟨0x3800, 1, 8, 1, 4, .int, .ro, 0, [], false⟩,  -- WeirHomeUpdates
  ⟨0x3800, 1, 9, 1, 4, .int, .ro, 0, [], false⟩,  -- IdleRefreshes
  ⟨0x3800, 1, 10, 1, 1, .bool, .ro, 0, [], false⟩,  -- CounterLoss
  ⟨0x3800, 1, 11, 1, 4, .int, .ro, 0, [], false⟩  -- FlumeMeterUpdates
]

/-- Objects of chapter 11. -/
def objects11 : List ObjRow := [
  ⟨0x2900, 1, 1, 1, 2, .int, .staged, 0x3c, [(10, 3600)], false⟩,  -- FreshSaveInterval
  ⟨0x2901, 1, 0, 1, 1, .int, .wo, 0, [(0, 255)], true⟩,  -- FreshnessReset
  ⟨0x2940, 2, 1, 128, 32, .octets, .stagedSealable, 0, [], false⟩,  -- AuthProfile
  ⟨0x3900, 1, 1, 1, 4, .int, .ro, 0, [], false⟩,  -- AuthVerified
  ⟨0x3900, 1, 2, 1, 4, .int, .ro, 0, [], false⟩,  -- AuthFailResults
  ⟨0x3900, 1, 3, 1, 4, .int, .ro, 0, [], false⟩,  -- ReplayResults
  ⟨0x3900, 1, 4, 1, 4, .int, .ro, 0, [], false⟩,  -- KeyUnavailResults
  ⟨0x3900, 1, 5, 1, 4, .int, .ro, 0, [], false⟩,  -- KeyRevokedResults
  ⟨0x3900, 1, 6, 1, 4, .int, .ro, 0, [], false⟩,  -- AuthLenResults
  ⟨0x3900, 1, 7, 1, 4, .int, .ro, 0, [], false⟩,  -- Generations
  ⟨0x3900, 1, 8, 1, 4, .int, .ro, 0, [], false⟩,  -- Reauthentications
  ⟨0x3900, 1, 9, 1, 4, .int, .ro, 0, [], false⟩,  -- MacContextWaits
  ⟨0x3900, 1, 10, 1, 4, .int, .ro, 0, [], false⟩,  -- UnusedPayloads
  ⟨0x3900, 1, 11, 1, 4, .int, .ro, 0, [], false⟩,  -- FreshnessExhausted
  ⟨0x3900, 1, 12, 1, 4, .int, .ro, 0, [], false⟩,  -- UnsyncedCounters
  ⟨0x3900, 1, 13, 1, 4, .int, .ro, 0, [], false⟩,  -- SnapshotSequence
  ⟨0x3900, 1, 14, 1, 4, .int, .ro, 0, [], false⟩,  -- SnapshotFailures
  ⟨0x3910, 1, 1, 4, 4, .int, .ro, 0, [], false⟩  -- EngineOperations
]

/-- Objects of chapter 12, part 1. -/
def objects12_0 : List ObjRow := [
  ⟨0x2A00, 1, 1, 1, 2, .int, .staged, 0x64, [(50, 1000)], false⟩,  -- CheckpointInterval
  ⟨0x2A00, 1, 2, 1, 1, .bool, .staged, 1, [(0, 1)], false⟩,  -- PoisonRepair
  ⟨0x3A00, 1, 1, 1, 1, .int, .ro, 0, [], false⟩,  -- DomainState
  ⟨0x3A00, 1, 2, 1, 4, .int, .ro, 0, [], false⟩,  -- DomainRestarts
  ⟨0x3A00, 1, 3, 1, 1, .int, .ro, 0, [], false⟩,  -- LastFailureCause
  ⟨0x3A00, 1, 4, 1, 1, .int, .ro, 0xff, [], false⟩,  -- LastFailureUnit
  ⟨0x3A00, 1, 5, 1, 8, .int, .ro, 0, [], false⟩,  -- LastFailureTime
  ⟨0x3A00, 1, 6, 1, 4, .int, .ro, 0, [], false⟩,  -- LastRestartTime
  ⟨0x3A00, 1, 7, 1, 4, .int, .ro, 0, [], false⟩,  -- CheckpointsCommitted
  ⟨0x3A00, 1, 8, 1, 4, .int, .ro, 0, [], false⟩,  -- CheckpointAge
  ⟨0x3A00, 1, 9, 1, 4, .int, .ro, 0, [], false⟩,  -- PoisonedGranules
  ⟨0x3A00, 1, 10, 1, 4, .int, .ro, 0, [], false⟩,  -- PoisonRepairs
  ⟨0x3A00, 1, 11, 1, 4, .int, .ro, 0, [], false⟩,  -- PoisonedAtomics
  ⟨0x3A00, 1, 12, 1, 4, .int, .ro, 0, [], false⟩,  -- Nacks
  ⟨0x3A00, 1, 13, 1, 4, .int, .ro, 0, [], false⟩,  -- DirectoryEvictions
  ⟨0x3A00, 1, 14, 1, 4, .int, .ro, 0, [], false⟩,  -- DirectoryEvictionWaits
  ⟨0x3A00, 1, 15, 1, 4, .int, .ro, 0, [], false⟩,  -- BroadcastInvalidations
  ⟨0x3A00, 1, 16, 1, 4, .int, .ro, 0, [], false⟩,  -- StaleSnoops
  ⟨0x3A00, 1, 17, 1, 4, .int, .ro, 0, [], false⟩,  -- EvictionCrossings
  ⟨0x3A00, 1, 18, 1, 2, .int, .ro, 0, [], false⟩  -- RetiredLines
]

/-- Objects of chapter 12, part 2. -/
def objects12_1 : List ObjRow := [
  ⟨0x3A10, 1, 1, 16, 4, .int, .ro, 0, [], false⟩,  -- SliceOperations
  ⟨0x3A20, 1, 1, 16, 2, .int, .ro, 0, [], false⟩,  -- DirectoryInUse
  ⟨0x3A30, 1, 1, 16, 1, .int, .ro, 0, [], false⟩  -- QueuePeak
]

/-- Objects of chapter 13. -/
def objects13 : List ObjRow := [
  ⟨0x2B10, 1, 1, 18, 1, .int, .staged, 0, [(0, 1)], false⟩,  -- ScrubMode
  ⟨0x2B20, 1, 1, 18, 4, .int, .staged, 0, [], false⟩,  -- TopRate
  ⟨0x2B30, 1, 1, 18, 4, .int, .staged, 0x2710, [(100, 3600000)], false⟩,  -- YoyoLapLimit
  ⟨0x3B00, 1, 1, 1, 2, .int, .ro, 0, [], false⟩,  -- OnChipFillTime
  ⟨0x3B00, 1, 2, 1, 1, .int, .ro, 0, [], false⟩,  -- LpddrState
  ⟨0x3B00, 1, 3, 1, 2, .int, .ro, 0, [], false⟩,  -- LpddrUserCapacity
  ⟨0x3B00, 1, 4, 1, 1, .bool, .ro, 0, [], false⟩,  -- ShadowReady
  ⟨0x3B00, 1, 5, 1, 1, .int, .ro, 0, [], false⟩,  -- LpddrSparesUsed
  ⟨0x3B00, 1, 6, 1, 4, .int, .ro, 0, [], false⟩,  -- MergeReadModifyWrites
  ⟨0x3B00, 1, 7, 1, 4, .int, .ro, 0, [], false⟩,  -- BorrowWaits
  ⟨0x3B00, 1, 8, 1, 4, .int, .ro, 0, [], false⟩,  -- CandidateOverflows
  ⟨0x3B10, 1, 1, 18, 4, .int, .ro, 0, [], false⟩,  -- Corrections
  ⟨0x3B20, 1, 1, 18, 4, .int, .ro, 0, [], false⟩,  -- Uncorrectables
  ⟨0x3B30, 1, 1, 18, 4, .int, .ro, 0, [], false⟩,  -- LapTime
  ⟨0x3B40, 1, 1, 18, 2, .int, .ro, 0, [], false⟩,  -- WeakWordCount
  ⟨0x3B50, 1, 1, 18, 2, .int, .ro, 0, [], false⟩,  -- RetiredWords
  ⟨0x3B60, 1, 1, 18, 128, .octets, .ro, 0, [], false⟩,  -- WeakWordList
  ⟨0x3B70, 1, 1, 18, 4, .int, .ro, 0, [], false⟩  -- YoyoFallbacks
]

/-- Objects of chapter 14, part 1. -/
def objects14_0 : List ObjRow := [
  ⟨0x2C00, 1, 1, 1, 1, .int, .ro, 0, [], false⟩,  -- CurrentEpoch
  ⟨0x2C00, 1, 2, 1, 1, .bool, .ro, 0, [], false⟩,  -- Commissioned
  ⟨0x2C00, 1, 3, 1, 8, .int, .ro, 0, [], false⟩,  -- UpdateCounter
  ⟨0x2C00, 1, 4, 1, 1, .bool, .ro, 0, [], false⟩,  -- RecoveryRequired
  ⟨0x2C00, 1, 5, 1, 16, .octets, .ro, 0, [], false⟩,  -- RecoveryNonce
  ⟨0x2C00, 1, 6, 1, 32, .octets, .ro, 0, [], false⟩,  -- ManifestDigest
  ⟨0x2C00, 1, 7, 1, 8, .int, .ro, 0, [], false⟩,  -- ManifestSequence
  ⟨0x2C00, 1, 8, 1, 1, .int, .ro, 0, [], false⟩,  -- RootState
  ⟨0x2C00, 1, 9, 1, 1, .bool, .ro, 0, [], false⟩,  -- CertificateValid
  ⟨0x2C01, 1, 0, 1, 64, .octets, .ro, 0, [], false⟩,  -- IdentityPublicKey
  ⟨0x2C02, 1, 0, 1, 2048, .domain, .ro, 0, [], false⟩,  -- IdentityCertificate
  ⟨0x2C03, 1, 0, 1, 64, .octets, .ro, 0, [], false⟩,  -- AgreementPublicKey
  ⟨0x2C10, 1, 0, 1, 180, .octets, .ro, 0, [], false⟩,  -- LastReceipt
  ⟨0x2C20, 1, 0, 1, 20, .octets, .wo, 0, [], true⟩,  -- AttestRequest
  ⟨0x2C21, 1, 0, 1, 156, .octets, .ro, 0, [], false⟩,  -- AttestStatement
  ⟨0x2C30, 1, 1, 1, 2, .int, .staged, 0x3e8, [(100, 10000)], false⟩,  -- CommitInterval
  ⟨0x2C30, 1, 2, 1, 2, .int, .staged, 0x100, [(16, 256)], false⟩,  -- CommitRecords
  ⟨0x2C30, 1, 3, 1, 4, .int, .staged, 0xff, [], false⟩,  -- NotifyMask
  ⟨0x2C30, 1, 4, 1, 1, .int, .wo, 0, [(1, 1)], true⟩,  -- SealNow
  ⟨0x3C00, 1, 1, 1, 4, .int, .ro, 0, [], false⟩  -- BundlesApplied
]

/-- Objects of chapter 14, part 2. -/
def objects14_1 : List ObjRow := [
  ⟨0x3C00, 1, 2, 1, 4, .int, .ro, 0, [], false⟩,  -- RejectedBundles
  ⟨0x3C00, 1, 3, 1, 4, .int, .ro, 0, [], false⟩,  -- AlreadyApplied
  ⟨0x3C00, 1, 4, 1, 2, .int, .ro, 0, [], false⟩,  -- LastBundleDetail
  ⟨0x3C00, 1, 5, 1, 2, .int, .ro, 0, [], false⟩,  -- VaultEntriesLive
  ⟨0x3C00, 1, 6, 1, 2, .int, .ro, 0, [], false⟩,  -- SlotsLive
  ⟨0x3C00, 1, 7, 1, 2, .int, .ro, 0, [], false⟩,  -- SlotsRevoked
  ⟨0x3C00, 1, 8, 1, 8, .int, .ro, 0, [], false⟩,  -- NewestSequence
  ⟨0x3C00, 1, 9, 1, 8, .int, .ro, 0, [], false⟩,  -- NewestInFlash
  ⟨0x3C00, 1, 10, 1, 4, .int, .ro, 0, [], false⟩,  -- SealsWritten
  ⟨0x3C00, 1, 11, 1, 4, .int, .ro, 0, [], false⟩,  -- SegmentsTotal
  ⟨0x3C00, 1, 12, 1, 4, .int, .ro, 0, [], false⟩,  -- SegmentsRetired
  ⟨0x3C00, 1, 13, 1, 4, .int, .ro, 0, [], false⟩,  -- MaxEraseCount
  ⟨0x3C00, 1, 14, 1, 1, .int, .ro, 0, [], false⟩,  -- EnduranceUsed
  ⟨0x3C00, 1, 15, 1, 4, .int, .ro, 0, [], false⟩,  -- UnreadOverwritten
  ⟨0x5000, 1, 1, 1, 8, .int, .rw, 0, [], false⟩,  -- Cursor
  ⟨0x5000, 1, 2, 1, 8, .int, .ro, 0, [], false⟩,  -- OldestPresent
  ⟨0x5001, 1, 0, 1, 4096, .domain, .ro, 0, [], false⟩,  -- Window
  ⟨0x5002, 1, 0, 1, 2, .int, .wo, 0, [(1, 4096)], true⟩,  -- Advance
  ⟨0x5003, 1, 0, 1, 144, .octets, .ro, 0, [], false⟩  -- LatestSeal
]

/-- Objects of chapter 15, part 1. -/
def objects15_0 : List ObjRow := [
  ⟨0x2D00, 1, 1, 1, 1, .int, .sealed, 0, [(0, 15)], false⟩,  -- TampEnable
  ⟨0x2D00, 1, 2, 1, 1, .int, .sealed, 0, [(0, 15)], false⟩,  -- TampPolarity
  ⟨0x2D00, 1, 3, 1, 1, .int, .sealed, 2, [(0, 15)], false⟩,  -- TampDebounce
  ⟨0x2D00, 1, 4, 1, 1, .int, .sealed, 0, [(0, 3)], false⟩,  -- MeshEnable
  ⟨0x2D00, 1, 5, 1, 1, .int, .sealed, 0xf, [(0, 15)], false⟩,  -- EnvEnable
  ⟨0x2D00, 1, 6, 1, 1, .bool, .sealed, 0, [(0, 1)], false⟩,  -- WakeOnTamper
  ⟨0x2D01, 1, 0, 1, 1, .int, .wo, 0, [(1, 1)], true⟩,  -- TamperClear
  ⟨0x2D10, 1, 0, 1, 16, .octets, .ro, 0, [], false⟩,  -- JackChallenge
  ⟨0x2D11, 1, 0, 1, 132, .octets, .wo, 0, [], true⟩,  -- JackResponse
  ⟨0x2D20, 1, 0, 1, 16, .octets, .rw, 0, [], false⟩,  -- JackMemoryRequest
  ⟨0x2D21, 1, 0, 1, 4096, .domain, .ro, 0, [], false⟩,  -- JackMemoryData
  ⟨0x2D22, 1, 0, 1, 1, .int, .rw, 0, [(0, 15)], false⟩,  -- MarionetteHalt
  ⟨0x2D23, 1, 0, 1, 4, .int, .rw, 0, [], false⟩,  -- TraceControl
  ⟨0x3D00, 1, 1, 1, 2, .int, .ro, 0, [], false⟩,  -- TamperCause
  ⟨0x3D00, 1, 2, 1, 1, .int, .ro, 0xff, [], false⟩,  -- TamperFirstCause
  ⟨0x3D00, 1, 3, 1, 8, .int, .ro, 0, [], false⟩,  -- TamperRtcTime
  ⟨0x3D00, 1, 4, 1, 2, .int, .ro, 0, [], false⟩,  -- TamperActive
  ⟨0x3D00, 1, 5, 1, 4, .int, .ro, 0, [], false⟩,  -- TamperEvents
  ⟨0x3D00, 1, 6, 1, 1, .int, .ro, 0, [], false⟩,  -- JackState
  ⟨0x3D00, 1, 7, 1, 1, .int, .ro, 0, [], false⟩  -- JackOpenings
]

/-- Objects of chapter 15, part 2. -/
def objects15_1 : List ObjRow := [
  ⟨0x3D00, 1, 8, 1, 1, .int, .ro, 0, [], false⟩,  -- JackFuseFailures
  ⟨0x3D00, 1, 9, 1, 4, .int, .ro, 0, [], false⟩,  -- JackRejections
  ⟨0x3D00, 1, 10, 1, 8, .int, .ro, 0, [], false⟩  -- RtcNow
]

/-- Objects of chapter 16, part 1. -/
def objects16_0 : List ObjRow := [
  ⟨0x2E00, 1, 1, 1, 2, .int, .staged, 0xc8, [(10, 10000)], false⟩,  -- AckTimeout
  ⟨0x2E00, 1, 3, 1, 2, .int, .staged, 0x3f80, [(0, 16256)], false⟩,  -- WakeRecordBase
  ⟨0x2E00, 1, 4, 1, 2, .int, .staged, 0xa, [(1, 1000)], false⟩,  -- PwrHoldMinLow
  ⟨0x2E00, 1, 5, 1, 2, .int, .staged, 0x1f4, [(50, 5000)], false⟩,  -- SleepEntryLimit
  ⟨0x2E10, 1, 1, 24, 1, .int, .staged, 0, [(0, 255)], false⟩,  -- GateLineConfig
  ⟨0x2E20, 1, 1, 128, 8, .int, .staged, 0, [], false⟩,  -- SourceDefinition
  ⟨0x2E28, 1, 1, 128, 8, .int, .staged, 0, [], false⟩,  -- SourcePns
  ⟨0x2E30, 1, 1, 4, 4, .int, .staged, 0, [], false⟩,  -- WakeTimer
  ⟨0x2E40, 1, 1, 64, 8, .int, .staged, 0, [], false⟩,  -- PnDefinition
  ⟨0x2E48, 1, 1, 64, 4, .int, .staged, 0xe10, [(1, 86400)], false⟩,  -- PnMaxAwake
  ⟨0x2E50, 1, 0, 1, 8, .int, .rw, 0, [], false⟩,  -- HostRequest
  ⟨0x2E51, 1, 0, 1, 8, .int, .wo, 0, [], false⟩,  -- SleepAck
  ⟨0x2E52, 1, 0, 1, 1, .int, .wo, 0, [(0, 127), (255, 255)], false⟩,  -- SourceMaskClear
  ⟨0x2E60, 1, 1, 64, 32, .octets, .staged, 0, [], false⟩,  -- PnChannels
  ⟨0x3E00, 1, 1, 1, 8, .int, .ro, 0, [], false⟩,  -- PnAwakeMask
  ⟨0x3E00, 1, 2, 1, 8, .int, .ro, 0, [], false⟩,  -- PnPrepareMask
  ⟨0x3E00, 1, 3, 1, 1, .bool, .ro, 1, [], false⟩,  -- PwrHoldState
  ⟨0x3E00, 1, 4, 1, 1, .bool, .ro, 0, [], false⟩,  -- HeldConfig
  ⟨0x3E00, 1, 5, 1, 1, .int, .ro, 0xff, [], false⟩,  -- LastWakeSource
  ⟨0x3E00, 1, 6, 1, 4, .int, .ro, 0, [], false⟩  -- WakeHitsUnmapped
]

/-- Objects of chapter 16, part 2. -/
def objects16_1 : List ObjRow := [
  ⟨0x3E00, 1, 7, 1, 4, .int, .ro, 0, [], false⟩,  -- StaleAcks
  ⟨0x3E00, 1, 8, 1, 4, .int, .ro, 0, [], false⟩,  -- FailSafeCommits
  ⟨0x3E00, 1, 9, 1, 4, .int, .ro, 0, [], false⟩,  -- LatchedRewakes
  ⟨0x3E00, 1, 10, 1, 4, .int, .ro, 0, [], false⟩,  -- Overruns
  ⟨0x3E00, 1, 11, 1, 4, .int, .ro, 0, [], false⟩,  -- MaskedWakes
  ⟨0x3E00, 1, 12, 1, 4, .int, .ro, 0, [], false⟩,  -- SleepEntryTimeouts
  ⟨0x3E10, 1, 1, 64, 1, .int, .ro, 0, [], false⟩,  -- PnState
  ⟨0x3E20, 1, 1, 128, 8, .int, .ro, 0, [], false⟩,  -- SourceMask
  ⟨0x3E30, 1, 1, 64, 4, .int, .ro, 0, [], false⟩  -- PnWakeCount
]

/-- Objects of chapter 17, part 1. -/
def objects17_0 : List ObjRow := [
  ⟨0x2F00, 1, 1, 1, 4, .int, .staged, 0, [], false⟩,  -- PairId
  ⟨0x2F00, 1, 2, 1, 2, .int, .staged, 0x1ef, [], false⟩,  -- CompareMask
  ⟨0x2F00, 1, 3, 1, 2, .int, .staged, 0x3e8, [(0, 10000)], false⟩,  -- ConfigGrace
  ⟨0x2F00, 1, 4, 1, 2, .int, .staged, 0x3e8, [(100, 10000)], false⟩,  -- PeerTimeout
  ⟨0x2F00, 1, 5, 1, 2, .int, .staged, 0xa, [(1, 1000)], false⟩,  -- SoloAfter
  ⟨0x2F00, 1, 6, 1, 1, .bool, .staged, 0, [(0, 1)], false⟩,  -- CulvertFecEnable
  ⟨0x2F00, 1, 7, 1, 1, .int, .staged, 4, [(0, 7)], false⟩,  -- CulvertTxPreset
  ⟨0x2F00, 1, 8, 1, 2, .int, .staged, 0x3e8, [(200, 50000)], false⟩,  -- ChainTimeoutBC
  ⟨0x2F00, 1, 9, 1, 1, .int, .staged, 4, [(0, 7)], false⟩,  -- DominoTxPreset
  ⟨0x2F01, 1, 0, 1, 1, .int, .wo, 0, [(1, 1)], true⟩,  -- Promote
  ⟨0x2F02, 1, 0, 1, 1, .int, .wo, 0, [(1, 1)], true⟩,  -- PairRelease
  ⟨0x3F00, 1, 1, 1, 1, .int, .ro, 0, [], false⟩,  -- PairRole
  ⟨0x3F00, 1, 2, 1, 1, .int, .ro, 0, [], false⟩,  -- PairState
  ⟨0x3F00, 1, 3, 1, 16, .octets, .ro, 0, [], false⟩,  -- PeerUid
  ⟨0x3F00, 1, 4, 1, 4, .int, .ro, 0, [], false⟩,  -- PairEpoch
  ⟨0x3F00, 1, 5, 1, 4, .int, .ro, 0, [], false⟩,  -- TimeOffset
  ⟨0x3F00, 1, 6, 1, 1, .bool, .ro, 0, [], false⟩,  -- TimeUnsynced
  ⟨0x3F00, 1, 7, 1, 4, .int, .ro, 0, [], false⟩,  -- ResultsCompared
  ⟨0x3F00, 1, 8, 1, 4, .int, .ro, 0, [], false⟩,  -- ResultDisagreements
  ⟨0x3F00, 1, 9, 1, 4, .int, .ro, 0, [], false⟩  -- CompareMissing
]

/-- Objects of chapter 17, part 2. -/
def objects17_1 : List ObjRow := [
  ⟨0x3F00, 1, 10, 1, 4, .int, .ro, 0, [], false⟩,  -- CompareSkipped
  ⟨0x3F00, 1, 11, 1, 4, .int, .ro, 0, [], false⟩,  -- CommandsForwarded
  ⟨0x3F00, 1, 12, 1, 4, .int, .ro, 0, [], false⟩,  -- PeerFailures
  ⟨0x3F00, 1, 13, 1, 4, .int, .ro, 0, [], false⟩,  -- PeerCommitLost
  ⟨0x3F00, 1, 14, 1, 2, .int, .ro, 0, [], false⟩,  -- PeerLastDetail
  ⟨0x3F00, 1, 15, 1, 4, .int, .ro, 0, [], false⟩,  -- Resyncs
  ⟨0x3F00, 1, 16, 1, 2, .int, .ro, 0, [], false⟩,  -- RegionsResyncing
  ⟨0x3F00, 1, 17, 1, 4, .int, .ro, 0, [], false⟩,  -- PairIdMismatches
  ⟨0x3F00, 1, 18, 1, 1, .int, .ro, 0, [], false⟩,  -- CulvertLinkState
  ⟨0x3F10, 1, 1, 1, 1, .int, .ro, 0, [], false⟩,  -- ChainPosition
  ⟨0x3F10, 1, 2, 1, 1, .int, .ro, 1, [], false⟩,  -- ChainMembers
  ⟨0x3F10, 1, 3, 1, 1, .int, .ro, 0, [], false⟩,  -- ChainState
  ⟨0x3F10, 1, 4, 1, 4, .int, .ro, 0, [], false⟩,  -- ChainTimeouts
  ⟨0x3F10, 1, 5, 1, 4, .int, .ro, 0, [], false⟩,  -- ChainLateAnswers
  ⟨0x3F10, 1, 6, 1, 1, .int, .ro, 0, [], false⟩  -- InconsistentMembers
]

/-- Objects of chapter 18, part 1. -/
def objects18_0 : List ObjRow := [
  ⟨0x4000, 1, 1, 4, 2, .int, .ro, 0, [], false⟩,  -- QuadrantPace
  ⟨0x4000, 1, 5, 1, 2, .int, .ro, 0, [], false⟩,  -- MinPace
  ⟨0x4000, 1, 6, 1, 2, .int, .ro, 0, [], false⟩,  -- PipelineRate
  ⟨0x4000, 1, 7, 1, 4, .int, .ro, 0, [], false⟩,  -- SearchRate
  ⟨0x4010, 1, 1, 4, 2, .int, .ro, 0, [], false⟩,  -- QuadrantTemp
  ⟨0x4010, 1, 5, 1, 2, .int, .ro, 0, [], false⟩,  -- MaxTemp
  ⟨0x4010, 1, 6, 1, 2, .int, .ro, 0, [], false⟩,  -- BatteryIslandTemp
  ⟨0x4020, 1, 1, 9, 2, .int, .ro, 0, [], false⟩,  -- RailVoltage
  ⟨0x4030, 1, 1, 10, 4, .int, .ro, 0, [], false⟩,  -- BlockPower
  ⟨0x4030, 1, 11, 1, 4, .int, .ro, 0, [], false⟩,  -- TotalPower
  ⟨0x4040, 1, 1, 1, 4, .int, .ro, 0, [], false⟩,  -- TopOperations
  ⟨0x4040, 1, 2, 1, 4, .int, .ro, 0, [], false⟩,  -- SweepOperations
  ⟨0x4040, 1, 3, 1, 4, .int, .ro, 0, [], false⟩,  -- LastCheckpointTime
  ⟨0x4040, 1, 4, 1, 2, .int, .ro, 0, [], false⟩,  -- BackgroundShare
  ⟨0x2040, 1, 1, 1, 1, .bool, .staged, 0, [(0, 1)], false⟩,  -- DrowseEnable
  ⟨0x2040, 1, 2, 1, 2, .int, .staged, 0x64, [(1, 60000)], false⟩,  -- DrowseIdle
  ⟨0x2040, 1, 3, 1, 2, .int, .staged, 0x47e, [(800, 1250)], false⟩,  -- TempWarning
  ⟨0x2041, 1, 0, 1, 1, .int, .wo, 0, [(1, 1)], false⟩,  -- DrowseExit
  ⟨0x2042, 1, 0, 1, 12, .octets, .wo, 0, [], true⟩,  -- FirmwareStage
  ⟨0x3040, 1, 1, 1, 1, .int, .ro, 0, [], false⟩  -- Mode
]

/-- Objects of chapter 18, part 2. -/
def objects18_1 : List ObjRow := [
  ⟨0x3040, 1, 2, 1, 1, .int, .ro, 0, [], false⟩,  -- ClassReady
  ⟨0x3040, 1, 3, 1, 1, .int, .ro, 0, [], false⟩,  -- StartCause
  ⟨0x3040, 1, 4, 1, 1, .int, .ro, 0, [], false⟩,  -- LockedCause
  ⟨0x3040, 1, 5, 1, 4, .int, .ro, 0, [], false⟩,  -- ClassAReadyTime
  ⟨0x3040, 1, 6, 1, 4, .int, .ro, 0, [], false⟩,  -- ClassBReadyTime
  ⟨0x3040, 1, 7, 1, 4, .int, .ro, 0, [], false⟩,  -- ClassCReadyTime
  ⟨0x3040, 1, 8, 1, 1, .int, .ro, 0, [], false⟩,  -- FirmwareSlot
  ⟨0x3040, 1, 9, 1, 1, .int, .ro, 0, [], false⟩,  -- FirmwareStageState
  ⟨0x3040, 1, 10, 1, 8, .int, .ro, 0, [], false⟩,  -- QuarantineMask
  ⟨0x3040, 1, 11, 1, 4, .int, .ro, 0, [], false⟩,  -- DrowseEntries
  ⟨0x3040, 1, 12, 1, 2, .int, .ro, 0, [], false⟩,  -- DrowseExitMax
  ⟨0x3040, 1, 13, 1, 4, .int, .ro, 0, [], false⟩,  -- UnplannedPowerLoss
  ⟨0x3050, 1, 1, 1, 84, .octets, .ro, 0, [], false⟩,  -- ActiveFaults
  ⟨0x3050, 1, 2, 1, 1, .int, .ro, 0, [], false⟩,  -- ActiveFaultCount
  ⟨0x3050, 1, 3, 1, 2, .int, .ro, 0, [], false⟩,  -- LastFaultCode
  ⟨0x3050, 1, 4, 1, 2, .int, .ro, 0, [], false⟩,  -- LastFaultDetail
  ⟨0x3050, 1, 5, 1, 8, .int, .ro, 0, [], false⟩,  -- LastFaultTime
  ⟨0x3050, 1, 6, 1, 4, .int, .ro, 0, [], false⟩,  -- FaultsRaised
  ⟨0x3050, 1, 7, 1, 1, .bool, .ro, 0, [], false⟩,  -- FaultNState
  ⟨0x3050, 1, 8, 1, 4, .int, .ro, 0, [], false⟩  -- EmcySuppressed
]

/-- Every object of the dictionary (R47). -/
def objectTable : List ObjRow :=
  objects02_0 ++
  objects02_1 ++
  objects02_2 ++
  objects03 ++
  objects04_0 ++
  objects04_1 ++
  objects05 ++
  objects06 ++
  objects07 ++
  objects08 ++
  objects09 ++
  objects10 ++
  objects11 ++
  objects12_0 ++
  objects12_1 ++
  objects13 ++
  objects14_0 ++
  objects14_1 ++
  objects15_0 ++
  objects15_1 ++
  objects16_0 ++
  objects16_1 ++
  objects17_0 ++
  objects17_1 ++
  objects18_0 ++
  objects18_1

/-- A row holds the object at this index and subindex; 0x2940.01 is absent (Table 11-1 numbers profiles from 1). -/
def ObjRow.covers (r : ObjRow) (idx sub : Nat) : Bool :=
  r.idx ≤ idx && idx < r.idx + r.idxN && r.sub ≤ sub && sub < r.sub + r.subN && !(idx == 0x2940 && sub == 1)

/-- The index exists (R47). -/
def indexExists (idx : Nat) : Bool := objectTable.any fun r => r.idx ≤ idx && idx < r.idx + r.idxN

/-- The highest subindex present at an index, which subindex 0 of a record reads (R20). -/
def highestSub (idx : Nat) : Nat :=
  objectTable.foldl (fun m r => if r.idx ≤ idx && idx < r.idx + r.idxN then max m (r.sub + r.subN - 1) else m) 0

/-- The row of an object; subindex 0 of a record that has no row of its own is an UNSIGNED8, ro (R20). -/
def objRow? (idx sub : Nat) : Option ObjRow :=
  match objectTable.find? fun r => r.covers idx sub with
  | some r => some r
  | none => if sub = 0 && indexExists idx then some ⟨idx, 1, 0, 1, 1, .int, .ro, highestSub idx, [], false⟩ else none

/-- An object's key: its index and subindex as one number. -/
def objKey (idx sub : Nat) : Nat := idx * 256 + sub

namespace O

/-- DeviceType. -/
def deviceType : Nat := 0x100000

/-- ErrorRegister. -/
def errorRegister : Nat := 0x100100

/-- CobIdEmcy. -/
def cobIdEmcy : Nat := 0x101400

/-- ProducerHeartbeatTime. -/
def producerHeartbeatTime : Nat := 0x101700

/-- VendorId. -/
def vendorId : Nat := 0x101801

/-- ProductCode. -/
def productCode : Nat := 0x101802

/-- RevisionNumber. -/
def revisionNumber : Nat := 0x101803

/-- SerialNumber. -/
def serialNumber : Nat := 0x101804

/-- TpdoCobId of unit `m`. -/
def tpdoCobId (m : Nat) : Nat := 0x180001 + 0x100 * m

/-- TpdoTransmissionType of unit `m`. -/
def tpdoTransmissionType (m : Nat) : Nat := 0x180002 + 0x100 * m

/-- TpdoInhibitTime of unit `m`. -/
def tpdoInhibitTime (m : Nat) : Nat := 0x180003 + 0x100 * m

/-- TpdoEventTimer of unit `m`. -/
def tpdoEventTimer (m : Nat) : Nat := 0x180005 + 0x100 * m

/-- TpdoMappingCount of unit `m`. -/
def tpdoMappingCount (m : Nat) : Nat := 0x1A0000 + 0x100 * m

/-- TpdoMapping `i` of unit `m`. -/
def tpdoMapping (m i : Nat) : Nat := 0x1A0001 + 0x100 * m + i

/-- FirmwareBuildDigest. -/
def firmwareBuildDigest : Nat := 0x200001

/-- FirmwareVersion. -/
def firmwareVersion : Nat := 0x200002

/-- DeviceUid. -/
def deviceUid : Nat := 0x200003

/-- Commit. -/
def commit : Nat := 0x200101

/-- CommitDetail. -/
def commitDetail : Nat := 0x200102

/-- CommitConflict. -/
def commitConflict : Nat := 0x200103

/-- StagingLock. -/
def stagingLock : Nat := 0x200104

/-- StagedCount. -/
def stagedCount : Nat := 0x200105

/-- CommitCount. -/
def commitCount : Nat := 0x200106

/-- LiveConfigDigest. -/
def liveConfigDigest : Nat := 0x200107

/-- LastDetailPcie. -/
def lastDetailPcie : Nat := 0x200201

/-- LastDetailCan. -/
def lastDetailCan : Nat := 0x200202

/-- LastAbortPcie. -/
def lastAbortPcie : Nat := 0x200203

/-- LastAbortCan. -/
def lastAbortCan : Nat := 0x200204

/-- NodeIdSource. -/
def nodeIdSource : Nat := 0x201001

/-- NodeId. -/
def nodeId : Nat := 0x201002

/-- ArbitrationBitRate. -/
def arbitrationBitRate : Nat := 0x201003

/-- DataBitRate. -/
def dataBitRate : Nat := 0x201004

/-- ArbitrationSamplePoint. -/
def arbitrationSamplePoint : Nat := 0x201005

/-- DataSamplePoint. -/
def dataSamplePoint : Nat := 0x201006

/-- CanChannelEnable. -/
def canChannelEnable : Nat := 0x201007

/-- PcieRequests. -/
def pcieRequests : Nat := 0x300201

/-- CanRequests. -/
def canRequests : Nat := 0x300202

/-- PcieAborts. -/
def pcieAborts : Nat := 0x300203

/-- CanAborts. -/
def canAborts : Nat := 0x300204

/-- KeptResponses. -/
def keptResponses : Nat := 0x300205

/-- MailboxBusyDoorbells. -/
def mailboxBusyDoorbells : Nat := 0x300206

/-- TransfersAbandoned. -/
def transfersAbandoned : Nat := 0x300207

/-- CanBusOffCount. -/
def canBusOffCount : Nat := 0x300208

/-- CanTec. -/
def canTec : Nat := 0x300209

/-- CanRec. -/
def canRec : Nat := 0x30020A

/-- BankOwner, number `i` of them from 0. -/
def bankOwner (i : Nat) : Nat := 0x211001 + i

/-- BankCode, number `i` of them from 0. -/
def bankCode (i : Nat) : Nat := 0x211101 + i

/-- BankHandover. -/
def bankHandover : Nat := 0x211200

/-- TallyBanks. -/
def tallyBanks : Nat := 0x211300

/-- CulvertBanks. -/
def culvertBanks : Nat := 0x211400

/-- PcieLinkSpeed. -/
def pcieLinkSpeed : Nat := 0x310001

/-- PcieLinkWidth. -/
def pcieLinkWidth : Nat := 0x310002

/-- PcieResets. -/
def pcieResets : Nat := 0x310003

/-- RefusedWindowAccesses. -/
def refusedWindowAccesses : Nat := 0x310004

/-- BankCollisions, number `i` of them from 0. -/
def bankCollisions (i : Nat) : Nat := 0x311001 + i

/-- BankRefusals, number `i` of them from 0. -/
def bankRefusals (i : Nat) : Nat := 0x311101 + i

/-- MasterConflicts, number `i` of them from 0. -/
def masterConflicts (i : Nat) : Nat := 0x311201 + i

/-- RingExecutor, number `i` of them from 0. -/
def ringExecutor (i : Nat) : Nat := 0x312001 + i

/-- RingCompletions, number `i` of them from 0. -/
def ringCompletions (i : Nat) : Nat := 0x312101 + i

/-- RingHalts, number `i` of them from 0. -/
def ringHalts (i : Nat) : Nat := 0x312201 + i

/-- RingReplays, number `i` of them from 0. -/
def ringReplays (i : Nat) : Nat := 0x312301 + i

/-- LinkEnable of unit `m`. -/
def linkEnable (m : Nat) : Nat := 0x221001 + 0x100 * m

/-- TokenCreditsA of unit `m`. -/
def tokenCreditsA (m : Nat) : Nat := 0x221002 + 0x100 * m

/-- TokenCreditsB of unit `m`. -/
def tokenCreditsB (m : Nat) : Nat := 0x221003 + 0x100 * m

/-- TokenCreditsC of unit `m`. -/
def tokenCreditsC (m : Nat) : Nat := 0x221004 + 0x100 * m

/-- PayloadUnitsA of unit `m`. -/
def payloadUnitsA (m : Nat) : Nat := 0x221005 + 0x100 * m

/-- PayloadUnitsB of unit `m`. -/
def payloadUnitsB (m : Nat) : Nat := 0x221006 + 0x100 * m

/-- PayloadUnitsC of unit `m`. -/
def payloadUnitsC (m : Nat) : Nat := 0x221007 + 0x100 * m

/-- FecEnable of unit `m`. -/
def fecEnable (m : Nat) : Nat := 0x221008 + 0x100 * m

/-- AllowDegrade of unit `m`. -/
def allowDegrade (m : Nat) : Nat := 0x221009 + 0x100 * m

/-- TxPreset of unit `m`. -/
def txPreset (m : Nat) : Nat := 0x22100A + 0x100 * m

/-- TxDownSpread of unit `m`. -/
def txDownSpread (m : Nat) : Nat := 0x22100B + 0x100 * m

/-- LinkAction, number `i` of them from 0. -/
def linkAction (i : Nat) : Nat := 0x221801 + i

/-- FlumeSlotsInUse. -/
def flumeSlotsInUse : Nat := 0x320001

/-- SharedSlotsInUse. -/
def sharedSlotsInUse : Nat := 0x320002

/-- ClassCSlotsInUse. -/
def classCSlotsInUse : Nat := 0x320003

/-- SharedSlotsPeak. -/
def sharedSlotsPeak : Nat := 0x320004

/-- CisternUnitsInUse. -/
def cisternUnitsInUse : Nat := 0x320005

/-- LinkState of unit `m`. -/
def linkState (m : Nat) : Nat := 0x321001 + 0x100 * m

/-- FecActive of unit `m`. -/
def fecActive (m : Nat) : Nat := 0x321002 + 0x100 * m

/-- CrcErrors of unit `m`. -/
def crcErrors (m : Nat) : Nat := 0x321003 + 0x100 * m

/-- FramingErrors of unit `m`. -/
def framingErrors (m : Nat) : Nat := 0x321004 + 0x100 * m

/-- DuplicateParcels of unit `m`. -/
def duplicateParcels (m : Nat) : Nat := 0x321005 + 0x100 * m

/-- Resends of unit `m`. -/
def resends (m : Nat) : Nat := 0x321006 + 0x100 * m

/-- Retrains of unit `m`. -/
def retrains (m : Nat) : Nat := 0x321007 + 0x100 * m

/-- ProtocolErrors of unit `m`. -/
def protocolErrors (m : Nat) : Nat := 0x321008 + 0x100 * m

/-- CreditViolations of unit `m`. -/
def creditViolations (m : Nat) : Nat := 0x321009 + 0x100 * m

/-- OrphanPayloads of unit `m`. -/
def orphanPayloads (m : Nat) : Nat := 0x32100A + 0x100 * m

/-- DupTags of unit `m`. -/
def dupTags (m : Nat) : Nat := 0x32100B + 0x100 * m

/-- HeldResults of unit `m`. -/
def heldResults (m : Nat) : Nat := 0x32100C + 0x100 * m

/-- DiscardedResults of unit `m`. -/
def discardedResults (m : Nat) : Nat := 0x32100D + 0x100 * m

/-- PeerPort of unit `m`. -/
def peerPort (m : Nat) : Nat := 0x32100E + 0x100 * m

/-- FlumeQ1. -/
def flumeQ1 : Nat := 0x230001

/-- ClassAAuth. -/
def classAAuth : Nat := 0x230002

/-- ClassARate of unit `m`. -/
def classARate (m : Nat) : Nat := 0x231001 + 0x100 * m

/-- ClassABurst of unit `m`. -/
def classABurst (m : Nat) : Nat := 0x231002 + 0x100 * m

/-- PolicedAction of unit `m`. -/
def policedAction (m : Nat) : Nat := 0x231003 + 0x100 * m

/-- Program `p`: 128 to an index. -/
def program (p : Nat) : Nat := 0x234001 + 0x100 * (p / 128) + p % 128

/-- ClassASearches. -/
def classASearches : Nat := 0x330001

/-- AuthPoliced. -/
def authPoliced : Nat := 0x330002

/-- ClassAOverBound. -/
def classAOverBound : Nat := 0x330003

/-- ClassAMaxLatency. -/
def classAMaxLatency : Nat := 0x330004

/-- FlumeEntryPeak. -/
def flumeEntryPeak : Nat := 0x330005

/-- FallbackResults. -/
def fallbackResults : Nat := 0x330006

/-- ErrDataResults. -/
def errDataResults : Nat := 0x330007

/-- ClassAPoliced of unit `m`. -/
def classAPoliced (m : Nat) : Nat := 0x331001 + 0x100 * m

/-- ProgramSearches `p`: 128 to an index. -/
def programSearches (p : Nat) : Nat := 0x334001 + 0x100 * (p / 128) + p % 128

/-- LpmGap. -/
def lpmGap : Nat := 0x241001

/-- PriorityGap. -/
def priorityGap : Nat := 0x241002

/-- InsertMoveLimit. -/
def insertMoveLimit : Nat := 0x241003

/-- TableDefinition `i` of unit `m`. -/
def tableDefinition (m i : Nat) : Nat := 0x242001 + 0x100 * m + i

/-- WinnerMismatches. -/
def winnerMismatches : Nat := 0x340001

/-- ShadowRewrites. -/
def shadowRewrites : Nat := 0x340002

/-- ScrubMismatches. -/
def scrubMismatches : Nat := 0x340003

/-- Moves. -/
def moves : Nat := 0x340004

/-- MoveLimitFailures. -/
def moveLimitFailures : Nat := 0x340005

/-- BlocksPowered. -/
def blocksPowered : Nat := 0x340006

/-- QuarterFree, number `i` of them from 0. -/
def quarterFree (i : Nat) : Nat := 0x341001 + i

/-- TableUsage `i` of unit `m`. -/
def tableUsage (m i : Nat) : Nat := 0x342001 + 0x100 * m + i

/-- CowReserve. -/
def cowReserve : Nat := 0x250001

/-- TrieDefinition, number `i` of them from 0. -/
def trieDefinition (i : Nat) : Nat := 0x251001 + i

/-- WordsInUse. -/
def wordsInUse : Nat := 0x350001

/-- WordsPeak. -/
def wordsPeak : Nat := 0x350002

/-- Publishes. -/
def publishes : Nat := 0x350003

/-- ErrDataLookups. -/
def errDataLookups : Nat := 0x350004

/-- ReserveDraws. -/
def reserveDraws : Nat := 0x350005

/-- FullFailures. -/
def fullFailures : Nat := 0x350006

/-- LookupsPipeline0. -/
def lookupsPipeline0 : Nat := 0x350007

/-- LookupsPipeline1. -/
def lookupsPipeline1 : Nat := 0x350008

/-- TableWords, number `i` of them from 0. -/
def tableWords (i : Nat) : Nat := 0x351001 + i

/-- TablePrefixes, number `i` of them from 0. -/
def tablePrefixes (i : Nat) : Nat := 0x352001 + i

/-- TableNodes, number `i` of them from 0. -/
def tableNodes (i : Nat) : Nat := 0x353001 + i

/-- StageWords, number `i` of them from 0. -/
def stageWords (i : Nat) : Nat := 0x354001 + i

/-- ExtLookupRate. -/
def extLookupRate : Nat := 0x260001

/-- BucketTableDefinition, number `i` of them from 0. -/
def bucketTableDefinition (i : Nat) : Nat := 0x261001 + i

/-- SeedSource. -/
def seedSource : Nat := 0x360001

/-- OverflowInUse. -/
def overflowInUse : Nat := 0x360002

/-- OverflowPeak. -/
def overflowPeak : Nat := 0x360003

/-- SliceDrops. -/
def sliceDrops : Nat := 0x360004

/-- Promotions. -/
def promotions : Nat := 0x360005

/-- ExtLookupsDeferred. -/
def extLookupsDeferred : Nat := 0x360006

/-- ExtReady. -/
def extReady : Nat := 0x360007

/-- TableEntries, number `i` of them from 0. -/
def tableEntries (i : Nat) : Nat := 0x361001 + i

/-- TableOverflow, number `i` of them from 0. -/
def tableOverflow (i : Nat) : Nat := 0x362001 + i

/-- InsertFailures, number `i` of them from 0. -/
def insertFailures (i : Nat) : Nat := 0x363001 + i

/-- LastFailedKey, number `i` of them from 0. -/
def lastFailedKey (i : Nat) : Nat := 0x364001 + i

/-- RegionBase, number `i` of them from 0. -/
def regionBase (i : Nat) : Nat := 0x365001 + i

/-- LearnEnable. -/
def learnEnable : Nat := 0x270001

/-- AgingDefinition, number `i` of them from 0. -/
def agingDefinition (i : Nat) : Nat := 0x271001 + i

/-- LearnDefinition, number `i` of them from 0. -/
def learnDefinition (i : Nat) : Nat := 0x272001 + i

/-- LearnLimit, number `i` of them from 0. -/
def learnLimit (i : Nat) : Nat := 0x273001 + i

/-- MoveLockClear. -/
def moveLockClear : Nat := 0x274000

/-- LearnsApplied. -/
def learnsApplied : Nat := 0x370001

/-- StationMoves. -/
def stationMoves : Nat := 0x370002

/-- MoveLocks. -/
def moveLocks : Nat := 0x370003

/-- LockedMoveAttempts. -/
def lockedMoveAttempts : Nat := 0x370004

/-- StaticConflicts. -/
def staticConflicts : Nat := 0x370005

/-- LearnChannelRange. -/
def learnChannelRange : Nat := 0x370006

/-- RefreshWrites. -/
def refreshWrites : Nat := 0x370007

/-- RefreshOrphans. -/
def refreshOrphans : Nat := 0x370008

/-- AgedOut. -/
def agedOut : Nat := 0x370009

/-- AgeDeleteLost. -/
def ageDeleteLost : Nat := 0x37000A

/-- SweepOverruns. -/
def sweepOverruns : Nat := 0x37000B

/-- LearnedEntries, number `i` of them from 0. -/
def learnedEntries (i : Nat) : Nat := 0x371001 + i

/-- CurrentTick, number `i` of them from 0. -/
def currentTick (i : Nat) : Nat := 0x372001 + i

/-- LastLapTicks, number `i` of them from 0. -/
def lastLapTicks (i : Nat) : Nat := 0x373001 + i

/-- MeterProfile `p`: 128 to an index. -/
def meterProfile (p : Nat) : Nat := 0x284001 + 0x100 * (p / 128) + p % 128

/-- InvalidRecordHits. -/
def invalidRecordHits : Nat := 0x380001

/-- UnconfiguredMeters. -/
def unconfiguredMeters : Nat := 0x380002

/-- GreenResults. -/
def greenResults : Nat := 0x380003

/-- YellowResults. -/
def yellowResults : Nat := 0x380004

/-- RedResults. -/
def redResults : Nat := 0x380005

/-- MeterRedResults. -/
def meterRedResults : Nat := 0x380006

/-- WeirCacheUpdates. -/
def weirCacheUpdates : Nat := 0x380007

/-- WeirHomeUpdates. -/
def weirHomeUpdates : Nat := 0x380008

/-- IdleRefreshes. -/
def idleRefreshes : Nat := 0x380009

/-- CounterLoss. -/
def counterLoss : Nat := 0x38000A

/-- FlumeMeterUpdates. -/
def flumeMeterUpdates : Nat := 0x38000B

/-- FreshSaveInterval. -/
def freshSaveInterval : Nat := 0x290001

/-- FreshnessReset. -/
def freshnessReset : Nat := 0x290100

/-- AuthProfile `p`: 128 to an index. -/
def authProfile (p : Nat) : Nat := 0x294001 + 0x100 * (p / 128) + p % 128

/-- AuthVerified. -/
def authVerified : Nat := 0x390001

/-- AuthFailResults. -/
def authFailResults : Nat := 0x390002

/-- ReplayResults. -/
def replayResults : Nat := 0x390003

/-- KeyUnavailResults. -/
def keyUnavailResults : Nat := 0x390004

/-- KeyRevokedResults. -/
def keyRevokedResults : Nat := 0x390005

/-- AuthLenResults. -/
def authLenResults : Nat := 0x390006

/-- Generations. -/
def generations : Nat := 0x390007

/-- Reauthentications. -/
def reauthentications : Nat := 0x390008

/-- MacContextWaits. -/
def macContextWaits : Nat := 0x390009

/-- UnusedPayloads. -/
def unusedPayloads : Nat := 0x39000A

/-- FreshnessExhausted. -/
def freshnessExhausted : Nat := 0x39000B

/-- UnsyncedCounters. -/
def unsyncedCounters : Nat := 0x39000C

/-- SnapshotSequence. -/
def snapshotSequence : Nat := 0x39000D

/-- SnapshotFailures. -/
def snapshotFailures : Nat := 0x39000E

/-- EngineOperations, number `i` of them from 0. -/
def engineOperations (i : Nat) : Nat := 0x391001 + i

/-- CheckpointInterval. -/
def checkpointInterval : Nat := 0x2A0001

/-- PoisonRepair. -/
def poisonRepair : Nat := 0x2A0002

/-- DomainState. -/
def domainState : Nat := 0x3A0001

/-- DomainRestarts. -/
def domainRestarts : Nat := 0x3A0002

/-- LastFailureCause. -/
def lastFailureCause : Nat := 0x3A0003

/-- LastFailureUnit. -/
def lastFailureUnit : Nat := 0x3A0004

/-- LastFailureTime. -/
def lastFailureTime : Nat := 0x3A0005

/-- LastRestartTime. -/
def lastRestartTime : Nat := 0x3A0006

/-- CheckpointsCommitted. -/
def checkpointsCommitted : Nat := 0x3A0007

/-- CheckpointAge. -/
def checkpointAge : Nat := 0x3A0008

/-- PoisonedGranules. -/
def poisonedGranules : Nat := 0x3A0009

/-- PoisonRepairs. -/
def poisonRepairs : Nat := 0x3A000A

/-- PoisonedAtomics. -/
def poisonedAtomics : Nat := 0x3A000B

/-- Nacks. -/
def nacks : Nat := 0x3A000C

/-- DirectoryEvictions. -/
def directoryEvictions : Nat := 0x3A000D

/-- DirectoryEvictionWaits. -/
def directoryEvictionWaits : Nat := 0x3A000E

/-- BroadcastInvalidations. -/
def broadcastInvalidations : Nat := 0x3A000F

/-- StaleSnoops. -/
def staleSnoops : Nat := 0x3A0010

/-- EvictionCrossings. -/
def evictionCrossings : Nat := 0x3A0011

/-- RetiredLines. -/
def retiredLines : Nat := 0x3A0012

/-- SliceOperations, number `i` of them from 0. -/
def sliceOperations (i : Nat) : Nat := 0x3A1001 + i

/-- DirectoryInUse, number `i` of them from 0. -/
def directoryInUse (i : Nat) : Nat := 0x3A2001 + i

/-- QueuePeak, number `i` of them from 0. -/
def queuePeak (i : Nat) : Nat := 0x3A3001 + i

/-- ScrubMode, number `i` of them from 0. -/
def scrubMode (i : Nat) : Nat := 0x2B1001 + i

/-- TopRate, number `i` of them from 0. -/
def topRate (i : Nat) : Nat := 0x2B2001 + i

/-- YoyoLapLimit, number `i` of them from 0. -/
def yoyoLapLimit (i : Nat) : Nat := 0x2B3001 + i

/-- OnChipFillTime. -/
def onChipFillTime : Nat := 0x3B0001

/-- LpddrState. -/
def lpddrState : Nat := 0x3B0002

/-- LpddrUserCapacity. -/
def lpddrUserCapacity : Nat := 0x3B0003

/-- ShadowReady. -/
def shadowReady : Nat := 0x3B0004

/-- LpddrSparesUsed. -/
def lpddrSparesUsed : Nat := 0x3B0005

/-- MergeReadModifyWrites. -/
def mergeReadModifyWrites : Nat := 0x3B0006

/-- BorrowWaits. -/
def borrowWaits : Nat := 0x3B0007

/-- CandidateOverflows. -/
def candidateOverflows : Nat := 0x3B0008

/-- Corrections, number `i` of them from 0. -/
def corrections (i : Nat) : Nat := 0x3B1001 + i

/-- Uncorrectables, number `i` of them from 0. -/
def uncorrectables (i : Nat) : Nat := 0x3B2001 + i

/-- LapTime, number `i` of them from 0. -/
def lapTime (i : Nat) : Nat := 0x3B3001 + i

/-- WeakWordCount, number `i` of them from 0. -/
def weakWordCount (i : Nat) : Nat := 0x3B4001 + i

/-- RetiredWords, number `i` of them from 0. -/
def retiredWords (i : Nat) : Nat := 0x3B5001 + i

/-- WeakWordList, number `i` of them from 0. -/
def weakWordList (i : Nat) : Nat := 0x3B6001 + i

/-- YoyoFallbacks, number `i` of them from 0. -/
def yoyoFallbacks (i : Nat) : Nat := 0x3B7001 + i

/-- CurrentEpoch. -/
def currentEpoch : Nat := 0x2C0001

/-- Commissioned. -/
def commissioned : Nat := 0x2C0002

/-- UpdateCounter. -/
def updateCounter : Nat := 0x2C0003

/-- RecoveryRequired. -/
def recoveryRequired : Nat := 0x2C0004

/-- RecoveryNonce. -/
def recoveryNonce : Nat := 0x2C0005

/-- ManifestDigest. -/
def manifestDigest : Nat := 0x2C0006

/-- ManifestSequence. -/
def manifestSequence : Nat := 0x2C0007

/-- RootState. -/
def rootState : Nat := 0x2C0008

/-- CertificateValid. -/
def certificateValid : Nat := 0x2C0009

/-- IdentityPublicKey. -/
def identityPublicKey : Nat := 0x2C0100

/-- IdentityCertificate. -/
def identityCertificate : Nat := 0x2C0200

/-- AgreementPublicKey. -/
def agreementPublicKey : Nat := 0x2C0300

/-- LastReceipt. -/
def lastReceipt : Nat := 0x2C1000

/-- AttestRequest. -/
def attestRequest : Nat := 0x2C2000

/-- AttestStatement. -/
def attestStatement : Nat := 0x2C2100

/-- CommitInterval. -/
def commitInterval : Nat := 0x2C3001

/-- CommitRecords. -/
def commitRecords : Nat := 0x2C3002

/-- NotifyMask. -/
def notifyMask : Nat := 0x2C3003

/-- SealNow. -/
def sealNow : Nat := 0x2C3004

/-- BundlesApplied. -/
def bundlesApplied : Nat := 0x3C0001

/-- RejectedBundles. -/
def rejectedBundles : Nat := 0x3C0002

/-- AlreadyApplied. -/
def alreadyApplied : Nat := 0x3C0003

/-- LastBundleDetail. -/
def lastBundleDetail : Nat := 0x3C0004

/-- VaultEntriesLive. -/
def vaultEntriesLive : Nat := 0x3C0005

/-- SlotsLive. -/
def slotsLive : Nat := 0x3C0006

/-- SlotsRevoked. -/
def slotsRevoked : Nat := 0x3C0007

/-- NewestSequence. -/
def newestSequence : Nat := 0x3C0008

/-- NewestInFlash. -/
def newestInFlash : Nat := 0x3C0009

/-- SealsWritten. -/
def sealsWritten : Nat := 0x3C000A

/-- SegmentsTotal. -/
def segmentsTotal : Nat := 0x3C000B

/-- SegmentsRetired. -/
def segmentsRetired : Nat := 0x3C000C

/-- MaxEraseCount. -/
def maxEraseCount : Nat := 0x3C000D

/-- EnduranceUsed. -/
def enduranceUsed : Nat := 0x3C000E

/-- UnreadOverwritten. -/
def unreadOverwritten : Nat := 0x3C000F

/-- Cursor. -/
def cursor : Nat := 0x500001

/-- OldestPresent. -/
def oldestPresent : Nat := 0x500002

/-- Window. -/
def window : Nat := 0x500100

/-- Advance. -/
def advance : Nat := 0x500200

/-- LatestSeal. -/
def latestSeal : Nat := 0x500300

/-- TampEnable. -/
def tampEnable : Nat := 0x2D0001

/-- TampPolarity. -/
def tampPolarity : Nat := 0x2D0002

/-- TampDebounce. -/
def tampDebounce : Nat := 0x2D0003

/-- MeshEnable. -/
def meshEnable : Nat := 0x2D0004

/-- EnvEnable. -/
def envEnable : Nat := 0x2D0005

/-- WakeOnTamper. -/
def wakeOnTamper : Nat := 0x2D0006

/-- TamperClear. -/
def tamperClear : Nat := 0x2D0100

/-- JackChallenge. -/
def jackChallenge : Nat := 0x2D1000

/-- JackResponse. -/
def jackResponse : Nat := 0x2D1100

/-- JackMemoryRequest. -/
def jackMemoryRequest : Nat := 0x2D2000

/-- JackMemoryData. -/
def jackMemoryData : Nat := 0x2D2100

/-- MarionetteHalt. -/
def marionetteHalt : Nat := 0x2D2200

/-- TraceControl. -/
def traceControl : Nat := 0x2D2300

/-- TamperCause. -/
def tamperCause : Nat := 0x3D0001

/-- TamperFirstCause. -/
def tamperFirstCause : Nat := 0x3D0002

/-- TamperRtcTime. -/
def tamperRtcTime : Nat := 0x3D0003

/-- TamperActive. -/
def tamperActive : Nat := 0x3D0004

/-- TamperEvents. -/
def tamperEvents : Nat := 0x3D0005

/-- JackState. -/
def jackState : Nat := 0x3D0006

/-- JackOpenings. -/
def jackOpenings : Nat := 0x3D0007

/-- JackFuseFailures. -/
def jackFuseFailures : Nat := 0x3D0008

/-- JackRejections. -/
def jackRejections : Nat := 0x3D0009

/-- RtcNow. -/
def rtcNow : Nat := 0x3D000A

/-- AckTimeout. -/
def ackTimeout : Nat := 0x2E0001

/-- WakeRecordBase. -/
def wakeRecordBase : Nat := 0x2E0003

/-- PwrHoldMinLow. -/
def pwrHoldMinLow : Nat := 0x2E0004

/-- SleepEntryLimit. -/
def sleepEntryLimit : Nat := 0x2E0005

/-- GateLineConfig, number `i` of them from 0. -/
def gateLineConfig (i : Nat) : Nat := 0x2E1001 + i

/-- SourceDefinition, number `i` of them from 0. -/
def sourceDefinition (i : Nat) : Nat := 0x2E2001 + i

/-- SourcePns, number `i` of them from 0. -/
def sourcePns (i : Nat) : Nat := 0x2E2801 + i

/-- WakeTimer, number `i` of them from 0. -/
def wakeTimer (i : Nat) : Nat := 0x2E3001 + i

/-- PnDefinition, number `i` of them from 0. -/
def pnDefinition (i : Nat) : Nat := 0x2E4001 + i

/-- PnMaxAwake, number `i` of them from 0. -/
def pnMaxAwake (i : Nat) : Nat := 0x2E4801 + i

/-- HostRequest. -/
def hostRequest : Nat := 0x2E5000

/-- SleepAck. -/
def sleepAck : Nat := 0x2E5100

/-- SourceMaskClear. -/
def sourceMaskClear : Nat := 0x2E5200

/-- PnChannels, number `i` of them from 0. -/
def pnChannels (i : Nat) : Nat := 0x2E6001 + i

/-- PnAwakeMask. -/
def pnAwakeMask : Nat := 0x3E0001

/-- PnPrepareMask. -/
def pnPrepareMask : Nat := 0x3E0002

/-- PwrHoldState. -/
def pwrHoldState : Nat := 0x3E0003

/-- HeldConfig. -/
def heldConfig : Nat := 0x3E0004

/-- LastWakeSource. -/
def lastWakeSource : Nat := 0x3E0005

/-- WakeHitsUnmapped. -/
def wakeHitsUnmapped : Nat := 0x3E0006

/-- StaleAcks. -/
def staleAcks : Nat := 0x3E0007

/-- FailSafeCommits. -/
def failSafeCommits : Nat := 0x3E0008

/-- LatchedRewakes. -/
def latchedRewakes : Nat := 0x3E0009

/-- Overruns. -/
def overruns : Nat := 0x3E000A

/-- MaskedWakes. -/
def maskedWakes : Nat := 0x3E000B

/-- SleepEntryTimeouts. -/
def sleepEntryTimeouts : Nat := 0x3E000C

/-- PnState, number `i` of them from 0. -/
def pnState (i : Nat) : Nat := 0x3E1001 + i

/-- SourceMask, number `i` of them from 0. -/
def sourceMask (i : Nat) : Nat := 0x3E2001 + i

/-- PnWakeCount, number `i` of them from 0. -/
def pnWakeCount (i : Nat) : Nat := 0x3E3001 + i

/-- PairId. -/
def pairId : Nat := 0x2F0001

/-- CompareMask. -/
def compareMask : Nat := 0x2F0002

/-- ConfigGrace. -/
def configGrace : Nat := 0x2F0003

/-- PeerTimeout. -/
def peerTimeout : Nat := 0x2F0004

/-- SoloAfter. -/
def soloAfter : Nat := 0x2F0005

/-- CulvertFecEnable. -/
def culvertFecEnable : Nat := 0x2F0006

/-- CulvertTxPreset. -/
def culvertTxPreset : Nat := 0x2F0007

/-- ChainTimeoutBC. -/
def chainTimeoutBC : Nat := 0x2F0008

/-- DominoTxPreset. -/
def dominoTxPreset : Nat := 0x2F0009

/-- Promote. -/
def promote : Nat := 0x2F0100

/-- PairRelease. -/
def pairRelease : Nat := 0x2F0200

/-- PairRole. -/
def pairRole : Nat := 0x3F0001

/-- PairState. -/
def pairState : Nat := 0x3F0002

/-- PeerUid. -/
def peerUid : Nat := 0x3F0003

/-- PairEpoch. -/
def pairEpoch : Nat := 0x3F0004

/-- TimeOffset. -/
def timeOffset : Nat := 0x3F0005

/-- TimeUnsynced. -/
def timeUnsynced : Nat := 0x3F0006

/-- ResultsCompared. -/
def resultsCompared : Nat := 0x3F0007

/-- ResultDisagreements. -/
def resultDisagreements : Nat := 0x3F0008

/-- CompareMissing. -/
def compareMissing : Nat := 0x3F0009

/-- CompareSkipped. -/
def compareSkipped : Nat := 0x3F000A

/-- CommandsForwarded. -/
def commandsForwarded : Nat := 0x3F000B

/-- PeerFailures. -/
def peerFailures : Nat := 0x3F000C

/-- PeerCommitLost. -/
def peerCommitLost : Nat := 0x3F000D

/-- PeerLastDetail. -/
def peerLastDetail : Nat := 0x3F000E

/-- Resyncs. -/
def resyncs : Nat := 0x3F000F

/-- RegionsResyncing. -/
def regionsResyncing : Nat := 0x3F0010

/-- PairIdMismatches. -/
def pairIdMismatches : Nat := 0x3F0011

/-- CulvertLinkState. -/
def culvertLinkState : Nat := 0x3F0012

/-- ChainPosition. -/
def chainPosition : Nat := 0x3F1001

/-- ChainMembers. -/
def chainMembers : Nat := 0x3F1002

/-- ChainState. -/
def chainState : Nat := 0x3F1003

/-- ChainTimeouts. -/
def chainTimeouts : Nat := 0x3F1004

/-- ChainLateAnswers. -/
def chainLateAnswers : Nat := 0x3F1005

/-- InconsistentMembers. -/
def inconsistentMembers : Nat := 0x3F1006

/-- QuadrantPace, number `i` of them from 0. -/
def quadrantPace (i : Nat) : Nat := 0x400001 + i

/-- MinPace. -/
def minPace : Nat := 0x400005

/-- PipelineRate. -/
def pipelineRate : Nat := 0x400006

/-- SearchRate. -/
def searchRate : Nat := 0x400007

/-- QuadrantTemp, number `i` of them from 0. -/
def quadrantTemp (i : Nat) : Nat := 0x401001 + i

/-- MaxTemp. -/
def maxTemp : Nat := 0x401005

/-- BatteryIslandTemp. -/
def batteryIslandTemp : Nat := 0x401006

/-- RailVoltage, number `i` of them from 0. -/
def railVoltage (i : Nat) : Nat := 0x402001 + i

/-- BlockPower, number `i` of them from 0. -/
def blockPower (i : Nat) : Nat := 0x403001 + i

/-- TotalPower. -/
def totalPower : Nat := 0x40300B

/-- TopOperations. -/
def topOperations : Nat := 0x404001

/-- SweepOperations. -/
def sweepOperations : Nat := 0x404002

/-- LastCheckpointTime. -/
def lastCheckpointTime : Nat := 0x404003

/-- BackgroundShare. -/
def backgroundShare : Nat := 0x404004

/-- DrowseEnable. -/
def drowseEnable : Nat := 0x204001

/-- DrowseIdle. -/
def drowseIdle : Nat := 0x204002

/-- TempWarning. -/
def tempWarning : Nat := 0x204003

/-- DrowseExit. -/
def drowseExit : Nat := 0x204100

/-- FirmwareStage. -/
def firmwareStage : Nat := 0x204200

/-- Mode. -/
def mode : Nat := 0x304001

/-- ClassReady. -/
def classReady : Nat := 0x304002

/-- StartCause. -/
def startCause : Nat := 0x304003

/-- LockedCause. -/
def lockedCause : Nat := 0x304004

/-- ClassAReadyTime. -/
def classAReadyTime : Nat := 0x304005

/-- ClassBReadyTime. -/
def classBReadyTime : Nat := 0x304006

/-- ClassCReadyTime. -/
def classCReadyTime : Nat := 0x304007

/-- FirmwareSlot. -/
def firmwareSlot : Nat := 0x304008

/-- FirmwareStageState. -/
def firmwareStageState : Nat := 0x304009

/-- QuarantineMask. -/
def quarantineMask : Nat := 0x30400A

/-- DrowseEntries. -/
def drowseEntries : Nat := 0x30400B

/-- DrowseExitMax. -/
def drowseExitMax : Nat := 0x30400C

/-- UnplannedPowerLoss. -/
def unplannedPowerLoss : Nat := 0x30400D

/-- ActiveFaults. -/
def activeFaults : Nat := 0x305001

/-- ActiveFaultCount. -/
def activeFaultCount : Nat := 0x305002

/-- LastFaultCode. -/
def lastFaultCode : Nat := 0x305003

/-- LastFaultDetail. -/
def lastFaultDetail : Nat := 0x305004

/-- LastFaultTime. -/
def lastFaultTime : Nat := 0x305005

/-- FaultsRaised. -/
def faultsRaised : Nat := 0x305006

/-- FaultNState. -/
def faultNState : Nat := 0x305007

/-- EmcySuppressed. -/
def emcySuppressed : Nat := 0x305008

end O

end Sys2Proof.Machine
end

