-- ==== Sys2Proof/Config.lean ====
section
/-! DEFINITION. What one device or implementation fixes and the manual does not state: constants without a body, so no
proof can see a value of theirs. -/

namespace Sys2Proof.Config

/-- DeviceUid, 128 bits, unique to each device (R49, Table 14-3). -/
opaque deviceUid : BitVec 128

/-- SerialNumber, per device (Table 2-11). -/
opaque serialNumber : BitVec 32

/-- NymmecyRootKey in OTP, X ‖ Y (Table 14-3). -/
opaque nymmecyRootKey : BitVec 512

/-- The 256-bit root that the fuzzy extractor reconstructs (R311). -/
opaque pufRoot : BitVec 256

/-- The OTP node-ID field (R27); a value outside 1 to 127 means the straps decide. -/
opaque otpNodeId : BitVec 8

/-- The OTP field FirmwareFloor (R396). -/
opaque firmwareFloor : BitVec 8

/-- The size of the xSPI flash part that the board fits, in MiB (Table 14-11: at least 64). -/
opaque flashMiB : Nat

/-- The identity certificate in flash (R312), DER. -/
opaque identityCertificate : Bytes

/-- The public key that the identity certificate carries, X ‖ Y (R312). -/
opaque certificateKey : BitVec 512

/-- Bit `n` of the sequence that the mesh driver's 31-bit LFSR sends from a seed (R335): the manual gives no polynomial. -/
opaque meshBit : Nat → Nat → Bool

/-- Word `w` of the PUF array as its SRAM powers up at an instant [ns] (R292, R311). -/
opaque pufPattern : Nat → Nat → BitVec 64

/-- The n-th 16-byte output of the DRBG since the device was made (R322, R345): random, so no value may be assumed. -/
opaque drbg : Nat → BitVec 128

/-- The per-signature secret of the n-th ECDSA signature that the device makes: the manual does not state how it is drawn. -/
opaque signSecret : Nat → BitVec 256


/-- The CAN controller's error counters at an instant [ns], transmit in the low byte, receive in the high one (Table 2-12). -/
opaque canErrors : Nat → BitVec 16

/-- LastCheckpointTime of a checkpoint committed at an instant [ns]: the manual gives its unit and does not say what it measures (Table 18-10). -/
opaque checkpointTime : Nat → BitVec 32

/-- The check bits of a 64-bit data word in DEC-TED (0) and SEC-DED (1) code words (Table 13-1): the manual gives no code. -/
opaque checkBits : Nat → BitVec 64 → BitVec 16

/-- The order in which the coinciding arrivals of R7 are granted is not defined; a free bit for the n-th such choice. -/
opaque arbiter : Nat → Bool

/-- A free 64-bit value for the n-th value that the manual leaves open. -/
opaque freeValue : Nat → BitVec 64

end Sys2Proof.Config
end

