-- ==== Sys2Proof/Machine/Sparse.lean ====
section
/-! DEFINITION. Sparse memories and tables: one canonical list form for everything the block addresses by number. -/

namespace Sys2Proof.Machine

/-- A store addressed by number: the entries that differ from what an unlisted key reads as, keys strictly rising. -/
abbrev SMap (α : Type) := List (Nat × α)

/-- The byte memories (scratchpad, mailbox buffers, flash) are lists of `Host.Cell`; an unlisted byte reads as 0 (R293). -/
abbrev Memory := List Host.Cell

/-- What key `k` holds; `d` is what an unlisted key reads as. -/
def SMap.get {α : Type} (d : α) : SMap α → Nat → α
  | [], _ => d
  | (k', v) :: m, k => if k = k' then v else SMap.get d m k

/-- Take key `k` out of the list. -/
def SMap.erase {α : Type} : SMap α → Nat → SMap α
  | [], _ => []
  | (k', v) :: m, k => if k = k' then SMap.erase m k else (k', v) :: SMap.erase m k

/-- List `v` at key `k`, in order. -/
def SMap.insert {α : Type} : SMap α → Nat → α → SMap α
  | [], k, v => [(k, v)]
  | (k', v') :: m, k, v =>
    if k = k' then (k, v) :: m else if k < k' then (k, v) :: (k', v') :: m else (k', v') :: SMap.insert m k v

/-- Write `v` at key `k`; the value that an unlisted key reads as is not listed, so equal stores are equal lists. -/
def SMap.set {α : Type} [DecidableEq α] (d : α) (m : SMap α) (k : Nat) (v : α) : SMap α :=
  if v = d then SMap.erase m k else SMap.insert m k v

/-- The keys of `m` rise strictly from above `lo`, and no entry equals the default. -/
def SMap.wfFrom {α : Type} [DecidableEq α] (d : α) : Nat → SMap α → Bool
  | _, [] => true
  | lo, (k, v) :: m => decide (lo ≤ k) && decide (v ≠ d) && SMap.wfFrom d (k + 1) m

/-- The canonical form of a store. -/
def SMap.wf {α : Type} [DecidableEq α] (d : α) (m : SMap α) : Bool := SMap.wfFrom d 0 m

/-- The canonical form of a byte memory. -/
def Memory.wf (m : Memory) : Bool := SMap.wf (0 : Byte) m

/-- One byte of a byte memory. -/
def Memory.read (m : Memory) (a : Nat) : Byte := SMap.get (0 : Byte) m a

/-- Write one byte of a byte memory. -/
def Memory.write (m : Memory) (a : Nat) (v : Byte) : Memory := SMap.set (0 : Byte) m a v

/-- The `n` bytes from address `a` on that a run of cells, all at `a` or above it, spells. -/
def Memory.spell (a : Nat) : Nat → Memory → Bytes
  | 0, _ => []
  | n + 1, [] => 0 :: Memory.spell (a + 1) n []
  | n + 1, (k, v) :: m => if k = a then v :: Memory.spell (a + 1) n m else 0 :: Memory.spell (a + 1) n ((k, v) :: m)

/-- `n` bytes from address `a` on. -/
def Memory.readBytes (m : Memory) (a n : Nat) : Bytes := Memory.spell a n (m.filter fun e => decide (a ≤ e.1 ∧ e.1 < a + n))

/-- The cells of a byte string at address `a`. -/
def Memory.cells (a : Nat) : Bytes → Memory
  | [] => []
  | b :: bs => if b = 0 then Memory.cells (a + 1) bs else (a, b) :: Memory.cells (a + 1) bs

/-- Write a byte string from address `a` on: the cells below it, its own, and the cells above it. -/
def Memory.writeBytes (m : Memory) (a : Nat) (bs : Bytes) : Memory :=
  m.filter (fun e => decide (e.1 < a)) ++ (Memory.cells a bs ++ m.filter fun e => decide (a + bs.length ≤ e.1))

/-- Keep the entries whose key `p` accepts. -/
def SMap.filterKeys {α : Type} (p : Nat → Bool) (m : SMap α) : SMap α := m.filter fun e => p e.1

/-- Rewrite every listed entry, leaving out those that become the default. -/
def SMap.mapListed {α : Type} [DecidableEq α] (d : α) (f : Nat → α → α) (m : SMap α) : SMap α :=
  (m.map fun e => (e.1, f e.1 e.2)).filter fun e => decide (e.2 ≠ d)

/-- How many listed entries satisfy `p`. -/
def SMap.count {α : Type} (p : Nat → α → Bool) (m : SMap α) : Nat := (m.filter fun e => p e.1 e.2).length

/-- Write every pair of a list, in order. -/
def SMap.setAll {α : Type} [DecidableEq α] (d : α) (m : SMap α) : List (Nat × α) → SMap α
  | [] => m
  | (k, v) :: es => SMap.setAll d (SMap.set d m k v) es

end Sys2Proof.Machine
end

