-- ==== Sys2Proof/Machine/State.lean ====
section
/-! DEFINITION. The state of the KY-8800 as plain data: one record per block, the queue of waiting commands, and the machine
as it stands before VAUX first rises. -/

namespace Sys2Proof.Machine

/-- Why the block stops with a fault. -/
inductive Fault where
  /-- Raised by a meaning whose command names a unit, a line or an address that the manual says does not exist (a ring 9,
  an agent 15). Safe: no such command can reach the hardware. -/
  | noSuchUnit
  deriving DecidableEq, Repr

/-- Why a command has no meaning. -/
inductive Refusal where
  /-- Raised by the dispatcher for a command that has no meaning yet. Safe: nothing can be proved about its effect. -/
  | notModelled (mnemonic : String)
  deriving DecidableEq, Repr

/-- What leaves the device on its own account, newest first in `State.out`. -/
inductive Output where
  /-- A CAN frame in FD format: CAN-ID, whether the identifier has 29 bits, whether the bit rate switches, and data (R26, R48). -/
  | can (id : Nat) (ext brs : Bool) (data : Bytes)
  /-- An MSI-X vector (Table 3-4). -/
  | msix (vector : Nat)
  /-- A write to host memory over PCIe. -/
  | hostWrite (addr : Nat) (data : Bytes)
  /-- An error logged through PCIe Advanced Error Reporting. -/
  | aer
  /-- A PCIe completion of a read or a refused access: Successful with data, Completer Abort, Unsupported Request or poisoned. -/
  | pcie (status : Nat) (data : Bytes)
  /-- A parcel on a Headgate link: type, Seq, AckSeq, Nak, the body, and whether it is a resend. -/
  | parcel (link type seq ack : Nat) (nak : Bool) (body : Bytes) (resend : Bool)
  /-- A training or retraining begun on a Headgate link, Culvert (8) or Domino (9), with what the device's Training blocks carry (Table 4-4, R367,
  R382). -/
  | training (link : Nat) (block : Training)
  /-- A message on Culvert (Table 17-8): its type and body. -/
  | culvert (type : Nat) (body : Bytes)
  /-- A message on Domino (Table 17-9): its type and body. -/
  | domino (type : Nat) (body : Bytes)
  /-- The response of a dictionary access on a channel, whatever carries it there: abort code (0: success), detail, data. -/
  | answer (ch : Channel) (abort detail : Nat) (data : Bytes)
  /-- A USDO response on CAN (R30), a frame in FD format: CAN-ID, whether the bit rate switches, client, abort code (0: success),
  detail, and data. -/
  | usdo (id : Nat) (brs : Bool) (client abort detail : Nat) (data : Bytes)
  deriving DecidableEq, Repr

/-- Time: nanoseconds since the state after reset, the instant of the last PWR_GOOD, the Timebase's offset from the elapsed
count and a secondary's estimate of its primary's count less its own (R378), and the battery island's RTC (R427), with 1 plus the instant at which
its crystal was lost, 0 while it runs (R16). -/
structure Clock where
  wall : Nat
  coreStart : Nat
  timeAdj : Int
  tickAdj : Int
  rtcOn : Bool
  rtcStart : Nat
  rtcHeld : Nat
  deriving DecidableEq, Repr

/-- The instant of the last PWR_GOOD, supplies, straps and what the next start must know (R411–R413, R421, R426, Table 18-2). -/
structure Power where
  goodAt : Nat
  vaux : Bool
  vbat : Bool
  core : Bool
  slew : Nat
  cleanSleep : Bool
  vauxRose : Bool
  tamperWake : Bool
  wakeReassert : Bool
  unplanned : Bool
  strapNode : Nat
  strapSecondary : Bool
  strapChain : Nat
  losses : Nat
  deriving DecidableEq, Repr

/-- Modes, start-up, faults and Drowse (R391–R403). `drowse` is 0 out, 1 entering, 2 in, 3 leaving, 4 leaving from a reversed entry; `busyAt` the last
instant that kept it from entering (R398); `k8At` is 1 plus the instant at which the Timebase's reference was lost, 0 while it runs. -/
structure Modes where
  mode : Nat
  startCause : Nat
  rootDone : Bool
  fillDone : Bool
  ready : Bool
  fillEnded : Bool
  classReady : Nat
  locked : Nat
  quarantine : Nat
  halted : Bool
  drowse : Nat
  drowseTrigger : Nat
  busyAt : Nat
  refLost : Nat
  k8At : Nat
  fwSlot : Nat
  fwBuild : Bytes
  fwVersion : Nat
  fwStage : Nat
  fwImage : Bytes
  active : List (Nat × Nat)
  emcyAt : SMap Nat
  emcyWait : List (Nat × Bytes)
  early : List (Nat × Bytes)
  deriving DecidableEq, Repr

/-- The response of a dictionary write or read: Status, AbortCode, Detail, TotalSize and the data (Table 2-6a). -/
structure Resp where
  status : Nat
  abort : Nat
  detail : Nat
  total : Nat
  data : Bytes
  deriving DecidableEq, Repr

/-- The kept entry of one channel and one sequenced object (R44). -/
structure Kept where
  ch : Channel
  key : Nat
  seq : Nat
  digest : Bytes
  resp : Resp
  deriving DecidableEq, Repr

/-- The object dictionary: values that differ from their defaults, the staging set, sealed keys with their set, kept
responses and the mailbox's assembly buffer (R20–R45). A value is the number that its bytes spell, little-endian. -/
structure Dict where
  live : SMap Nat
  staging : SMap Nat
  sealedBy : SMap Nat
  kept : List Kept
  assembly : Option (Nat × Bytes)
  deriving DecidableEq, Repr

/-- The PCIe mailbox (R33). -/
structure Mailbox where
  request : Memory
  response : Memory
  busy : Bool
  deriving DecidableEq, Repr

/-- An open USDO transfer: client, object, whether it is a download, the bytes not yet sent or so far received, and the size
announced (R30). -/
structure Transfer where
  client : Nat
  key : Nat
  download : Bool
  data : Bytes
  size : Nat
  deriving DecidableEq, Repr

/-- The management CAN FD port (R26–R31); `nmt` is the heartbeat's state byte, `tpdoDue` the TPDOs whose event timer expired inside
their inhibit time. -/
structure Can where
  up : Bool
  nmt : Nat
  nodeId : Nat
  nodeSource : Nat
  busOff : Bool
  rejoining : Bool
  bootOnRejoin : Bool
  transfer : Option Transfer
  abandoned : Option Nat
  tpdoAt : SMap Nat
  tpdoDue : Nat
  deriving DecidableEq, Repr

/-- A vault entry of Table 14-4; State 0 empty, 1 live, 2 revoked. -/
structure VaultEntry where
  type : Nat
  usage : Nat
  state : Nat
  counter : Nat
  wrapped : Bytes
  deriving DecidableEq, Repr

/-- The empty vault entry. -/
def VaultEntry.empty : VaultEntry := ⟨0, 0, 0, 0, []⟩

/-- The vault's fields (Table 14-4). `delivered` holds the last 8 bundle digests with their Receipts,
newest first; `decayed` after a loss of power, when the cells hold no defined value (R343). -/
structure Vault where
  magic : Nat
  epoch : Nat
  recovery : Nat
  counter : Nat
  manifestSeq : Nat
  manifestDigest : Bytes
  chainSeq : Nat
  chainLink : Bytes
  snapSeq : Nat
  nonce : Bytes
  mac : Bytes
  delivered : List (Bytes × Bytes)
  entries : SMap VaultEntry
  decayed : Bool
  deriving DecidableEq, Repr

/-- The vault with every cell cleared (Table 15-2 step 3). -/
def Vault.zero : Vault := ⟨0, 0, 0, 0, 0, [], 0, [], 0, [], [], [], [], false⟩

/-- A working key slot (R315); state 0 empty, 1 live, 2 revoked; origin 0 unwrapped, 1 derived. -/
structure KeySlot where
  state : Nat
  type : Nat
  usage : Nat
  parent : Nat
  origin : Nat
  key : Bytes
  deriving DecidableEq, Repr

/-- The empty key slot. -/
def KeySlot.empty : KeySlot := ⟨0, 0, 0, 0, 0, []⟩

/-- The key engine, its OTP and the vault (R311–R315). `root` is RootState; `hashes` the programmed AuthorityKeyHash by epoch;
`lost` the handles whose unwrap failed; `closed` the key-slot arbiter closed by an alarm; `barred` bundles until the next start;
`deferred` the digests of sealed bucket-table bundles verified in Fill and placed when class B becomes ready (R395); `event` a key or bundle
event whose vector waits until what it announces is visible (R55). -/
structure Keys where
  root : Nat
  rootUp : Bool
  fuses : Nat
  hashes : List (Nat × Bytes)
  vault : Vault
  lost : List Nat
  slots : SMap KeySlot
  closed : Bool
  barred : Bool
  deferred : List Bytes
  event : Bool
  deriving DecidableEq, Repr

/-- One manifest entry (R323). -/
structure ManifestEntry where
  type : Nat
  scope : Nat
  counter : Nat
  addr : Nat
  digest : Bytes
  deriving DecidableEq, Repr

/-- A manifest as flash holds it (R323). -/
structure Manifest where
  seq : Nat
  epoch : Nat
  entries : List ManifestEntry
  signature : Bytes
  deriving DecidableEq, Repr

/-- A segment of the wear-managed pool: its header's magic, erase count, first Sequence and CRC-32C, and its slots of 64 B (R328, R331). -/
structure Segment where
  magic : Nat
  erases : Nat
  first : Nat
  crc : Nat
  slots : List Bytes
  deriving DecidableEq, Repr

/-- The xSPI flash (Table 14-11): two firmware slots, up to two manifests newest first, the bundle store by address, and the
pool's written segments oldest first, with those that a failed program has retired, whose earlier slots can still be read. -/
structure Flash where
  fw0 : Bytes
  fw1 : Bytes
  manifests : List Manifest
  store : List (Nat × Bytes)
  pool : List Segment
  worn : List Segment
  retired : Nat
  maxErase : Nat
  deriving DecidableEq, Repr

/-- One Tally record (Table 14-13). -/
structure TallyRec where
  seq : Nat
  time : Nat
  type : Nat
  mode : Nat
  cont : Bool
  data : Bytes
  link : Bytes
  deriving DecidableEq, Repr

/-- The Tally journal (R327–R332): records in the ring or staging area newest first, the next Sequence, the newest in flash
plus one, the first Sequence of the running full seal, the link to chain from, the read Cursor, records that wait for
Tally to run (type and data, newest first), and the runs of Sequences that the host has read, as (first, end). -/
structure Tally where
  recs : List TallyRec
  next : Nat
  inFlash : Nat
  sealFrom : Nat
  link : Bytes
  cursor : Nat
  waiting : List (Nat × Bytes)
  seen : List (Nat × Nat)
  deriving DecidableEq, Repr

/-- Tin Soldier (R335–R343), in the battery island: latched causes, sources in alarm, the armed copy of 0x2D00.01–06, and the
causes whose TAMPER record has been numbered. `early` marks an alarm of this start before the keys were loaded (R339); `alarmAt` is 1 plus the instant
of the last alarm declared with the core powered; `meshSeed` is the mesh driver's seed and `meshAt` the instant it was drawn (R335). -/
structure Tamper where
  cause : Nat
  first : Nat
  rtcTime : Nat
  active : Nat
  enable : Nat
  polarity : Nat
  debounce : Nat
  mesh : Nat
  env : Nat
  wake : Bool
  numbered : Nat
  early : Bool
  alarmAt : Nat
  meshSeed : Nat
  meshAt : Nat
  deriving DecidableEq, Repr

/-- Jack (R345–R347): the nonce and the instant it was drawn, whether Jack is open, the last memory data, and trace records. -/
structure Jack where
  nonce : Bytes
  drawn : Nat
  opened : Bool
  memory : Bytes
  trace : List Bytes
  deriving DecidableEq, Repr

/-- One partial network (R357): its state code of Table 16-4, a wake latched in Commit, a rewake pending after it, and the source that woke it. -/
structure Pn where
  state : Nat
  latched : Bool
  rewake : Bool
  waker : Nat
  deriving DecidableEq, Repr

/-- The undefined partial network. -/
def Pn.undefined : Pn := ⟨0, false, false, 0⟩

/-- Sluice (R351–R364), in the always-on island: the copy of the 0x2E objects it acts on, whether a commit has given it one since VAUX rose, the PNs,
the masks of R359 and the holds by source, the wake pins now active, the wake hits not yet taken, running timers, gate line levels
(0 high-impedance, 1 awake, 2 sleep), PWR_HOLD, the stage of Sleep entry (0 none, 1 core told, 2 Tally sealed), and the requests of the core
that its crossing holds while the crystal is lost, oldest first, as (object, value), with object 0 for a commit and 1 for Halt (R16). -/
structure Sluice where
  held : SMap Nat
  configured : Bool
  heldConfig : Bool
  pns : SMap Pn
  masks : SMap Nat
  holds : SMap Nat
  pins : Nat
  hits : Nat
  timers : Nat
  gates : SMap Nat
  pwrHold : Bool
  pwrHoldFell : Nat
  wakeWaits : Bool
  entry : Nat
  entryAt : Nat
  waiting : List (Nat × Nat)
  deriving DecidableEq, Repr

/-- The tag of a command that completed, with its content digest and its whole completion record (R64); a command without a tag holds
its place among the last 256 with tag 0. -/
structure KeptTag where
  tag : Nat
  digest : Bytes
  record : Bytes
  deriving DecidableEq, Repr

/-- The shadow record of a TCAM slot (Tables 6-2 to 6-4); `mask` includes the TableId bits of a first slot. -/
structure Shadow where
  value : Nat
  mask : Nat
  record : Nat
  priority : Nat
  valid : Bool
  wide : Bool
  upper : Bool
  gen : Bool
  sealed : Bool
  wake : Bool
  deriving DecidableEq, Repr

/-- The shadow of a slot after the fill. -/
def Shadow.zero : Shadow := ⟨0, 0, 0, 0, false, false, false, false, false, false⟩

/-- Slot writes in progress (R150, R386), a place being 32768 × position + 8192 × quarter + local index: the WRITEs sent and
not acknowledged (none for one that only tells a member its generation), the writes still to be made, the loads to switch once those are
acknowledged as (quarter, table slot, second region's first local index), the loads switched and not acknowledged by every member, with
the old region's first local index, the regions kept from other use as (quarter, first local index, slots), the tables by
32 × quarter + table slot, the moves still to be made before the effect write, which waits for marks (none: it has been made or none holds it,
R153), what each place written so far held before, newest first, the sealed bundle whose image they write, [] for another command, and the keys that a
revocation has marked and that MAC operations granted before it still hold (R321). -/
structure ChainJob where
  acks : List (Nat × Option Shadow)
  writes : List (Nat × Shadow)
  flips : List (Nat × Nat × Nat)
  undo : List (Nat × Nat × Nat)
  held : List (Nat × Nat × Nat)
  tables : List Nat
  gate : Option Nat
  old : List (Nat × Shadow)
  bundle : Bytes
  fence : List Bytes
  deriving DecidableEq, Repr

/-- No slot writes. -/
def ChainJob.none : ChainJob := ⟨[], [], [], [], [], [], Option.none, [], [], []⟩

/-- Why a ring's command in execution has not completed yet: a fence (R68) with the counts it waits for and the search slots
still to return; a command that has passed its checks and must wait (for the shadows, the extended table, a mark, another command on its
table, Drowse or a resync), and whether host memory takes its data and its record; a command forwarded to the peer (R371) that waits for
its vote or for CMD_DONE; or slot writes that wait for a mark or a chain member (R153, R386), for the forwarded command of a PairSeq or, with 0, for none. -/
inductive Waiting where
  | fence (targets : List (Nat × Nat)) (slots : List Nat)
  | held (dataOk recordOk : Bool)
  | vote (pairSeq : Nat)
  | done (pairSeq : Nat) (status detail result : Nat)
  | chain (job : ChainJob) (result : Nat) (pairSeq : Nat)
  deriving DecidableEq, Repr

/-- One command ring (Table 3-3, R56–R68): its registers, the kept tags newest first, the descriptor and operand block of the
command in execution or halted, what a command in execution waits for, what follows
it (1 the ring is disabled, 2 an endpoint reset takes its registers too), and a HaltAction Skip that the paused ring has not taken yet. -/
structure Ring where
  descBase : Nat
  compBase : Nat
  sizeLog2 : Nat
  enabled : Bool
  producer : Nat
  completion : Nat
  overrun : Bool
  halted : Bool
  haltTag : Nat
  haltInfo : Nat
  tags : List KeptTag
  desc : Bytes
  block : Bytes
  waiting : Option Waiting
  disabling : Nat
  skip : Bool
  deriving DecidableEq, Repr

/-- A ring at its reset values (Table 3-3). -/
def Ring.off : Ring := ⟨0, 0, 4, false, 0, 0, false, false, 0, 0, [], [], [], none, 0, false⟩

/-- The endpoint's configuration space as Table 3-1 gives it: Vendor and Device ID, class code, Revision ID, the largest payload and read
request [B], the MSI-X vectors, and the AER capability. -/
structure PcieIdentity where
  vendor : Nat
  device : Nat
  classCode : Nat
  revision : Nat
  maxPayload : Nat
  maxReadRequest : Nat
  vectors : Nat
  aer : Bool
  deriving DecidableEq, Repr

/-- The properties of Table 3-1. -/
def PcieIdentity.ky8800 : PcieIdentity := ⟨0x1F9A, 0x8800, 0x0B4000, 0x21, 512, 4096, 32, true⟩

/-- The PCIe endpoint and its rings (R51–R70): its configuration space, whether it can send (the link is up and the host has set Bus Master
Enable), whether the host has enabled MSI-X, the vectors held back, and the MSI-X table. -/
structure Pcie where
  identity : PcieIdentity
  canSend : Bool
  msixOn : Bool
  held : List Nat
  msixTable : Memory
  rings : List Ring
  deriving DecidableEq, Repr

/-- The MSI-X table after a reset: every vector's Mask bit is set, as PCIe requires (R52, R54). -/
def msixReset : Memory := (List.range 32).map fun v => (16 * v + 12, 1#8)

/-- The endpoint before its link first trains. -/
def Pcie.off : Pcie := ⟨PcieIdentity.ky8800, false, false, [], msixReset, List.replicate 8 Ring.off⟩

/-- The scratchpad (R71–R80): its 4 MiB of bytes, the words that hold an uncorrectable error, the requester that the arbiter of each port
granted last, by 2 × bank + port (R72), and the words found uncorrectable in the scrub lap under way (R400). Owners and codes are the objects
BankOwner and BankCode. -/
structure Scratch where
  mem : Memory
  bad : SMap Bool
  granted : SMap Nat
  lapLost : List Nat
  deriving DecidableEq, Repr

/-- A candidate for a weak word (R302): its consecutive laps, the lap in which it last corrected, and what it then held. -/
structure Candidate where
  word : Nat
  laps : Nat
  lap : Nat
  held : List Nat
  deriving DecidableEq, Repr

/-- Scrubbing of one region (R299–R307): the next unit, the start of the lap, the candidate words, the lap's number, the weak words
(word, State) in the order found, the remap table (the unit whose spare line is each entry's), whether Top finishes the lap of a region whose
ScrubMode is 1, and whether Drowse has interrupted the lap. -/
structure RegionScrub where
  pos : Nat
  lap : Nat
  lapStart : Nat
  candidates : List Candidate
  weak : List (Nat × Nat)
  remap : List Nat
  topFinishes : Bool
  interrupted : Bool
  deriving DecidableEq, Repr

/-- A region before its first lap. -/
def RegionScrub.off : RegionScrub := ⟨0, 0, 0, [], [], [], false, false⟩

/-- One entry of a bank's merge buffer (R297): bank (0–31 scratchpad, 32–47 table slices), word index, and valid bytes. -/
structure MergeEntry where
  bank : Nat
  word : Nat
  mask : Nat
  deriving DecidableEq, Repr

/-- Memory integrity (R289–R310): the scrubbers by region ID, the merge buffers, oldest entry first, words withheld from use, as
(region, word), the instant of the PUF array's power-up while it still holds that pattern (none: it holds zeros, R292), the Marionettes' private
memories, and the vault lines that hold a secret moved from its own line, by handle (Table 13-6). -/
structure Integrity where
  regions : List RegionScrub
  merge : List MergeEntry
  retired : List (Nat × Nat)
  puf : Option Nat
  ownMemory : Memory
  vaultMoves : SMap Nat
  deriving DecidableEq, Repr

/-- The integrity block after a fill. -/
def Integrity.off : Integrity := ⟨List.replicate 18 RegionScrub.off, [], [], none, [], []⟩

/-- The states of a cached line (Tables 12-3, 12-5), with the line being fetched, and an S line whose Upg is outstanding. -/
inductive LineState where
  | m
  | e
  | s
  | ie
  | fetching
  | upgrading
  deriving DecidableEq, Repr

/-- A line in an agent's cache (R265, R267): data in four 16-byte cells, the poison mask by granule, whether the data and which Grant have
arrived, whether it is in its hold time (R273), and the snoop that waits for the hold to end, as (kind, requester). -/
structure CacheLine where
  st : LineState
  data : List Nat
  poison : Nat
  gotData : Bool
  granted : Option LineState
  hold : Bool
  snoop : Option (Nat × Nat)
  deriving DecidableEq, Repr

/-- A directory entry (R274): DX with its owner, or DS with its sharer pointers and broadcast bit; `used` orders entries for LRU. -/
structure DirEntry where
  dx : Bool
  owner : Nat
  sharers : List Nat
  bcast : Bool
  used : Nat
  deriving DecidableEq, Repr

/-- The requests that a home slice orders (Table 12-4). -/
inductive ReqKind where
  | rds
  | rdo
  | upg
  | wbd
  | evc
  | rdh
  | wrh
  | atm
  deriving DecidableEq, Repr

/-- A request at home: kind, requester, line, the granules it names, their data and poison mask, an atomic and whether it is posted, and whether
its wait for a directory entry has been counted. -/
structure Req where
  kind : ReqKind
  src : Nat
  line : Nat
  mask : Nat
  data : List Nat
  poison : Nat
  op : Option AtomOp
  posted : Bool
  waited : Bool
  deriving DecidableEq, Repr

/-- An open transaction (R268, R271): its request, the agents whose snoop responses are awaited, whether its data must come from
home, whether it waits for Cmp, and the line whose entry it evicts first, with the holders still to answer (R277). -/
structure Txn where
  req : Req
  await : List Nat
  fromHome : Bool
  granted : Bool
  victim : Option Nat
  victimAwait : List Nat
  deriving DecidableEq, Repr

/-- The messages that units exchange (Table 12-4); a request is one only while an earlier message of its unit is before it on the channel. -/
inductive MsgKind where
  | request (q : Req)
  | wbd
  | evc
  | cmp
  | snpData
  | snpOwn
  | snpInv
  | snpRecall (backInv : Bool)
  | dataFwd
  | rspI
  | rspFwd
  | rspFwdData
  | rspData
  | rspEvInFlight
  | dataH
  | grant (st : LineState)
  | nack (ticket : Nat)
  | atmRsp (result : Nat)
  | wrAck
  | rdRsp
  | evAck
  deriving DecidableEq, Repr

/-- A message in flight: kind, sender, receiver (agents and requesters by number, home slices from 0x40), line, the requester a
snoop names, data and poison mask. -/
structure Msg where
  kind : MsgKind
  src : Nat
  dst : Nat
  line : Nat
  req : Nat
  data : List Nat
  poison : Nat
  deriving DecidableEq, Repr

/-- A checkpoint copy (R285): its granules of the counter-pair and freshness regions, and the commit marker's instant plus one. -/
structure CheckCopy where
  granules : SMap Nat
  marker : Nat
  deriving DecidableEq, Repr

/-- The coherent domain (R262–R288): home memory by 16-byte cell, poisoned granules by their first 8-byte word, cached lines by agent × 2^18 + line,
directory entries and queues by line, open transactions, messages in flight oldest first, tickets by slice, requests that wait
for a retry, redirected lines, the write-through shadow, two checkpoint copies, freshness granules set since the newest of them,
the instants of the last failure and of the last restart's end plus one, an LRU stamp, the results of atomics by requester, the unit that
has met an illegal message and whose domain has not stopped for it yet, and the evictions, as (agent, line), that home awaits as the answer to
a snoop (R278). -/
structure Coherence where
  home : SMap Nat
  poison : SMap Bool
  caches : List (Nat × CacheLine)
  dir : List (Nat × DirEntry)
  queues : List Req
  open_ : List Txn
  net : List Msg
  nextTicket : List Nat
  nacked : List (Nat × Req)
  redirects : List (Nat × Nat)
  shadow : SMap Nat
  copy0 : CheckCopy
  copy1 : CheckCopy
  freshSet : SMap Nat
  failedAt : Nat
  restartEnd : Nat
  stamp : Nat
  results : List (Nat × Nat)
  illegal : Option Nat
  crossing : List (Nat × Nat)
  deriving DecidableEq, Repr

/-- The domain after a fill: home memory zero, directories and caches empty (R293). -/
def Coherence.off : Coherence :=
  ⟨[], [], [], [], [], [], [], List.replicate 16 0, [], [], [], ⟨[], 0⟩, ⟨[], 0⟩, [], 0, 0, 0, [], none, []⟩

/-- Records, meters and counters outside the Reservoir, and what is posted (R222–R238): the Verdict Store, the Flume meters, their
copies in the table shadows, counter fetch-adds that wait at their home slices, oldest first, as (pair, frames, bytes), and the records
(2^20 + index), Flume meters (2^21 + index) and Flume freshness counters (2^22 + index) found uncorrectable and not yet restored or read
(Table 13-6). -/
structure Results where
  verdict : SMap Nat
  flumeMeters : SMap Nat
  verdictShadow : SMap Nat
  flumeShadow : SMap Nat
  posted : List (Nat × Nat × Nat)
  bad : SMap Bool
  deriving DecidableEq, Repr

/-- A valid exact-match entry (Tables 8-2, 8-3); the key is 320 bits, left-aligned, its low 192 bits zero on chip. -/
structure BucketEntry where
  key : Nat
  record : Nat
  timestamp : Nat
  static : Bool
  sealed : Bool
  learned : Bool
  moveLocked : Bool
  gen : Bool
  table : Nat
  flap : Nat
  flapStart : Nat
  channel : Nat
  hostState : Nat
  created : Nat
  deriving DecidableEq, Repr

/-- What waits at a table slice (R190): a learn, a refresh, or an aging compare-and-delete with the Timestamp that the sweep read. -/
inductive SliceOp where
  | learn (table key record channel : Nat)
  | refresh (table key : Nat)
  | ageDelete (table key timestamp : Nat)
  deriving DecidableEq, Repr

/-- The aging sweep of a table (R215): the next bucket or overflow read of the lap, the tick at which the lap began, and whether
the lap has overrun. -/
structure Sweep where
  pos : Nat
  lapStart : Nat
  late : Bool
  deriving DecidableEq, Repr

/-- The exact-match stores and their slices (R183–R221). A place is 4 × bucket + way on chip, 0x40000 + slot in the overflow store,
0x100000 + 4 × bucket + way in the extended store; a place that is not listed is free. `gens` holds gen[t], `seedEpoch` the epoch
that the start's seeds were derived for, `retired` the retired places, `reserved` those reserved for the peer, `disarmed` the
tables whose vector 22 is disarmed, `tokens` the level of the token bucket of R199 in thousandths of a token at its last update, below 0 while
lookups wait for theirs, and `bad` the places with a word found uncorrectable that the slice or a Marionette has not handled yet (Table 13-6). -/
structure Buckets where
  entries : SMap BucketEntry
  gens : Nat
  seedEpoch : Nat
  retired : List Nat
  reserved : List Nat
  disarmed : Nat
  queue : List (Nat × SliceOp)
  sweeps : SMap Sweep
  tokens : Int
  tokensAt : Nat
  bad : SMap Bool
  deriving DecidableEq, Repr

/-- The stores after a fill. -/
def Buckets.off : Buckets := ⟨[], 0, 0, [], [], 0, [], [], 0, 0, []⟩

/-- A slot of the ternary array (R139) with its shadow record (R141). -/
structure TcamSlot where
  v : Bool
  w : Bool
  g : Bool
  parity : Bool
  value : Nat
  mask : Nat
  shadow : Shadow
  deriving DecidableEq, Repr

/-- A slot after the fill. -/
def TcamSlot.zero : TcamSlot := ⟨false, false, false, false, 0, 0, Shadow.zero⟩

/-- The ternary array (R139–R161): slots by 8192 × quarter + local index, generation bits by 256 × quarter + TableId, the first
local index of each table's region by 32 × quarter + (s − 1), powered blocks by 8 × quarter + block, retired slots, the slots
reserved for the peer, the head's map of member slots by 32768 × position + slot, the devices in the chain, and the shadow records of entries
lost to an uncorrectable shadow word, as the table's group map keeps them, by slot (R157), and the slots whose winner check failed in the scrub
lap under way, once for each time (R400). -/
structure Tcam where
  slots : SMap TcamSlot
  gens : SMap Bool
  regions : SMap Nat
  powered : Nat
  retired : List Nat
  reserved : List Nat
  remote : SMap Shadow
  members : Nat
  lost : SMap Shadow
  mismatched : List Nat
  deriving DecidableEq, Repr

/-- The array after a fill. -/
def Tcam.off : Tcam := ⟨[], [], [], 0, [], [], [], 1, [], []⟩

/-- Where a node lies (R166): its stage, the word address of its first chunk, and each chunk's EntryBase. -/
structure TriePlace where
  stage : Nat
  addr : Nat
  bases : List Nat
  deriving DecidableEq, Repr

/-- Furrow (R162–R182): every table's prefix list in the table shadows (R175), by ((table × 2^64) + Prefix) × 128 + Length, each with its
RecordIndex; the root-entry register of each table (R167); the place of each node, by (128 × table + depth) × 2^64 + path; the words of the stage
memories by index, stage after stage; the blocks of words in use or superseded, by first word, with their lengths; the drain markers under way,
oldest first, each a table with the first words of the blocks that it frees; and the words found uncorrectable and not yet rebuilt. -/
structure Furrow where
  prefixes : SMap Nat
  roots : SMap Nat
  places : SMap TriePlace
  words : SMap Nat
  used : SMap Nat
  draining : List (Nat × List Nat)
  bad : SMap Bool
  deriving DecidableEq, Repr

/-- Furrow after a fill. -/
def Furrow.off : Furrow := ⟨[], [], [], [], [], [], []⟩

/-- A verdict as it fills a Result Token (Table 4-12); `ext` is the 256-bit extension of Table 4-13, or 0 without one. -/
structure Verdict where
  status : Nat
  action : Nat
  dest : Nat
  priority : Nat
  colour : Nat
  record : Nat
  transform : Nat
  mirrorSet : Nat
  mirror : Bool
  host : Bool
  verified : Bool
  ext : Nat
  time : Nat
  deriving DecidableEq, Repr

/-- A MAC operation of a search (R244–R252): the profile and key that it holds, the counter's candidate value, and its engine. -/
structure MacWork where
  profile : Bytes
  number : Nat
  key : Bytes
  candidate : Nat
  engine : Nat
  deriving DecidableEq, Repr

/-- A lookup of an exact-match table as its search read it: Learn, table, key and entry (R204), whether a NEW learn was predicted full
then (R206), and whether the entry's Timestamp differed from the tick of that instant (R214). -/
structure SourceRead where
  learn : Bool
  table : Nat
  key : Nat
  entry : Option BucketEntry
  full : Bool
  stale : Bool
  deriving DecidableEq, Repr

/-- Where a search stands; `stepWait` before a Furrow or extended-table step whose block is down (R399, R16). -/
inductive Phase where
  | assigned
  | stepWait
  | chainWait
  | payloadWait
  | contextWait
  | mac
  | done
  deriving DecidableEq, Repr

/-- What is known of a search's payload (R105): none, segments awaited, complete, or inconsistent. -/
inductive PayloadState where
  | none
  | awaited
  | complete
  | inconsistent
  deriving DecidableEq, Repr

/-- A search slot (R18): 0–63 Flume, 64–255 shared. It holds the Key Token header and snapshot, the configuration that was live at
its assignment (R39), the payload and the units that it holds, its Lateral (8 for none), the sequencer's variables (R121), what a
chain-wide step found here and its ticket, the verdict so far and its record, the lookups to post, the MAC operation, and whether it was
assigned during a forwarded class A change (R375), the instant of its acceptance, and whether its result stands behind an authenticated one of
65–4,096 B on its link (R134). -/
structure Slot where
  id : Nat
  link : Nat
  header : Nat
  snapshot : Bytes
  config : SMap Nat
  payload : Bytes
  payState : PayloadState
  units : Nat
  lateral : Nat
  phase : Phase
  step : Nat
  cand : Option Nat
  fromDefault : Bool
  chain : Nat
  ownHit : Option (Nat × Nat)
  ticket : Nat
  verdict : Verdict
  resultRecord : Nat
  reads : List SourceRead
  mac : Option MacWork
  transition : Bool
  since : Nat
  late : Bool
  deriving DecidableEq, Repr

/-- A Headgate key link (R87–R111): its state (0 disabled, 1 training, 2 up, 3 up on one lane, 4 down), lost lanes, whether it keeps
its sequence state, sequence numbers, unacknowledged parcels oldest first, resends without advance, the last Nak as (Seq, instant + 1),
ErrWord, whether it has been up, this epoch's accepted tokens and units and granted counts by class, the grants last sent, payloads absorbed as
(class, tag, until), and the class A policing level and its refill instant in the elapsed count, and whether its class A searches have
included a MAC operation on at most 64 B since the start. -/
structure Link where
  state : Nat
  lost : Nat
  fresh : Bool
  spread : Bool
  rxSeq : Nat
  txSeq : Nat
  unacked : List (Nat × Bytes)
  resends : Nat
  nakked : Nat × Nat
  errWord : Nat
  used : List Nat
  unitsUsed : List Nat
  granted : List Nat
  unitsGranted : List Nat
  grantSent : List Nat
  absorbed : List (Nat × Nat × Nat)
  level : Nat
  levelAt : Nat
  macA : Bool
  deriving DecidableEq, Repr

/-- A link before it first trains. -/
def Link.off : Link := ⟨0, 0, true, false, 0, 0, [], 0, (0, 0), 0, [0, 0, 0], [0, 0, 0], [0, 0, 0], [0, 0, 0], [], [], 0, 0, false⟩

/-- Headgate, the Laterals and the Flume: the links, the occupied slots in order of acceptance, the device-wide authentication bucket, the
Flume freshness store, and the next chain ticket. -/
structure Headgate where
  links : List Link
  slots : List Slot
  authLevel : Nat
  authAt : Nat
  flumeFresh : SMap Nat
  nextTicket : Nat
  deriving DecidableEq, Repr

/-- Headgate before a start. -/
def Headgate.off : Headgate := ⟨List.replicate 8 Link.off, [], 0, 0, [], 0⟩

/-- A forwarded command that the secondary holds (R371): its PairSeq, descriptor and operand block, the places reserved for it (slots of
the ternary array from 2^21), the region of the ternary array reserved for its bulk load as (quarter, first local index, slots), whether its vote
has been sent, and whether CMD_COMMIT has come. -/
structure Prepared where
  seq : Nat
  desc : Bytes
  block : Bytes
  places : List Nat
  region : Option (Nat × Nat × Nat)
  voted : Bool
  committed : Bool
  deriving DecidableEq, Repr

/-- A region's image as it lands at the secondary (R380), and the Length, PairSeq and digest of its RESYNC_END once that has come. -/
structure Incoming where
  region : Nat
  data : Bytes
  ended : Option (Nat × Nat × Nat)
  deriving DecidableEq, Repr

/-- A class A result that the comparison of R376 keeps: its link, its masked bits, the instant at which it came, and a flag: of an own result,
that it has met its partner or has been counted as missing it; of the peer's, its Transition. -/
structure PairResult where
  link : Nat
  digest : Nat
  at_ : Nat
  flag : Bool
  deriving DecidableEq, Repr

/-- The Culvert pair (R367–R381): the role set by Promote (0: the strap's) and PairEpoch, kept in the always-on island; the instant plus one
at which ConfigGrace started; the last PairSeq used or prepared and the last one completed; commands prepared at the secondary; slot writes of
chain-wide tables still to be acknowledged, by PairSeq, or by 2^64 + RegionId for a resync; the peer's last PairConfigDigest; bulk-load images by
PairSeq and resync images as they land; the region digests recorded after the last 256 forwarded PairSeq, newest first; regions resyncing, and those of
them whose image the primary has not sent yet; regions reported once because LPDDR5 is absent (R428); the own class A results that the comparison
keeps and the peer's that wait for their partner, oldest first; the instant plus one of each link's last kind 5 record; and the messages that wait
for the link to come up, oldest first (R367). -/
structure Pair where
  role : Nat
  epoch : Nat
  grace : Nat
  seq : Nat
  doneSeq : Nat
  held : List Prepared
  chainWrites : List (Nat × ChainJob)
  peerDigest : Option Nat
  images : List (Nat × Bytes)
  incoming : List Incoming
  digests : List (Nat × SMap Nat)
  resyncs : List Nat
  owed : List Nat
  reported : List Nat
  ownResults : List PairResult
  peerResults : List PairResult
  kind5At : SMap Nat
  waiting : List (Nat × Bytes)
  deriving DecidableEq, Repr

/-- An unpaired device. -/
def Pair.off : Pair :=
  { role := 0, epoch := 0, grace := 0, seq := 0, doneSeq := 0, held := [], chainWrites := [], peerDigest := none, images := [],
    incoming := [], digests := [], resyncs := [], owed := [], reported := [], ownResults := [], peerResults := [], kind5At := [], waiting := [] }

/-- The Domino chain (R382–R386): whether the link is up, the identities and the digests that arrived by position, the positions of the
DISCOVER that returned, and member slots that the head must still rewrite after the ring is restored. -/
structure Chain where
  up : Bool
  ids : List (Nat × Nat)
  digests : List (Nat × Nat)
  found : Option (List Nat)
  rewrite : ChainJob
  deriving DecidableEq, Repr

/-- A device whose ring has not come up. -/
def Chain.off : Chain := ⟨false, [], [], none, ChainJob.none⟩

/-- The state: every block, the commands that wait (first in, first out), the counter that numbers free values, and what has
left the device, newest first. -/
structure State where
  clock : Clock
  power : Power
  modes : Modes
  dict : Dict
  mailbox : Mailbox
  can : Can
  keys : Keys
  flash : Flash
  tally : Tally
  tamper : Tamper
  jack : Jack
  sluice : Sluice
  host : Pcie
  scratch : Scratch
  integ : Integrity
  coh : Coherence
  results : Results
  buckets : Buckets
  tcam : Tcam
  furrow : Furrow
  headgate : Headgate
  pair : Pair
  chain : Chain
  pending : List Instr
  fresh : Nat
  out : List Output
  deriving DecidableEq, Repr

/-- The mode record of an unpowered core. -/
def Modes.off (mode : Nat) : Modes :=
  { mode, startCause := 0, rootDone := false, fillDone := false, ready := false, fillEnded := false, classReady := 0,
    locked := 0, quarantine := 0, halted := false, drowse := 0, drowseTrigger := 0, busyAt := 0, refLost := 0, k8At := 0, fwSlot := 0,
    fwBuild := [], fwVersion := 0, fwStage := 0, fwImage := [], active := [], emcyAt := [], emcyWait := [], early := [] }

/-- The dictionary with every object at its default (R23). -/
def Dict.off : Dict := ⟨[], [], [], [], none⟩

/-- The mailbox before a start. -/
def Mailbox.off : Mailbox := ⟨[], [], false⟩

/-- The CAN port before a start: Pre-operational when it starts (R29). -/
def Can.off : Can := ⟨false, 0x7F, 0, 0, false, false, false, none, none, [], 0⟩

/-- Sluice before VAUX rises: unconfigured (R363). -/
def Sluice.off : Sluice := ⟨[], false, false, [], [], [], 0, 0, 0, [], true, 0, false, 0, 0, []⟩

/-- Tin Soldier with the arming defaults of Table 15-3 and nothing latched. -/
def Tamper.off : Tamper := ⟨0, 0xFF, 0, 0, 0, 0, 2, 0, 0x0F, false, 0, false, 0, 0, 0⟩

/-- The device after reset: VBAT applied, VAUX absent, mode Battery; vault, flash and OTP as an unprovisioned part. -/
def State.reset : State where
  clock := ⟨0, 0, 0, 0, true, 0, 0⟩
  power := ⟨0, false, true, false, 0, false, false, false, false, false, 0, false, 0, 0⟩
  modes := Modes.off 0x01
  dict := Dict.off
  mailbox := Mailbox.off
  can := Can.off
  keys := ⟨0, false, 0, [], Vault.zero, [], [], false, false, [], false⟩
  flash := ⟨[], [], [], [], [], [], 0, 0⟩
  tally := ⟨[], 0, 0, 0, [], 0, [], []⟩
  tamper := Tamper.off
  jack := ⟨[], 0, false, [], []⟩
  sluice := Sluice.off
  host := Pcie.off
  scratch := ⟨[], [], [], []⟩
  integ := Integrity.off
  coh := Coherence.off
  results := ⟨[], [], [], [], [], []⟩
  buckets := Buckets.off
  tcam := Tcam.off
  furrow := Furrow.off
  headgate := Headgate.off
  pair := Pair.off
  chain := Chain.off
  pending := []
  fresh := 0
  out := []

end Sys2Proof.Machine
end

