-- ==== Sys2Proof/Machine/Ops.lean ====
section
/-! DEFINITION. The operations that every family shares: outcomes, time, the live dictionary, counters, outputs, the Tally
record, faults and the mode. -/

namespace Sys2Proof.Machine

/-- What a command's meaning answers. -/
abbrev Result := Host.Outcome State Fault Refusal

/-- The effect of a command that names a unit; the unit must exist. -/
def onUnit (exists_ : Bool) (s : State) : Result := if exists_ then .next s else .fault .noSuchUnit

/-- What executing a ring command's operation answers: completed with a status below 0x10 and the Result field; failed with a
status and a detail; it must wait, with nothing done (Table 3-8, R296); or its slot writes wait for a chain member's acknowledgement
(R386). -/
inductive OpRes where
  | chain (job : ChainJob) (result : Nat) (s : State)
  | done (status result : Nat) (s : State)
  | fail (status detail : Nat) (s : State)
  | wait

/-! ### Time -/

/-- E: nanoseconds since the present start (R213); it stands still while its reference is lost (R16). -/
def elapsed (s : State) : Nat := (if s.modes.k8At = 0 then s.clock.wall else s.modes.k8At - 1) - s.clock.coreStart

/-- The Timebase [ns] (Table 1-3). -/
def timebase (s : State) : Nat := unsigned 64 ((elapsed s : Int) + s.clock.timeAdj)

/-- The LPDDR5 interface runs: its reference is there (R16). -/
def lpddrRuns (s : State) : Bool := !bit s.modes.refLost 4

/-- The RTC: 32.768 kHz periods since the battery island left its own reset (R427); it stands still while its crystal is lost (R16). -/
def rtcNow (s : State) : Nat :=
  if s.clock.rtcOn then ((if s.clock.rtcHeld = 0 then s.clock.wall else s.clock.rtcHeld - 1) - s.clock.rtcStart) * 32768 / 1000000000 % 2 ^ 64 else 0

/-- The next free value's number, and the state that has used it. -/
def drawFresh (s : State) : Nat × State := (s.fresh, { s with fresh := s.fresh + 1 })

/-! ### The live dictionary -/

/-- Look up a key that may not be listed. -/
def SMap.find? {α : Type} : SMap α → Nat → Option α
  | [], _ => none
  | (k', v) :: m, k => if k = k' then some v else SMap.find? m k

/-- The default TopRate of each region (Table 13-1). -/
def topRateDefaults : List Nat :=
  [4096, 4096, 1024, 26624, 200000, 200000, 200000, 200000, 65536, 131072, 4096, 262144, 65536, 4096, 1024, 65536, 32768, 2097152]

/-- The maximum TopRate of each region (Table 13-1). -/
def topRateMaxima : List Nat :=
  [65536, 65536, 16384, 425984, 1000000, 1000000, 1000000, 1000000, 1048576, 2097152, 65536, 4194304, 1048576, 65536, 16384,
   1048576, 524288, 16777216]

/-- The default of an object, where its table's Default column gives one number or a rule (Tables 2-11, 3-11, 13-1). -/
def objDefault (nodeId k : Nat) : Nat :=
  if k = O.cobIdEmcy then 0x80 + nodeId
  else if O.tpdoCobId 0 ≤ k ∧ k ≤ O.tpdoCobId 15 ∧ k % 256 = 1 then
    let n := (k - O.tpdoCobId 0) / 256
    if n < 4 then 0x80000180 + 0x100 * n + nodeId else 0x80000000
  else if O.ringExecutor 0 ≤ k ∧ k ≤ O.ringExecutor 7 then (k - O.ringExecutor 0) % 4
  else if O.topRate 0 ≤ k ∧ k ≤ O.topRate 17 then topRateDefaults.getD (k - O.topRate 0) 1
  else match objRow? (k / 256) (k % 256) with
    | some r => r.default
    | none => 0

/-- An object's value in a given set of live values: what a search sees of the configuration of its slot (R39). -/
def objIn (nodeId : Nat) (live : SMap Nat) (k : Nat) : Nat := (SMap.find? live k).getD (objDefault nodeId k)

/-- The live value of an object. -/
def State.obj (s : State) (k : Nat) : Nat := objIn s.can.nodeId s.dict.live k

/-- The live value of an object whose default is 0. -/
def State.val (s : State) (k : Nat) : Nat := SMap.get 0 s.dict.live k

/-- A live flag whose default is false. -/
def State.flag (s : State) (k : Nat) : Bool := s.val k != 0

/-- Make `v` the live value of an object whose default is 0. -/
def State.put (s : State) (k v : Nat) : State := { s with dict := { s.dict with live := SMap.set 0 s.dict.live k v } }

/-- Make `v` the live value of any object; a value equal to the default is not listed. -/
def State.setObj (s : State) (k v : Nat) : State :=
  { s with dict := { s.dict with
      live := if v = objDefault s.can.nodeId k then SMap.erase s.dict.live k else SMap.insert s.dict.live k v } }

/-- A counter that wraps at 32 bits rises by `n`. -/
def State.bumpBy (s : State) (k n : Nat) : State := s.put k ((s.val k + n) % 2 ^ 32)

/-- A counter that wraps at 32 bits rises by one. -/
def State.bump (s : State) (k : Nat) : State := s.bumpBy k 1

/-- A peak object takes the greater value. -/
def State.peak (s : State) (k v : Nat) : State := s.put k (max (s.val k) v)

/-! ### Outputs -/

/-- Something leaves the device. -/
def emit (o : Output) (s : State) : State := { s with out := o :: s.out }

/-- The endpoint can send vector `v` now: its link is up, the host has enabled MSI-X, and the vector's Mask bit is clear (R52, Table 3-2). -/
def vectorOpen (v : Nat) (s : State) : Bool :=
  s.host.canSend && s.host.msixOn && !bit (Memory.read s.host.msixTable (16 * v + 12)).toNat 0

/-- An MSI-X vector of Table 3-4 is raised; while the endpoint cannot send it, it is held back once (R425). -/
def vector (v : Nat) (s : State) : State :=
  if vectorOpen v s then emit (.msix v) s
  else { s with host := { s.host with held := if s.host.held.contains v then s.host.held else s.host.held ++ [v] } }

/-! ### The key tree's root and identity (R311, R312) -/

/-- DeviceUid as 16 bytes. -/
def uidBytes : Bytes := beBytes 16 Config.deviceUid.toNat

/-- The root as the key engine holds it. -/
def rootBytes : Bytes := beBytes 32 Config.pufRoot.toNat

/-- The vault wrapping key (Table 14-2). -/
def vaultKey : Bytes := kdf rootBytes "KY88 VAULT WRAP" uidBytes 256

/-- The identity private key (Table 14-2). -/
def identityPrivate : Nat := ecPrivate (kdf rootBytes "KY88 IDENTITY" uidBytes 320)

/-- The identity public key, X ‖ Y. -/
def identityPublic : Bytes := ecPublic identityPrivate

/-- The key-agreement private key (Table 14-2). -/
def agreePrivate : Nat := ecPrivate (kdf rootBytes "KY88 AGREE" uidBytes 320)

/-- The current epoch: epoch fuses burned (Table 14-3). -/
def epochNow (s : State) : Nat := s.keys.fuses

/-- AuthorityKeyHash of the current epoch, where programmed (R313). -/
def authorityHash? (s : State) : Option Bytes := (s.keys.hashes.find? fun e => e.1 == epochNow s).map (·.2)

/-- The device is commissioned (R313). -/
def commissioned (s : State) : Bool := (authorityHash? s).isSome

/-- The identity key signs `m`; the per-signature secret is a free value. -/
def sign (m : Bytes) (s : State) : Bytes × State :=
  let (n, s) := drawFresh s
  (ecdsaSign identityPrivate (Config.signSecret n).toNat m, s)

/-- 16 bytes from the DRBG (R322). -/
def drbg16 (s : State) : Bytes × State :=
  let (n, s) := drawFresh s
  (beBytes 16 (Config.drbg n).toNat, s)

/-! ### The vault's header (Table 14-4) -/

/-- Bytes 0x0000–0x00EF of the vault. -/
def Vault.header (v : Vault) : Bytes :=
  beBytes 4 v.magic ++ beBytes 1 v.epoch ++ beBytes 1 v.recovery ++ zeros 2 ++ beBytes 8 v.counter ++ beBytes 8 v.manifestSeq ++
  fit 32 v.manifestDigest ++ beBytes 8 v.chainSeq ++ fit 32 v.chainLink ++ beBytes 8 v.snapSeq ++ fit 16 v.nonce ++ zeros 120

/-- HeaderMac of a header under the vault wrapping key. -/
def Vault.macOf (v : Vault) : Bytes := aesCmac vaultKey v.header

/-- Change the vault's header, HeaderMac written again (R314); without the wrapping key the header cannot be written. -/
def onVault (f : Vault → Vault) (s : State) : State :=
  if s.keys.rootUp then
    let v := f s.keys.vault
    { s with keys := { s.keys with vault := { v with mac := v.macOf } } }
  else s

/-! ### Tally records (R327, Table 14-13) -/

/-- The genesis link (R327). -/
def genesisLink : Bytes := sha256 (ascii "KY88 TALLY" ++ uidBytes)

/-- Bytes 0–31 of a record. -/
def TallyRec.head (r : TallyRec) : Bytes :=
  beBytes 8 r.seq ++ beBytes 8 r.time ++ beBytes 2 r.type ++ beBytes 1 r.mode ++ beBytes 1 (b2n r.cont) ++ fit 12 r.data

/-- A record's 64 bytes. -/
def TallyRec.bytes (r : TallyRec) : Bytes := r.head ++ fit 32 r.link

/-- The records that the LPDDR5 ring holds: 256 MiB of 64 B each (Table 13-3). -/
def ringRecords : Nat := 4194304

/-- Tally runs: firmware has reconciled the chain head, and the coherent domain is up (R330, R284); in Halt it numbers and commits the
MODE_CHANGE record whatever stopped before (R401). -/
def tallyRuns (s : State) : Bool := s.modes.halted || (s.modes.ready && s.val O.domainState == 0)

/-- Number one record: the next Sequence, the chain link, the vault's chain head, and vector 19 where NotifyMask names its type. -/
def numberOne (type : Nat) (cont : Bool) (data : Bytes) (s : State) : State :=
  let r : TallyRec := ⟨s.tally.next, timebase s, type, s.modes.mode, cont, fit 12 data, []⟩
  let link := sha256 (fit 32 s.tally.link ++ r.head)
  let s := { s with tally := { s.tally with recs := ({ r with link } :: s.tally.recs).take ringRecords, next := s.tally.next + 1, link } }
  let s := onVault (fun v => { v with chainSeq := r.seq, chainLink := link }) s
  if bit (s.obj O.notifyMask) (type / 16) then vector 19 s else s

/-- Number the pieces of one record: the first under its type, the rest as CONTINUATION, Continued set on all but the last. -/
def numberPieces (type : Nat) : List Bytes → State → State
  | [], s => numberOne type false [] s
  | [d], s => numberOne type false d s
  | d :: d' :: ds, s => numberPieces 0x0001 (d' :: ds) (numberOne type true d s)

/-- A record whose Data continues beyond 12 bytes takes CONTINUATION records (R327). -/
def numberRecord (type : Nat) (data : Bytes) (s : State) : State :=
  numberPieces type (chunks 12 (data.length + 1) data) s

/-- Journal an event: numbered now while Tally runs, else as soon as it does. -/
def journal (type : Nat) (data : Bytes) (s : State) : State :=
  if tallyRuns s then numberRecord type data s
  else { s with tally := { s.tally with waiting := (type, data) :: s.tally.waiting } }

/-- Number what waited for Tally, in the order of the events. -/
def journalWaiting (s : State) : State :=
  let ws := s.tally.waiting.reverse
  ws.foldl (fun s w => numberRecord w.1 w.2 s) { s with tally := { s.tally with waiting := [] } }

/-! ### Modes (R391, R392) -/

/-- Some region holds more than 16 weak words (R307). -/
def regionWeak (s : State) : Bool := (List.range 18).any fun i => s.val (O.weakWordCount i) > 16

/-- The mode that R391 gives once Fill has ended. -/
def modeNow (s : State) : Nat :=
  if s.modes.halted then 0x0C
  else if s.jack.opened then 0x0B
  else if s.val O.domainState ≠ 0 then 0x06
  else if s.val O.pairState = 5 then 0x09
  else if s.modes.locked ≠ 0 then 0x0A
  else if !commissioned s then 0x03
  else if s.modes.drowse = 2 ∨ s.modes.drowse = 3 then 0x07
  else if s.modes.quarantine ≠ 0 ∨ regionWeak s = true then 0x05
  else 0x04

/-- The mode changes, and a MODE_CHANGE record carries the old mode, the new mode and the cause (R392). -/
def changeMode (mode cause : Nat) (s : State) : State :=
  let old := s.modes.mode
  if old = mode then s
  else journal 0x0010 (beBytes 1 old ++ beBytes 1 mode ++ beBytes 2 cause) { s with modes := { s.modes with mode, busyAt := s.clock.wall } }

/-- Take the mode of R391, once Fill has ended and while the core is powered; Halt also ends Fill. -/
def settleMode (cause : Nat) (s : State) : State :=
  if s.power.core && (s.modes.fillEnded || s.modes.halted) then changeMode (modeNow s) cause s else s

/-- An event that one of R398's conditions names begins DrowseIdle anew. -/
def drowseBusy (s : State) : State := { s with modes := { s.modes with busyAt := s.clock.wall } }

/-- An event of R399's list ends Drowse: entry reverses at its present step, and the exit runs. -/
def drowseTrigger (s : State) : State :=
  let s := drowseBusy s
  if s.modes.drowse = 1 then { s with modes := { s.modes with drowse := 4, drowseTrigger := s.clock.wall } }
  else if s.modes.drowse = 2 then { s with modes := { s.modes with drowse := 3, drowseTrigger := s.clock.wall } }
  else s

/-! ### Faults (R402, Table 18-7) -/

/-- The class, EMCY code and error register bit of a fault. -/
def faultRow (code : Nat) : Nat × Nat × Nat :=
  match code with
  | 0x0101 => (0, 0x3200, 2)
  | 0x0102 => (0, 0x3200, 2)
  | 0x0103 => (0, 0x4200, 3)
  | 0x0104 => (1, 0x4200, 3)
  | 0x0110 => (0, 0x5000, 7)
  | 0x0120 => (0, 0x5000, 0)
  | 0x0121 => (1, 0x5000, 0)
  | 0x0130 => (0, 0x5000, 7)
  | 0x0131 => (0, 0x5000, 7)
  | 0x0132 => (1, 0x5000, 7)
  | 0x0140 => (0, 0x5000, 7)
  | 0x0141 => (0, 0x8100, 4)
  | 0x0142 => (0, 0x8100, 4)
  | 0x0150 => (0, 0xFF00, 7)
  | 0x0151 => (0, 0xFF00, 7)
  | 0x0152 => (0, 0xFF00, 7)
  | 0x0160 => (2, 0, 8)
  | 0x0161 => (2, 0x6100, 7)
  | 0x0170 => (0, 0xFF00, 7)
  | 0x0171 => (0, 0xFF00, 7)
  | 0x0172 => (0, 0xFF00, 7)
  | _ => (0, 0, 8)

/-- A fault of class C is active: FAULT_N is asserted with the mode unchanged; REF_LOST counts while K1 or K8 is named. -/
def classC (f : Nat × Nat) : Bool :=
  (faultRow f.1).1 == 1 || (f.1 == 0x0110 && (bit f.2 0 || bit f.2 7))

/-- FAULT_N is asserted (R403); unpowered in Battery, released in Sleep. -/
def faultN (s : State) : Bool :=
  if s.modes.mode = 0x01 ∨ s.modes.mode = 0x08 then false else s.modes.halted || s.modes.active.any classC

/-- ErrorRegister 0x1001: the bits of the active faults, and bit 0 while any other bit is set (Table 2-11). -/
def errorRegister (s : State) : Nat :=
  let m := s.modes.active.foldl (fun m f => m ||| (if (faultRow f.1).2.2 < 8 then 2 ^ (faultRow f.1).2.2 else 0)) 0
  if m = 0 then 0 else m ||| 1

/-- The port is bus-silent (R27, R50). -/
def canSilent (s : State) : Bool := s.can.nodeSource == 2 || s.obj O.canChannelEnable == 0

/-- The port takes part in bus traffic. -/
def canTalks (s : State) : Bool :=
  s.can.up && !canSilent s && !s.can.busOff && !s.can.rejoining && !bit s.modes.refLost 6

/-- Frames switch the bit rate: the data bit rate differs from the arbitration bit rate (R26). -/
def brsNow (s : State) : Bool := s.obj O.dataBitRate != s.obj O.arbitrationBitRate

/-- Send a frame under a COB-ID's CAN-ID if the port takes part in bus traffic: 29 bits of it with bit 29 set, else 11 bits (Table 2-11).
DESIGN CHOICE: with bit 29 clear, bits 28 to 11 of the COB-ID reach no frame. -/
def canSend (cob : Nat) (data : Bytes) (s : State) : State :=
  if canTalks s then emit (.can (if bit cob 29 then bits cob 28 0 else bits cob 10 0) (bit cob 29) (brsNow s) data) s else s

/-- The 16 bytes of an EMCY message (Table 2-4). -/
def emcyBytes (code : Nat) (raised : Bool) (detail : Nat) (s : State) : Bytes :=
  leBytes 2 (if raised then (faultRow code).2.1 else 0) ++ leBytes 1 (errorRegister s) ++ leBytes 1 s.modes.mode ++
  leBytes 2 code ++ leBytes 2 detail ++ leBytes 8 (timebase s)

/-- Send a fault's EMCY message now, and note when (R32, R402); in Stopped only heartbeats leave the port (R29). -/
def emcyNow (code : Nat) (b : Bytes) (s : State) : State :=
  let id := s.obj O.cobIdEmcy
  let s := { s with modes := { s.modes with emcyAt := SMap.set 0 s.modes.emcyAt code (s.clock.wall + 1) } }
  if bit id 31 || s.can.nmt == 0x04 then s else canSend id b s

/-- Send a fault's message when R402 lets it go: at the end of the 100 ms spacing when inside it, else at once; a waiting report that a newer
one replaces is dropped and counted. -/
def emcySpaced (code : Nat) (b : Bytes) (s : State) : State :=
  let last := SMap.get 0 s.modes.emcyAt code
  if last ≠ 0 ∧ s.clock.wall + 1 < last + 100000000 then
    let s := if s.modes.emcyWait.any fun w => w.1 == code then s.bump O.emcySuppressed else s
    { s with modes := { s.modes with emcyWait := (s.modes.emcyWait.filter fun w => w.1 != code) ++ [(code, b)] } }
  else emcyNow code b s

/-- Report a raise or clear by EMCY with the error register, mode and time of the event (R32): after the boot-up message while the channels are
not served, else as R402 spaces it. -/
def emcy (code : Nat) (raised : Bool) (detail : Nat) (s : State) : State :=
  let b := emcyBytes code raised detail s
  if code = 0x0160 then s
  else if !s.modes.ready then { s with modes := { s.modes with early := s.modes.early ++ [(code, b)] } }
  else emcySpaced code b s

/-- The fault is active. -/
def faultActive (code : Nat) (s : State) : Bool := (SMap.find? s.modes.active code).isSome

/-- Raise a fault with its detail; raised again while active it only updates its detail (R402). -/
def raiseFault (code detail : Nat) (s : State) : State :=
  let again := faultActive code s
  let s := { s with modes := { s.modes with active := SMap.insert s.modes.active code (detail % 65536) } }
  if again then s
  else
    let s := s.bump O.faultsRaised
    let s := s.put O.lastFaultCode code
    let s := s.put O.lastFaultDetail (detail % 65536)
    let s := s.put O.lastFaultTime (timebase s)
    vector 17 (emcy code true (detail % 65536) s)

/-- Clear a fault, reported as its raise was (R402). -/
def clearFault (code : Nat) (s : State) : State :=
  match SMap.find? s.modes.active code with
  | none => s
  | some d =>
    let s := { s with modes := { s.modes with active := SMap.erase s.modes.active code } }
    let s := s.put O.lastFaultCode code
    let s := s.put O.lastFaultDetail d
    let s := s.put O.lastFaultTime (timebase s)
    vector 17 (emcy code false d s)

/-- A unit's bit in QuarantineMask is set, with the mode and the fault that follow (R400). -/
def quarantineMark (u : Nat) (s : State) : State :=
  if bit s.modes.quarantine u then s
  else raiseFault 0x0130 u (settleMode 0x0130 { s with modes := { s.modes with quarantine := s.modes.quarantine ||| 2 ^ u } })

/-- Set or clear causes of LockedCause, with the fault LOCKED and the mode they bring (R393). -/
def setLocked (mask : Nat) (s : State) : State :=
  let s := { s with modes := { s.modes with locked := mask } }
  if mask = 0 then settleMode 0 (clearFault 0x0150 s)
  else raiseFault 0x0150 mask (settleMode 0x0150 s)

end Sys2Proof.Machine
end

