-- ==== Sys2Proof/Machine/Programs.lean ====
section
/-! DEFINITION. The fields of a Key Token's header, of a program descriptor and of a TCAM table definition, and the tables that searches mark
(Tables 4-9, 5-2 to 5-7, 6-5, R153, R174, R189). -/

namespace Sys2Proof.Machine

/-! ### The Key Token header (Table 4-9) -/

/-- Class: 1 A, 2 B, 3 C. -/
def ktClass (h : Nat) : Nat := bits h 119 118

/-- PreColour. -/
def ktPreColour (h : Nat) : Nat := bits h 117 116

/-- ProgramId. -/
def ktProgram (h : Nat) : Nat := bits h 115 106

/-- Tag. -/
def ktTag (h : Nat) : Nat := bits h 105 90

/-- BusType. -/
def ktBus (h : Nat) : Nat := bits h 89 86

/-- IngressChannel. -/
def ktChannel (h : Nat) : Nat := bits h 85 74

/-- FrameLength. -/
def ktFrame (h : Nat) : Nat := bits h 73 58

/-- PayloadLength. -/
def ktPayload (h : Nat) : Nat := bits h 57 45

/-- SnapshotLength. -/
def ktSnapshot (h : Nat) : Nat := bits h 44 37

/-- UserMeta. -/
def ktUser (h : Nat) : Nat := bits h 36 21

/-! ### Program descriptors (Tables 5-2 to 5-7) -/

/-- Program `p` among live values, 128 bytes. -/
def programIn (live : SMap Nat) (p : Nat) : Bytes := leBytes 128 (SMap.get 0 live (O.program p))

/-- Valid. -/
def pgValid (p : Bytes) : Bool := bit (le p 0 2) 15

/-- The class mask holds class `c` (1 A, 2 B, 3 C). -/
def pgClass (p : Bytes) (c : Nat) : Bool := bit (le p 0 2) (14 - c)

/-- StepCount. -/
def pgSteps (p : Bytes) : Nat := bits (le p 0 2) 10 8

/-- ExtractorCount. -/
def pgExtractors (p : Bytes) : Nat := bits (le p 0 2) 7 4

/-- FallbackAction. -/
def pgFallback (p : Bytes) : Nat := bits (u8 p 2) 7 5

/-- DefaultPriority. -/
def pgPriority (p : Bytes) : Nat := bits (u8 p 2) 4 2

/-- FloodDomain. -/
def pgFlood (p : Bytes) : Nat := le p 4 2

/-- FallbackDestSet. -/
def pgFallbackDest (p : Bytes) : Nat := le p 6 2

/-- Extractor `i`. -/
def pgExtractor (p : Bytes) (i : Nat) : Nat := le p (16 + 4 * i) 4

/-- Step `i`, from 0. -/
def pgStep (p : Bytes) (i : Nat) : Nat := le p (48 + 12 * i) 12

/-- Kind of a step. -/
def stKind (t : Nat) : Nat := bits t 95 93

/-- Quarter. -/
def stQuarter (t : Nat) : Nat := bits t 92 91

/-- Wide. -/
def stWide (t : Nat) : Bool := bit t 90

/-- TableId. -/
def stTable (t : Nat) : Nat := bits t 89 74

/-- ExtractorMask. -/
def stMask (t : Nat) : Nat := bits t 73 66

/-- ChainIn. -/
def stChainIn (t : Nat) : Bool := bit t 65

/-- HitFinal. -/
def stFinal (t : Nat) : Bool := bit t 64

/-- MissAction. -/
def stMiss (t : Nat) : Nat := bits t 63 61

/-- Learn. -/
def stLearn (t : Nat) : Bool := bit t 60

/-- MissRecord. -/
def stRecord (t : Nat) : Nat := bits t 59 42

/-- Width of an extractor. -/
def exWidth (e : Nat) : Nat := bits e 17 11 + 1

/-- Widths of the metadata fields (Table 5-4). -/
def metaWidths : List Nat := [12, 4, 16, 16, 13, 3, 2, 2, 16, 16, 2]

/-- An extractor keeps Table 5-3, reserved bits apart. -/
def extractorOk (e : Nat) : Bool :=
  if bit e 31 then
    bits e 30 28 == 0 && bits e 27 18 == 0 && decide (bits e 10 7 ≤ 10) && decide (exWidth e ≤ metaWidths.getD (bits e 10 7) 0)
  else decide (bits e 30 28 ≤ 4) && bits e 10 7 == 0

/-- A TCAM kind. -/
def kindTcam (k : Nat) : Bool := k == 1 || k == 2

/-- Key width limit of a step (Table 5-7). -/
def keyLimit (t : Nat) : Nat :=
  match stKind t with
  | 1 | 2 => if stWide t then 376 else 184
  | 3 => 64
  | 4 => 128
  | _ => 320

/-- Width of a step's key (R118). -/
def keyWidth (p : Bytes) (t : Nat) : Nat :=
  ((bitList 8 (stMask t)).map fun i => exWidth (pgExtractor p i)).sum + (if stChainIn t then 18 else 0)

/-- The steps in use. -/
def usedSteps (p : Bytes) : List Nat := (List.range (min (pgSteps p) 6)).map (pgStep p)

/-! ### Table definitions (Table 6-5) -/

/-- The definition of table slot `i` (0 to 31) of quarter `q`. -/
def tcamDef (live : SMap Nat) (q i : Nat) : Nat := SMap.get 0 live (O.tableDefinition q (i))

/-- Defined. -/
def tdDefined (d : Nat) : Bool := bit d 63

/-- Ordering: priority-ordered. -/
def tdPriority (d : Nat) : Bool := bit d 62

/-- Wide. -/
def tdWide (d : Nat) : Bool := bit d 61

/-- ChainWide. -/
def tdChain (d : Nat) : Bool := bit d 60

/-- Wake. -/
def tdWake (d : Nat) : Bool := bit d 59

/-- TableId. -/
def tdId (d : Nat) : Nat := bits d 47 40

/-- Capacity. -/
def tdCap (d : Nat) : Nat := bits d 15 0

/-- Slots that an entry takes. -/
def tdStride (d : Nat) : Nat := if tdWide d then 2 else 1

/-- Slots of a table's region. -/
def tdSlots (d : Nat) : Nat := tdCap d * tdStride d

/-- A definition's fields keep Table 6-5; reserved bits are ignored (R3). -/
def tcamDefOk (d : Nat) : Bool :=
  if !tdDefined d then bits d 62 59 == 0 && bits d 47 40 == 0 && tdCap d == 0
  else decide (1 ≤ tdCap d) && decide (tdCap d ≤ (if tdWide d then 4096 else 8192))

/-- The table slot of quarter `q` that holds TableId `t`. -/
def tcamTable (live : SMap Nat) (q t : Nat) : Option Nat :=
  (List.range 32).find? fun i => tdDefined (tcamDef live q i) && tdId (tcamDef live q i) == t

/-- A quarter is assigned to the Flume (R128). -/
def flumeQuarter (live : SMap Nat) (q : Nat) : Bool := q == 0 || (q == 1 && SMap.get 0 live O.flumeQ1 != 0)

/-! ### Marks (R153, R174, R189) -/

/-- The program of a slot. -/
def slotProgram (x : Slot) : Bytes := programIn x.config (ktProgram x.header)

/-- Class of a slot's search. -/
def slotClass (x : Slot) : Nat := ktClass x.header

/-- The RegionId of the table that a step names (Table 17-6). -/
def stepRegion (live : SMap Nat) (t : Nat) : Option Nat :=
  match stKind t with
  | 1 | 2 => (tcamTable live (stQuarter t) (stTable t)).map fun i => 0x1000 + 32 * stQuarter t + i
  | 3 => some (0x2000 + stTable t)
  | _ => some (0x3000 + stTable t)

/-- The tables that a search marks while it stands between two steps or at a chain-wide one: those of a lookup made or under way whose second
lookup has not completed (R153, R174, R189). -/
def slotMarks (x : Slot) : List Nat :=
  if x.phase ≠ .chainWait ∧ x.phase ≠ .assigned ∧ x.phase ≠ .stepWait then []
  else
    let ts := (usedSteps (slotProgram x)).map (stepRegion x.config)
    (List.range (if x.phase = .chainWait then x.step + 1 else x.step)).filterMap fun i =>
      (ts.getD i none).bind fun r => if (ts.drop (max (i + 1) x.step)).contains (some r) then some r else none

/-- A search marks a table: effect writes and publishing writes to it wait. -/
def tableMarked (s : State) (region : Nat) : Bool := s.headgate.slots.any fun x => (slotMarks x).contains region

/-! ### Regions reserved for a forwarded load (R371) -/

/-- The regions of a space, as (base, length), that loads forwarded by the peer have reserved: 0 to 3 a quarter of the ternary array, 4 the on-chip
bucket store, 5 the extended store. -/
def heldSpace (s : State) (space : Nat) : List (Nat × Nat) :=
  s.pair.held.filterMap fun p => p.region.bind fun r => if r.1 = space then some r.2 else none

end Sys2Proof.Machine
end

