-- ==== Sys2Proof/Machine/Furrow.lean ====
section
/-! DEFINITION. Furrow prefix trie: stride plans, the pushed form and its words, lookup, the trie commands, bulk load and dump
(R162–R182). -/

namespace Sys2Proof.Machine

/-! ### Definitions (Tables 7-2, 7-3) -/

/-- The definition of Furrow table `t`. -/
def trieDef (live : SMap Nat) (t : Nat) : Nat := SMap.get 0 live (O.trieDefinition t)

/-- Defined. -/
def trieDefined (d : Nat) : Bool := bit d 31

/-- Plan. -/
def triePlan (d : Nat) : Nat := bits d 27 24

/-- Quota in words; 0 for none. -/
def trieQuota (d : Nat) : Nat := 64 * bits d 15 0

/-- Strides by level of a plan (Table 7-3). -/
def strides (plan : Nat) : List Nat :=
  match plan with
  | 1 => [16, 8, 8]
  | 2 => [16, 8, 8, 8, 8, 8, 8]
  | 3 => [16, 8, 8, 8, 8]
  | 4 => [8, 8]
  | 5 => [8, 8, 8, 8, 8, 8, 8, 8]
  | 6 => [4, 4, 4, 4, 8, 8, 8, 8, 8, 8]
  | _ => []

/-- KeyBits of a plan. -/
def planBits (plan : Nat) : Nat := (strides plan).sum

/-- Chunks of a node of stride `s` (R166). -/
def chunksOf (s : Nat) : Nat := max 1 (2 ^ s / 64)

/-- A definition's fields keep Table 7-2; reserved bits are ignored (R3). -/
def trieDefOk (d : Nat) : Bool :=
  if !trieDefined d then triePlan d == 0 && trieQuota d == 0 else decide (1 ≤ triePlan d) && decide (triePlan d ≤ 6)

/-! ### Prefixes and the pushed form (R166–R168) -/

/-- A prefix: its 64-bit value, length and record. -/
structure TriePrefix where
  value : Nat
  length : Nat
  record : Nat
  deriving DecidableEq, Repr

/-- The key of a prefix in the prefix list. -/
def prefixKey (t value length : Nat) : Nat := (t * 2 ^ 64 + value) * 128 + length

/-- A table's prefixes, in ascending (Prefix, Length). -/
def triePrefixes (m : SMap Nat) (t : Nat) : List TriePrefix :=
  (m.filter fun e => e.1 / 2 ^ 71 == t).map fun e => ⟨e.1 / 128 % 2 ^ 64, e.1 % 128, e.2⟩

/-- A prefix covers every key that begins with the `n` bits `v`. -/
def covers (p : TriePrefix) (n v : Nat) : Bool := decide (p.length ≤ n) && v / 2 ^ (n - p.length) == p.value / 2 ^ (64 - p.length)

/-- A prefix starts inside the slot of the `n` bits `v`. -/
def startsIn (p : TriePrefix) (n v : Nat) : Bool := decide (n < p.length) && p.value / 2 ^ (64 - n) == v

/-- The longest of the prefixes that cover the `n` bits `v`. -/
def longest (ps : List TriePrefix) (n v : Nat) : Option TriePrefix :=
  (ps.filter fun p => covers p n v).foldl (fun b p => match b with
    | some q => if q.length < p.length then some p else some q
    | none => some p) none

/-- What a slot's entry word says (Table 7-5). -/
inductive TrieEntry where
  | empty
  | leaf (length record : Nat)
  | child
  deriving DecidableEq, Repr

/-- The entry of the slot whose key begins with the `n` bits `v`. -/
def slotEntry (ps : List TriePrefix) (n v : Nat) : TrieEntry :=
  if ps.any fun p => startsIn p n v then .child
  else match longest ps n v with
    | some p => .leaf p.length p.record
    | none => .empty

/-- The slots of a node where a run may begin: chunk starts, and both ends of each prefix's and child's slots. -/
def runStarts (ps : List TriePrefix) (pos s path : Nat) : SMap Unit :=
  let starts : SMap Unit := (List.range (chunksOf s)).map fun c => (64 * c, ())
  ps.foldl (fun m p =>
    if p.length ≤ pos ∨ p.value / 2 ^ (64 - pos) ≠ path then m
    else
      let j := p.value / 2 ^ (64 - pos - s) % 2 ^ s
      let e := j + 2 ^ (pos + s - p.length)
      let m := SMap.insert m j ()
      if e < 2 ^ s then SMap.insert m e () else m) starts

/-- A prefix has to do with the node at `path`, `pos` bits deep: it covers the path, or begins with it. -/
def concerns (pos path : Nat) (p : TriePrefix) : Bool :=
  if p.length ≤ pos then covers p pos path else p.value / 2 ^ (64 - pos) == path

/-- The runs of a node at `path`, `pos` bits deep, as (first slot, entry). DESIGN CHOICE: neighbouring slots with equal entry words share a run,
also where different prefixes gave them; the manual only bounds the runs (R176). -/
def nodeRuns (all : List TriePrefix) (pos s path : Nat) : List (Nat × TrieEntry) :=
  let ps := all.filter (concerns pos path)
  let entry := fun j => slotEntry ps (pos + s) (path * 2 ^ s + j)
  (runStarts ps pos s path).filterMap fun x =>
    let e := entry x.1
    if x.1 % 64 = 0 ∨ e = .child ∨ entry (x.1 - 1) = .child ∨ entry (x.1 - 1) ≠ e then some (x.1, e) else none

/-- The paths of the nodes `pos` bits deep: those that a longer prefix runs through. -/
def nodePaths (ps : List TriePrefix) (pos : Nat) : List Nat :=
  ((ps.filter fun p => decide (pos < p.length)).map fun p => p.value / 2 ^ (64 - pos)).eraseDups

/-- The levels of a plan as (bits above the level, stride). -/
def levelsOf : Nat → List Nat → List (Nat × Nat)
  | _, [] => []
  | pos, s :: ss => (pos, s) :: levelsOf (pos + s) ss

/-- Every node of a table's trie as (depth, stride, path). -/
def trieNodes (plan : Nat) (ps : List TriePrefix) : List (Nat × Nat × Nat) :=
  (levelsOf 0 (strides plan)).flatMap fun l => (nodePaths ps l.1).map fun path => (l.1, l.2, path)

/-- Words of a node: two per chunk and one per run. -/
def nodeWords (ps : List TriePrefix) (n : Nat × Nat × Nat) : Nat := 2 * chunksOf n.2.1 + (nodeRuns ps n.1 n.2.1 n.2.2).length

/-- Words that a table uses (TableWords). -/
def trieWords (plan : Nat) (ps : List TriePrefix) : Nat := ((trieNodes plan ps).map (nodeWords ps)).sum

/-! ### What a change writes (R172, Table 7-9) -/

/-- Chunk `c` of a node: its runs. -/
def chunkRuns (ps : List TriePrefix) (n : Nat × Nat × Nat) (c : Nat) : List (Nat × TrieEntry) :=
  (nodeRuns ps n.1 n.2.1 n.2.2).filter fun r => r.1 / 64 == c

/-- Node `m` hangs directly under node `n`. -/
def childOf (n m : Nat × Nat × Nat) : Bool := m.1 == n.1 + n.2.1 && m.2.2 / 2 ^ n.2.1 == n.2.2

/-- The chunk of node `n` that holds the entry of its child `m`. -/
def childChunk (n m : Nat × Nat × Nat) : Nat := m.2.2 % 2 ^ n.2.1 / 64

/-- The nodes of a level whose words a change from `old` to `new` touches, or that have such a node below them, deepest levels last. -/
def dirtyNodes (old new : List TriePrefix) : List (Nat × Nat) → List (Nat × Nat × Nat)
  | [] => []
  | l :: ls =>
    let below := dirtyNodes old new ls
    let dirty (n : Nat × Nat × Nat) : Bool :=
      !(nodePaths old l.1).contains n.2.2 || nodeRuns old l.1 l.2 n.2.2 != nodeRuns new l.1 l.2 n.2.2 || below.any (childOf n)
    ((nodePaths new l.1).map fun path => (l.1, l.2, path)).filter dirty ++ below

/-- The chunks of a node that a change touches, in themselves or below them. -/
def dirtyChunks (old new : List TriePrefix) (dirty : List (Nat × Nat × Nat)) (n : Nat × Nat × Nat) : List Nat :=
  (List.range (chunksOf n.2.1)).filter fun c =>
    chunkRuns old n c != chunkRuns new n c || dirty.any fun m => childOf n m && childChunk n m == c

/-- The publishing write of a change: the root entry, the entry word of one CHILD, or one chunk. -/
inductive PublishWrite where
  | root
  | entry (child : Nat × Nat × Nat)
  | chunk (node : Nat × Nat × Nat) (c : Nat)
  deriving DecidableEq, Repr

/-- Where a change below the node `n`, which stays in place, is published; `above` is the write that would publish a new copy of `n`. -/
def publishAt (old new : List TriePrefix) (dirty : List (Nat × Nat × Nat)) : Nat → PublishWrite → Nat × Nat × Nat → PublishWrite
  | 0, above, _ => above
  | fuel + 1, above, n =>
    match dirtyChunks old new dirty n with
    | [c] =>
      if chunkRuns old n c != chunkRuns new n c then .chunk n c
      else match dirty.filter (childOf n) with
        | [m] => publishAt old new dirty fuel (.entry m) m
        | _ => .chunk n c
    | _ => above

/-- The publishing write of a change of a table's prefixes. -/
def publishingWrite (plan : Nat) (old new : List TriePrefix) : PublishWrite :=
  let root : Nat × Nat × Nat := (0, (strides plan).headD 0, 0)
  if (nodePaths old 0).isEmpty || (nodePaths new 0).isEmpty then .root
  else publishAt old new (dirtyNodes old new (levelsOf 0 (strides plan))) 10 .root root

/-- The nodes that a change builds whole in free memory: those below its publishing write that it touches. -/
def copiedNodes (plan : Nat) (old new : List TriePrefix) (w : PublishWrite) : List (Nat × Nat × Nat) :=
  let dirty := dirtyNodes old new (levelsOf 0 (strides plan))
  match w with
  | .root => dirty
  | .entry m => dirty.filter fun n => decide (m.1 ≤ n.1)
  | .chunk m _ => dirty.filter fun n => decide (m.1 < n.1)

/-- The entries that a chunk write points its chunk to, which are written in free memory too. -/
def entryBlock (ps : List TriePrefix) (w : PublishWrite) : Nat :=
  match w with
  | .chunk n c => (chunkRuns ps n c).length
  | _ => 0

/-- Words that a change writes in free memory before its publishing write. -/
def copyWords (plan : Nat) (old new : List TriePrefix) : Nat :=
  let w := publishingWrite plan old new
  ((copiedNodes plan old new w).map (nodeWords new)).sum + entryBlock new w

/-! ### Stage memories (R162, R166–R168, Table 7-1)

The Marionettes place the nodes. Which stage a node takes, of those that R168 leaves it, and which free addresses, the manual leaves open: free
values choose among the legal stages with room, and among the free addresses of a stage. A node that is copied keeps its stage while that has room.
DESIGN CHOICE. -/

/-- The words of a stage. -/
def stageSize (st : Nat) : Nat := if st < 4 then 65536 else 32768

/-- The index in Furrow of a stage's first word. -/
def stageBase (st : Nat) : Nat := if st < 4 then 65536 * st else 262144 + 32768 * (st - 4)

/-- The key of a table's node among the places. -/
def nodeKey (t : Nat) (n : Nat × Nat × Nat) : Nat := (t * 128 + n.1) * 2 ^ 64 + n.2.2

/-- The place of a table's node. -/
def placeOf (s : State) (t : Nat) (n : Nat × Nat × Nat) : Option TriePlace := SMap.find? s.furrow.places (nodeKey t n)

/-- Change Furrow. -/
def onFurrow (f : Furrow → Furrow) (s : State) : State := { s with furrow := f s.furrow }

/-- An index of Furrow lies in a stage. -/
def inStage (st w : Nat) : Bool := decide (stageBase st ≤ w ∧ w < stageBase st + stageSize st)

/-- Words in use in a stage: those of the nodes placed there, and superseded ones. -/
def stageWords (s : State) (st : Nat) : Nat := ((s.furrow.used.filter fun b => inStage st b.1).map (·.2)).sum

/-- The blocks of a stage that no new block may touch, as (first word, words): those in use or superseded, and words withheld from use (R304). -/
def takenBlocks (s : State) (st : Nat) : SMap Nat :=
  let held := (s.integ.retired.filter fun e => e.1 == 8).map (·.2)
  (held.foldl (fun m w => if (SMap.find? m w).isSome then m else SMap.insert m w 1) s.furrow.used).filter fun b => inStage st b.1

/-- The gaps between blocks from `pos` up to `hi`, as (first word, words). -/
def gapsOf (hi : Nat) : Nat → List (Nat × Nat) → List (Nat × Nat)
  | pos, [] => if pos < hi then [(pos, hi - pos)] else []
  | pos, b :: bs => (if pos < b.1 then [(pos, b.1 - pos)] else []) ++ gapsOf hi (max pos (b.1 + b.2)) bs

/-- The `k`-th word at which a block of `n` words fits into the gaps. -/
def fitAt (n : Nat) : Nat → List (Nat × Nat) → Option Nat
  | _, [] => none
  | k, g :: gs => if k < g.2 + 1 - n then some (g.1 + k) else fitAt n (k - (g.2 + 1 - n)) gs

/-- Take a block of `n` consecutive free words of a stage, at a free choice of those where it fits; none where it fits nowhere. -/
def takeBlock (st n : Nat) (s : State) : Option (Nat × State) :=
  let gs := gapsOf (stageBase st + stageSize st) (stageBase st) (takenBlocks s st)
  let (f, s) := drawFresh s
  (fitAt n ((Config.freeValue f).toNat % (gs.map fun g => g.2 + 1 - n).sum) gs).map fun a =>
    (a, onFurrow (fun x => { x with used := SMap.insert x.used a n }) s)

/-- Take a block for each of a list of lengths. -/
def takeBlocks (st : Nat) : List Nat → State → Option (List Nat × State)
  | [], s => some ([], s)
  | n :: ns, s => (takeBlock st n s).bind fun a => (takeBlocks st ns a.2).map fun r => (a.1 :: r.1, r.2)

/-- The stages that a node at level `i` (from 0) of a plan may take under a parent's stage (R168); roots of stride 16 lie in stages 0 to 3. -/
def legalStages (plan i : Nat) (parent : Option Nat) : List Nat :=
  let levels := (strides plan).length
  let top := 12 - (levels - i)
  let top := if i = 0 ∧ (strides plan).headD 0 = 16 then min top 3 else top
  (List.range 12).filter fun st => decide (st ≤ top) && (match parent with
    | some p => decide (p < st)
    | none => true)

/-- The first blocks of a place: its chunks and each chunk's entries, by index in Furrow. -/
def blocksOf (p : TriePlace) : List Nat := (stageBase p.stage + p.addr) :: p.bases.map (stageBase p.stage + ·)

/-- The runs in each chunk of a node. -/
def chunkCounts (ps : List TriePrefix) (n : Nat × Nat × Nat) : List Nat :=
  let rs := nodeRuns ps n.1 n.2.1 n.2.2
  (List.range (chunksOf n.2.1)).map fun c => (rs.filter fun r => r.1 / 64 == c).length

/-- Build a node in a stage: its chunks in one block, and each chunk's entries in one. -/
def placeIn (t : Nat) (counts : List Nat) (n : Nat × Nat × Nat) (s : State) (st : Nat) : Option State :=
  (takeBlock st (2 * chunksOf n.2.1) s).bind fun a => (takeBlocks st counts a.2).map fun r =>
    let place : TriePlace := ⟨st, a.1 - stageBase st, r.1.map (· - stageBase st)⟩
    onFurrow (fun x => { x with places := SMap.insert x.places (nodeKey t n) place }) r.2

/-- The levels of a table's plan as (depth, stride). -/
def tableLevels (s : State) (t : Nat) : List (Nat × Nat) := levelsOf 0 (strides (triePlan (trieDef s.dict.live t)))

/-- The place of a node's parent. -/
def parentPlace (s : State) (t : Nat) (n : Nat × Nat × Nat) : Option TriePlace :=
  ((tableLevels s t).find? fun l => l.1 + l.2 == n.1).bind fun l => placeOf s t (l.1, l.2, n.2.2 / 2 ^ l.2)

/-- The stages, in the order in which they are tried, that a node may take with its parent and its children where they are. -/
def stagesFor (t words : Nat) (n : Nat × Nat × Nat) (s : State) : List Nat :=
  let plan := triePlan (trieDef s.dict.live t)
  let i := ((tableLevels s t).map (·.1)).idxOf n.1
  let below := (trieNodes plan (triePrefixes s.furrow.prefixes t)).filterMap fun m => if childOf n m then placeOf s t m else none
  let ok := (legalStages plan i ((parentPlace s t n).map (·.stage))).filter fun st =>
    (below.all fun p => decide (st < p.stage)) && decide (stageWords s st + words ≤ stageSize st)
  let k := (Config.freeValue s.fresh).toNat % ok.length
  let order := ok.drop k ++ ok.take k
  match placeOf s t n with
  | some p => if ok.contains p.stage then p.stage :: order.filter (· != p.stage) else order
  | none => order

/-- Place a node that is built in free memory; none where no stage has room for it. -/
def placeNode (t : Nat) (n : Nat × Nat × Nat) (s : State) : Option State :=
  let ps := triePrefixes s.furrow.prefixes t
  let order := stagesFor t (nodeWords ps n) n s
  order.findSome? (placeIn t (chunkCounts ps n) n { s with fresh := s.fresh + 1 })

/-- Place nodes, parents first. -/
def placeNodes (t : Nat) : List (Nat × Nat × Nat) → State → Option State
  | [], s => some s
  | n :: ns, s => (placeNode t n s).bind (placeNodes t ns)

/-- The entry word of Table 7-5. -/
def entryWord (e : TrieEntry) (child : Option TriePlace) : Nat :=
  match e with
  | .empty => 0
  | .leaf len rec_ => 2 ^ 62 + len * 2 ^ 55 + rec_ % 2 ^ 18
  | .child => match child with
    | some p => 2 * 2 ^ 62 + p.stage * 2 ^ 58 + p.addr
    | none => 2 * 2 ^ 62

/-- The root entry of a table by its prefixes and its root node's place (R167). -/
def rootEntry (s : State) (t : Nat) : Nat :=
  let ps := triePrefixes s.furrow.prefixes t
  entryWord (slotEntry ps 0 0) (placeOf s t (0, (strides (triePlan (trieDef s.dict.live t))).headD 0, 0))

/-- The register of a table's root entry takes its new value. -/
def setRoot (t : Nat) (s : State) : State := onFurrow (fun x => { x with roots := SMap.set 0 x.roots t (rootEntry s t) }) s

/-- The words of chunk `c` of a placed node, by their index in Furrow (Table 7-4). -/
def chunkImage (s : State) (t : Nat) (n : Nat × Nat × Nat) (p : TriePlace) (c : Nat) : List (Nat × Nat) :=
  let runs := chunkRuns (triePrefixes s.furrow.prefixes t) n c
  let s2 := (((tableLevels s t).find? fun l => l.1 == n.1 + n.2.1).map (·.2)).getD 0
  let lo := stageBase p.stage
  let base := p.bases.getD c 0
  let word (r : Nat × TrieEntry) : Nat := entryWord r.2 (placeOf s t (n.1 + n.2.1, s2, n.2.2 * 2 ^ n.2.1 + r.1))
  (lo + p.addr + 2 * c, (runs.map fun r => 2 ^ (r.1 % 64)).sum) :: (lo + p.addr + 2 * c + 1, base) :: runs.mapIdx fun i r => (lo + base + i, word r)

/-- The words of a placed node. -/
def nodeImage (s : State) (t : Nat) (n : Nat × Nat × Nat) (p : TriePlace) : List (Nat × Nat) :=
  (List.range (chunksOf n.2.1)).flatMap (chunkImage s t n p)

/-- The nodes of a table with their places. -/
def placedNodes (s : State) (t : Nat) : List ((Nat × Nat × Nat) × TriePlace) :=
  (trieNodes (triePlan (trieDef s.dict.live t)) (triePrefixes s.furrow.prefixes t)).filterMap fun n => (placeOf s t n).map fun p => (n, p)

/-- Write words of Furrow: an uncorrectable error in one is gone. -/
def writeWords (ws : List (Nat × Nat)) (s : State) : State :=
  ws.foldl (fun s w => onFurrow (fun x => { x with words := SMap.set 0 x.words w.1 w.2, bad := SMap.erase x.bad w.1 }) s) s

/-- What word `w` of Furrow holds: 0 where nothing has written it (R293). -/
def furrowWord (s : State) (w : Nat) : Nat := SMap.get 0 s.furrow.words w

/-- The words of a table that a change writes: those of the nodes built anew, of the chunk that a chunk write names, and the entry word that points to
a child's new place. -/
def changedWords (t : Nat) (built : List (Nat × Nat × Nat)) (w : PublishWrite) (s : State) : List (Nat × Nat) :=
  (placedNodes s t).flatMap fun x =>
    if built.contains x.1 then nodeImage s t x.1 x.2
    else (List.range (chunksOf x.1.2.1)).flatMap fun c =>
      if w = .chunk x.1 c then chunkImage s t x.1 x.2 c else (chunkImage s t x.1 x.2 c).filter fun e => furrowWord s e.1 != e.2

/-! ### Words in use -/

/-- The words of table `t`. -/
def tableWords (s : State) (t : Nat) : Nat := trieWords (triePlan (trieDef s.dict.live t)) (triePrefixes s.furrow.prefixes t)

/-- Nodes of table `t`. -/
def tableNodes (s : State) (t : Nat) : Nat := (trieNodes (triePlan (trieDef s.dict.live t)) (triePrefixes s.furrow.prefixes t)).length

/-- WordsInUse: the tables' words and the superseded words not yet freed. -/
def wordsInUse (s : State) : Nat := (s.furrow.used.map (·.2)).sum

/-- Furrow's words (Table 7-1). -/
def trieCapacity : Nat := 524288

/-- Nodes leave the trie: what they held is superseded. -/
def dropPlaces (t : Nat) (ns : List (Nat × Nat × Nat)) (s : State) : State :=
  ns.foldl (fun s n => onFurrow (fun x => { x with places := SMap.erase x.places (nodeKey t n) }) s) s

/-- A chunk's entries move to a new block of its stage, and its old block is superseded. -/
def moveBlock (t : Nat) (w : PublishWrite) (s : State) : Option (List Nat × State) :=
  match w with
  | .chunk n c => match placeOf s t n with
    | none => some ([], s)
    | some p => (takeBlock p.stage (chunkRuns (triePrefixes s.furrow.prefixes t) n c).length s).map fun a =>
        let place := { p with bases := p.bases.set c (a.1 - stageBase p.stage) }
        ([stageBase p.stage + p.bases.getD c 0], onFurrow (fun x => { x with places := SMap.insert x.places (nodeKey t n) place }) a.2)
  | _ => some ([], s)

/-- A publishing write sends a drain marker, which frees the superseded blocks (R173). -/
def sendMarker (t : Nat) (blocks : List Nat) (s : State) : State :=
  (onFurrow (fun x => { x with draining := x.draining ++ [(t, blocks)] }) s).bump O.publishes

/-- Put a new prefix list in place with one publishing write `w`: the nodes that it copies are built in free memory, and what they and a chunk's
new entries replace waits for the drain marker (R172, R173). A load keeps no node in its stage. None where the new words find no place. -/
def publish (t : Nat) (w : PublishWrite) (load : Bool) (prefixes : SMap Nat) (s : State) : Option State :=
  let plan := triePlan (trieDef s.dict.live t)
  let old := triePrefixes s.furrow.prefixes t
  let news := trieNodes plan (triePrefixes prefixes t)
  let built := if load then news else copiedNodes plan old (triePrefixes prefixes t) w
  let gone := (trieNodes plan old).filter fun n => built.contains n || !news.contains n
  let blocks := gone.flatMap fun n => ((placeOf s t n).map blocksOf).getD []
  let s := onFurrow (fun x => { x with prefixes }) (dropPlaces t (gone.filter fun n => load || !news.contains n) s)
  (placeNodes t built s).bind fun s => (moveBlock t w s).map fun r =>
    let s := setRoot t (writeWords (changedWords t built w r.2) r.2)
    (sendMarker t (blocks ++ r.1) s).peak O.wordsPeak (wordsInUse s)

/-! ### Lookup (R169) -/

/-- The words that a lookup of a table reads, for the nodes on its path (R169). -/
def trieReads (s : State) (t plan k : Nat) : List (Nat × Nat) → List Nat
  | [] => []
  | (pos, st) :: ls =>
    let n : Nat × Nat × Nat := (pos, st, k / 2 ^ (planBits plan - pos))
    match placeOf s t n with
    | none => []
    | some p =>
      let at_ (a : Nat) : Nat := stageBase p.stage + a
      let j := k / 2 ^ (planBits plan - pos - st) % 2 ^ st
      let c := j / 64
      let rank := ((chunkRuns (triePrefixes s.furrow.prefixes t) n c).filter fun r => decide (r.1 ≤ j)).length
      at_ (p.addr + 2 * c) :: at_ (p.addr + 2 * c + 1) :: at_ (p.bases.getD c 0 + (rank - 1)) :: trieReads s t plan k ls

/-- A lookup of table `t` with a left-aligned 320-bit key reads an uncorrectable word (R169). -/
def trieWordLost (s : State) (live : SMap Nat) (t key : Nat) : Bool :=
  let plan := triePlan (trieDef live t)
  !s.furrow.bad.isEmpty &&
    (trieReads s t plan (key / 2 ^ (320 - planBits plan)) (levelsOf 0 (strides plan))).any fun w => (SMap.find? s.furrow.bad w).isSome

/-- The table and node in whose blocks word `w` of Furrow lies. -/
def nodeAt (s : State) (w : Nat) : Option (Nat × Nat × Nat × Nat) :=
  (List.range 16).findSome? fun t => ((placedNodes s t).find? fun x =>
    (blocksOf x.2).any fun b => decide (b ≤ w ∧ w < b + SMap.get 0 s.furrow.used b)).map fun x => (t, x.1)

/-- A search marks the table that holds a word: its publishing write waits (R174). -/
def wordMarked (s : State) (w : Nat) : Bool := ((nodeAt s w).map fun x => tableMarked s (0x2000 + x.1)).getD false

/-- The node whose words hold word `w` of Furrow is built again from the prefix list in new words, and published with one write (Table 13-6). Where
those find no place, its words are written again where they are. DESIGN CHOICE. -/
def rebuildWord (w : Nat) (s : State) : State :=
  match nodeAt s w with
  | none => onFurrow (fun x => { x with bad := SMap.erase x.bad w }) s
  | some (t, n) =>
    let blocks := ((placeOf s t n).map blocksOf).getD []
    match placeNode t n s with
    | some s =>
      let s := setRoot t (writeWords (changedWords t [n] .root s) s)
      (sendMarker t blocks (onFurrow (fun x => { x with bad := SMap.erase x.bad w }) s)).peak O.wordsPeak (wordsInUse s)
    | none => match placeOf s t n with
      | some p => writeWords (nodeImage s t n p) s
      | none => s

/-- A lookup of table `t` with a left-aligned 320-bit key from Lateral `n`: the record, or none for a miss. -/
def trieLookup (live : SMap Nat) (n t key : Nat) (s : State) : Option Nat × State :=
  let plan := triePlan (trieDef live t)
  let k := key / 2 ^ (320 - planBits plan)
  let s := s.bump (if n % 2 = 0 then O.lookupsPipeline0 else O.lookupsPipeline1)
  ((longest (triePrefixes s.furrow.prefixes t) (planBits plan) k).map (·.record), s)

/-! ### Commands (R170, R171, R175–R177) -/

/-- The operand checks of R170 on bytes 8–63 from `off` on, in the order of its list. DESIGN CHOICE: on TRIE_DELETE the Replace flag, which
Table 7-6 gives to TRIE_ADD only, counts as a reserved bit: set, it is refused. -/
def trieDetail (live : SMap Nat) (del : Bool) (o : Bytes) : Option Nat :=
  let t := u8 o 0
  let d := trieDef live t
  let len := u8 o 1
  let value := le o 8 8
  if 15 < t ∨ trieDefined d = false then some 0x2501
  else if planBits (triePlan d) < len ∨ value % 2 ^ (64 - len) ≠ 0 then some 0x2502
  else if !del && decide (262143 < le o 4 4) then some 0x2503
  else if bits (u8 o 2) 7 1 ≠ 0 ∨ u8 o 3 ≠ 0 ∨ (del = true ∧ (u8 o 2 ≠ 0 ∨ le o 4 4 ≠ 0)) then some 0x2112
  else none

/-- A trie command waits for the table shadow, or completes MODE where LPDDR5 failed, before its own checks (R175, R428). -/
def trieGate (s : State) : Option OpRes :=
  if s.val O.lpddrState = 4 then some (.fail 0x19 0x2B01 s)
  else if s.val O.shadowReady = 0 ∨ bit s.modes.refLost 4 = true then some .wait
  else none

/-- Apply a change of one table's prefixes, space and Quota permitting; `del` may draw on CowReserve (R176, R177). DESIGN CHOICE: where the free words
that R176 counts hold no consecutive place in a stage that R168 allows, the command completes as for want of words. -/
def trieChange (del : Bool) (t : Nat) (prefixes : SMap Nat) (s : State) : OpRes :=
  let d := trieDef s.dict.live t
  let plan := triePlan d
  let new := triePrefixes prefixes t
  let old := triePrefixes s.furrow.prefixes t
  let copies := copyWords plan old new
  let reserve := s.obj O.cowReserve
  if !del && trieQuota d != 0 && decide (trieQuota d < trieWords plan new) then .fail 0x10 0x2505 (s.bump O.fullFailures)
  else if (if del then trieCapacity else trieCapacity - reserve) < wordsInUse s + copies then .fail 0x10 0x2504 (s.bump O.fullFailures)
  else
    let draws := del && decide (trieCapacity - reserve < wordsInUse s + copies)
    match publish t (publishingWrite plan old new) false prefixes s with
    | some s => .done 0 (tableNodes s t) (if draws then s.bump O.reserveDraws else s)
    | none => .fail 0x10 0x2504 (s.bump O.fullFailures)

/-- TRIE_ADD on a descriptor. -/
def opTrieAdd (d : Bytes) (s : State) : OpRes :=
  match trieGate s with
  | some r => r
  | none =>
    let o := d.drop 8
    match trieDetail s.dict.live false o with
    | some x => .fail 0x14 x s
    | none =>
      if allZero d 24 40 = false then .fail 0x14 0x2112 s
      else
        let k := prefixKey (u8 o 0) (le o 8 8) (u8 o 1)
        match SMap.find? s.furrow.prefixes k with
        | some r =>
          if bit (u8 o 2) 0 = false then .fail 0x12 0 s
          else if r = le o 4 4 then .done 0 (tableNodes s (u8 o 0)) s
          else trieChange false (u8 o 0) (SMap.insert s.furrow.prefixes k (le o 4 4)) s
        | none => trieChange false (u8 o 0) (SMap.insert s.furrow.prefixes k (le o 4 4)) s

/-- TRIE_DELETE on a descriptor. -/
def opTrieDelete (d : Bytes) (s : State) : OpRes :=
  match trieGate s with
  | some r => r
  | none =>
    let o := d.drop 8
    match trieDetail s.dict.live true o with
    | some x => .fail 0x14 x s
    | none =>
      if allZero d 24 40 = false then .fail 0x14 0x2112 s
      else
        let k := prefixKey (u8 o 0) (le o 8 8) (u8 o 1)
        match SMap.find? s.furrow.prefixes k with
        | none => .fail 0x11 0 s
        | some _ => trieChange true (u8 o 0) (SMap.erase s.furrow.prefixes k) s

/-- BULK_LOAD of TableKind 2 (R179). -/
def loadTrie (t : Nat) (img : Bytes) (s : State) : OpRes :=
  match trieGate s with
  | some r => r
  | none =>
    let d := trieDef s.dict.live t
    if 15 < t ∨ trieDefined d = false then .fail 0x14 0x2501 s
    else
      let rs := records 16 img
      let keys := rs.map fun o => prefixKey t (le o 8 8) (u8 o 1)
      let ok := rs.all fun o => u8 o 0 == t && (trieDetail s.dict.live false o).isNone && u8 o 2 == 0
      if img.length % 16 ≠ 0 ∨ (ok && decide keys.Nodup) = false then .fail 0x14 0x2506 s
      else
        let others := s.furrow.prefixes.filter fun e => e.1 / 2 ^ 71 != t
        let prefixes := rs.foldl (fun m o => SMap.insert m (prefixKey t (le o 8 8) (u8 o 1)) (le o 4 4)) others
        let w := trieWords (triePlan d) (triePrefixes prefixes t)
        if trieCapacity - s.obj O.cowReserve < wordsInUse s + w then .fail 0x10 0x2507 (s.bump O.fullFailures)
        else if trieQuota d ≠ 0 ∧ trieQuota d < w then .fail 0x10 0x2505 (s.bump O.fullFailures)
        else match publish t .root true prefixes s with
          | some s => .done 0 rs.length s
          | none => .fail 0x10 0x2507 (s.bump O.fullFailures)

/-- TABLE_DUMP of TableKind 2: the prefix list in ascending (Prefix, Length). -/
def dumpTrie (t : Nat) (s : State) : Bytes :=
  (triePrefixes s.furrow.prefixes t).flatMap fun p =>
    beBytes 1 t ++ beBytes 1 p.length ++ zeros 2 ++ leBytes 4 p.record ++ leBytes 8 p.value

/-- DRAIN_MARKER_DONE: the oldest marker of a table has left both pipelines, and the words superseded by its publishing write return to free memory
(R173). -/
def execDrainMarkerDone (table : Nat) (s : State) : Result :=
  onUnit (table < 16) (
    match s.furrow.draining.find? fun m => m.1 == table with
    | none => s
    | some m => onFurrow (fun x => { x with draining := x.draining.erase m, used := SMap.filterKeys (fun w => !m.2.contains w) x.used }) s)

/-! ### Commit (R164) -/

/-- A commit check of chapter 7 that snapshot object `k` fails. -/
def trieCheck (n : Nat) (s : State) (new : SMap Nat) (k : Nat) : Option Nat :=
  let isDef := O.trieDefinition 0 ≤ k ∧ k ≤ O.trieDefinition 15
  let t := k - O.trieDefinition 0
  let a := trieDef s.dict.live t
  let b := trieDef new t
  if n = 1 ∧ isDef then
    if !(triePrefixes s.furrow.prefixes t).isEmpty && (!trieDefined b || triePlan a != triePlan b) then some 0x2510
    else if trieQuota b ≠ 0 ∧ trieQuota b < tableWords s t then some 0x2512
    else none
  else if n = 6 ∧ ((isDef ∧ trieQuota b ≠ 0) ∨ k = O.cowReserve) then
    let sum := ((List.range 16).map fun t => trieQuota (trieDef new t)).sum
    if trieCapacity - objIn s.can.nodeId new O.cowReserve < sum then some 0x2511 else none
  else none

end Sys2Proof.Machine
end

