-- ==== Sys2Proof/Machine/Merge.lean ====
section
/-! DEFINITION. The merge buffers of the SRAM bank controllers (R297, R298). A narrow write is applied at once to the stored bytes, as every
reader sees it; the buffer is what decides when a read-modify-write is counted. -/

namespace Sys2Proof.Machine

/-- Change the integrity block. -/
def onInteg (f : Integrity → Integrity) (s : State) : State := { s with integ := f s.integ }

/-- A word of a region is written: it is no candidate (R302). -/
def wrote (region word : Nat) (s : State) : State :=
  onInteg (fun i => { i with regions := i.regions.modify region fun r => { r with candidates := r.candidates.filter fun c => c.word != word } }) s

/-- An entry is retired by a read-modify-write, which is counted. -/
def retireMerge (e : MergeEntry) (s : State) : State :=
  (onInteg (fun i => { i with merge := i.merge.erase e }) s).bump O.mergeReadModifyWrites

/-- The entry of a bank's buffer that holds a word. -/
def mergeOf (s : State) (bank word : Nat) : Option MergeEntry := s.integ.merge.find? fun e => e.bank == bank && e.word == word

/-- A narrow write of the bytes in `mask`; true where it completes a word, which is then written whole. -/
def mergeWriteFull (bank word mask : Nat) (s : State) : Bool × State :=
  match mergeOf s bank word with
  | some e =>
    let m := e.mask ||| mask
    if m = 255 then (true, onInteg (fun i => { i with merge := i.merge.erase e }) s)
    else (false, onInteg (fun i => { i with merge := i.merge.map fun x => if x = e then { e with mask := m } else x }) s)
  | none =>
    let mine := s.integ.merge.filter fun e => e.bank == bank
    let s := match mine with
      | e :: _ => if 8 ≤ mine.length then retireMerge e s else s
      | [] => s
    (false, onInteg (fun i => { i with merge := i.merge ++ [⟨bank, word, mask⟩] }) s)

/-- A narrow write. -/
def mergeWrite (bank word mask : Nat) (s : State) : State := (mergeWriteFull bank word mask s).2

/-- A whole-word write discards the word's entry. -/
def mergeDiscard (bank word : Nat) (s : State) : State :=
  onInteg (fun i => { i with merge := i.merge.filter fun e => !(e.bank == bank && e.word == word) }) s

/-- Top or a retest is about to access a word: its entry retires first. -/
def mergeFlush (bank word : Nat) (s : State) : State :=
  match mergeOf s bank word with
  | some e => retireMerge e s
  | none => s

/-- MERGE_ENTRY_RETIRE: 64 bank operations have passed since the entry was allocated. -/
def execMergeEntryRetire (bank word : Nat) (s : State) : Result := onUnit (bank < 64) (mergeFlush bank word s)

end Sys2Proof.Machine
end

