-- ==== Sys2Proof/Machine/RingCore.lean ====
section
/-! DEFINITION. Completion records, halts and fences of the command rings (R56–R68, R425). -/

namespace Sys2Proof.Machine

/-- Ring `r`. -/
def ringAt (s : State) (r : Nat) : Ring := s.host.rings.getD r Ring.off

/-- Change ring `r`. -/
def onRing (r : Nat) (f : Ring → Ring) (s : State) : State :=
  { s with host := { s.host with rings := s.host.rings.modify r f } }

/-- A descriptor's opcode, Notify flag, Indirect flag, OperandLength and tag (Table 3-5). -/
def dsOpcode (d : Bytes) : Nat := u8 d 0

/-- Notify. -/
def dsNotify (d : Bytes) : Bool := bit (u8 d 1) 0

/-- Indirect. -/
def dsIndirect (d : Bytes) : Bool := bit (u8 d 1) 1

/-- OperandLength. -/
def dsLength (d : Bytes) : Nat := le d 2 2

/-- Tag. -/
def dsTag (d : Bytes) : Nat := le d 4 4

/-- The content digest of R64: SHA-256 over the descriptor with Notify as 0, then the operand block of an Indirect one. -/
def contentDigest (d block : Bytes) : Bytes :=
  (sha256 ((fit 64 d).set 1 (BitVec.ofNat 8 (u8 d 1 / 2 * 2)) ++ (if dsIndirect d then block else []))).take 16

/-- A completion record (Table 3-6); `k` is the descriptor's number and `log2` the ring's size. -/
def completionRecord (tag opcode status detail result k log2 : Nat) (replayed : Bool) : Bytes :=
  leBytes 4 tag ++ leBytes 1 opcode ++ leBytes 1 status ++ leBytes 2 detail ++ leBytes 4 result ++ leBytes 2 k ++
  leBytes 1 (2 * b2n replayed + (1 - k / 2 ^ log2 % 2)) ++ zeros 1

/-- A fence's counts of other rings are met: each is enabled and has its completion records. -/
def fenceMet (s : State) (targets : List (Nat × Nat)) (slots : List Nat) : Bool :=
  slots.isEmpty && targets.all fun t => (ringAt s t.1).enabled && decide (((ringAt s t.1).completion + 2 ^ 32 - t.2) % 2 ^ 32 < 2 ^ 31)

/-- A fence that named a ring which has been disabled since is never met (R68). -/
def loseTargets (r : Nat) (s : State) : State :=
  let lose (t : Nat × Nat) : Nat × Nat := if t.1 = r then (8, t.2) else t
  let ring (g : Ring) : Ring := match g.waiting with
    | some (.fence ts sl) => { g with waiting := some (.fence (ts.map lose) sl) }
    | _ => g
  { s with host := { s.host with rings := s.host.rings.map ring } }

/-- Disable a ring between commands: Enabled and Halted clear; after an endpoint reset its registers return to their reset
values, and its kept tags survive (R52, R56). -/
def disableRing (r : Nat) (reset : Bool) (s : State) : State :=
  loseTargets r (onRing r (fun g =>
    if reset then { Ring.off with tags := g.tags }
    else { g with enabled := false, halted := false, skip := false, disabling := 0, desc := [], block := [] }) s)

/-- The vector of a key or bundle event is raised, now that the Receipt and the record that it announces are visible (R55). -/
def announceKeys (s : State) : State :=
  if s.keys.event then vector 23 { s with keys := { s.keys with event := false } } else s

/-- The command in execution on ring `r` is finished: its key event is announced, and a disable that came meanwhile takes effect. -/
def ringIdle (r : Nat) (s : State) : State :=
  let s := announceKeys (onRing r (fun g => { g with waiting := none }) s)
  let d := (ringAt s r).disabling
  if d = 0 then s else disableRing r (d == 2) s

/-- The number of the descriptor that the ring executes next: every earlier one has its completion record. -/
def nextNumber (g : Ring) : Nat := g.completion

/-- Write a completion record for the next descriptor (R425): the record counts as written even where it cannot be issued. -/
def writeCompletion (r : Nat) (rec_ : Bytes) (notify ok : Bool) (s : State) : State :=
  let g := ringAt s r
  let s := if ok then emit (.hostWrite ((g.compBase + 16 * (nextNumber g % 2 ^ g.sizeLog2)) % 2 ^ 64) rec_) s else emit .aer s
  let s := onRing r (fun g => { g with completion := (g.completion + 1) % 2 ^ 32 }) s
  let s := s.bump (O.ringCompletions r)
  if notify then vector (1 + r) s else s

/-- The command of ring `r` completed: its record is written, and with status DONE or ALREADY_APPLIED it is one
of the last 256 whose tags are kept, tag 0 holding its place only (R64). -/
def completeCommand (r status result : Nat) (ok : Bool) (s : State) : State :=
  let g := ringAt s r
  let rec_ := completionRecord (dsTag g.desc) (dsOpcode g.desc) status 0 result (nextNumber g) g.sizeLog2 false
  let kept : KeptTag := if dsTag g.desc = 0 then ⟨0, [], []⟩ else ⟨dsTag g.desc, contentDigest g.desc g.block, rec_⟩
  let s := if status ≤ 1 then onRing r (fun g => { g with tags := (kept :: g.tags).take 256 }) s else s
  ringIdle r (writeCompletion r rec_ (dsNotify g.desc) ok s)

/-- The command of ring `r` failed: the ring halts with HaltTag and HaltInfo (R67). -/
def haltRing (r status detail : Nat) (s : State) : State :=
  let s := onRing r (fun g => { g with halted := true, haltTag := dsTag g.desc,
                                       haltInfo := dsOpcode g.desc * 2 ^ 24 + status * 2 ^ 16 + detail }) s
  ringIdle r (vector (9 + r) (s.bump (O.ringHalts r)))

/-- The coherent domain has failed: a fence in execution has had no effect, and is executed from its start after the restart (R70). -/
def restartFences (s : State) : State :=
  let ring (g : Ring) : Ring := match g.waiting with
    | some (.fence _ _) => { g with waiting := some (.held true true) }
    | _ => g
  { s with host := { s.host with rings := s.host.rings.map ring } }

/-- Complete the first fence that is met; a fence's record waits while the rings are paused in Fallback. -/
def settleFence (s : State) : Option State :=
  if s.val O.domainState ≠ 0 ∨ s.modes.halted = true ∨ bit s.modes.refLost 3 = true then none
  else (((List.range 8).find? fun r => match (ringAt s r).waiting with
    | some (.fence ts sl) => fenceMet s ts sl
    | _ => false).map fun r => completeCommand r 0 0 s.host.canSend s)

/-- Complete every fence that is met; one may meet another. -/
def settleFences : Nat → State → State
  | 0, s => s
  | n + 1, s => match settleFence s with
    | some s' => settleFences n s'
    | none => s

/-- Search slots have been returned: fences that waited for them see it (R68). -/
def slotsReturned (ids : List Nat) (s : State) : State :=
  let ring (g : Ring) : Ring := match g.waiting with
    | some (.fence ts sl) => { g with waiting := some (.fence ts (sl.filter fun i => !ids.contains i)) }
    | _ => g
  settleFences 8 { s with host := { s.host with rings := s.host.rings.map ring } }

end Sys2Proof.Machine
end

