-- ==== Sys2Proof/Machine/Link.lean ====
section
/-! DEFINITION. The transmitter of a Headgate link and its credits (R96, R98, R100–R103), and the return of search slots. -/

namespace Sys2Proof.Machine

/-- Link `m`. -/
def linkAt (s : State) (m : Nat) : Link := s.headgate.links.getD m Link.off

/-- Change link `m`. -/
def onLink (m : Nat) (f : Link → Link) (s : State) : State :=
  { s with headgate := { s.headgate with links := s.headgate.links.modify m f } }

/-- The link is up, on one lane or two. -/
def linkUp (l : Link) : Bool := l.state == 2 || l.state == 3

/-- The class (1 A, 2 B, 3 C) of a slot's search. -/
def classOf (x : Slot) : Nat := bits x.header 119 118

/-- The Headgate hands out no credit: in Halt, in Pair-Standby, and as a chain member (R382, R401, R370). -/
def creditsShut (s : State) : Bool := s.modes.halted || s.val O.pairState == 5 || s.power.strapChain != 0

/-- Configured token credits of a link and class. -/
def creditTokens (s : State) (m c : Nat) : Nat :=
  if creditsShut s then 0 else s.obj (if c = 1 then O.tokenCreditsA m else if c = 2 then O.tokenCreditsB m else O.tokenCreditsC m)

/-- Configured payload units of a link and class. -/
def creditUnits (s : State) (m c : Nat) : Nat :=
  if creditsShut s then 0 else s.obj (if c = 1 then O.payloadUnitsA m else if c = 2 then O.payloadUnitsB m else O.payloadUnitsC m)

/-- The slots of a link and class, of whatever epoch. -/
def slotsOf (s : State) (m c : Nat) : List Slot := s.headgate.slots.filter fun x => x.link == m && classOf x == c

/-- Slots of a class that are taken. -/
def slotsTaken (s : State) (c : Nat) : Nat := (s.headgate.slots.filter fun x => classOf x == c).length

/-- The pool of a class is empty (Table 1-6): 64 slots for class A, 192 for classes B and C, of which class C holds at most 64. -/
def poolEmpty (s : State) (c : Nat) : Bool :=
  if c = 1 then decide (64 ≤ slotsTaken s 1)
  else decide (192 ≤ slotsTaken s 2 + slotsTaken s 3) || (c == 3 && decide (64 ≤ slotsTaken s 3))

/-- The cumulative token grants of class `c`: what was accepted plus what the configured count leaves free, withheld while the pool is empty. -/
def tokenGrant (s : State) (m c : Nat) : Nat :=
  let l := linkAt s m
  let now := l.granted.getD (c - 1) 0
  if poolEmpty s c then now else max now (l.used.getD (c - 1) 0 + (creditTokens s m c - (slotsOf s m c).length))

/-- The cumulative grants of this epoch: a lowered count withholds, a raised one is granted at once (R103), and an empty pool withholds (R18). -/
def newGrants (s : State) (m : Nat) : List Nat × List Nat :=
  let l := linkAt s m
  ([1, 2, 3].map (tokenGrant s m),
   [1, 2, 3].map fun c => max (l.unitsGranted.getD (c - 1) 0)
     (l.unitsUsed.getD (c - 1) 0 + (creditUnits s m c - ((slotsOf s m c).map (·.units)).sum)))

/-- The Credit token of the present grants (Table 4-8). -/
def creditToken (l : Link) : Bytes :=
  beBytes 1 0x30 ++ zeros 1 ++ (l.granted.flatMap fun g => beBytes 1 g) ++ (l.unitsGranted.flatMap fun g => beBytes 2 g) ++ zeros 5

/-- Room in the replay buffer for a parcel of `n` body bytes (R96). -/
def replayRoom (l : Link) (n : Nat) : Bool :=
  decide (l.unacked.length < 2047) && decide ((l.unacked.map fun p => 16 + p.2.length).sum + 16 + n ≤ 32768)

/-- AckSeq: the Seq of the last data parcel received in order. -/
def ackSeq (l : Link) : Nat := (l.rxSeq + 4095) % 4096

/-- Send a Data parcel, kept until it is acknowledged. -/
def sendData (m : Nat) (body : Bytes) (s : State) : State :=
  let l := linkAt s m
  let s := emit (.parcel m 1 l.txSeq (ackSeq l) false body false) s
  onLink m (fun l => { l with txSeq := (l.txSeq + 1) % 4096, unacked := l.unacked ++ [(l.txSeq, body)] }) s

/-- Take up the present grants; true where they differ from those last sent. -/
def takeGrants (m : Nat) (s : State) : Bool × State :=
  let g := newGrants s m
  let s := onLink m (fun l => { l with granted := g.1, unitsGranted := g.2 }) s
  (decide (g.1 ++ g.2 ≠ (linkAt s m).grantSent), s)

/-- Note the grants as sent. -/
def grantsSent (m : Nat) (s : State) : State := onLink m (fun l => { l with grantSent := l.granted ++ l.unitsGranted }) s

/-- Send tokens in a parcel whose first token is a Credit token where the grants have changed or `always` (R102); nothing is sent
while the replay buffer is full. -/
def sendTokens (m : Nat) (always : Bool) (tokens : Bytes) (s : State) : State :=
  let (changed, s) := takeGrants m s
  let l := linkAt s m
  let credit := changed || always
  let body := (if credit then creditToken l else []) ++ tokens
  if !linkUp l || body.isEmpty || !replayRoom l body.length then s
  else sendData m body (if credit then grantsSent m s else s)

/-- Send the grants of every link that is up and whose grants have changed. -/
def settleGrants (s : State) : State := (List.range 8).foldl (fun s m => if linkUp (linkAt s m) then sendTokens m false [] s else s) s

/-- Return search slots: they leave their link and class order, and fences that waited for them go on. -/
def returnSlots (p : Slot → Bool) (s : State) : State :=
  let gone := s.headgate.slots.filter p
  slotsReturned (gone.map (·.id)) { s with headgate := { s.headgate with slots := s.headgate.slots.filter fun x => !p x } }

/-- Discard the slots that `p` picks on link `m`, and count them in DiscardedResults. -/
def discardSlots (m : Nat) (p : Slot → Bool) (s : State) : State :=
  let gone (x : Slot) : Bool := x.link == m && p x
  returnSlots gone (s.bumpBy (O.discardedResults m) (s.headgate.slots.filter gone).length)

/-- Discard every result held for link `m`: the searches that have ended. Searches that still run keep their slots (R92, R109). -/
def discardHeld (m : Nat) (s : State) : State := discardSlots m (fun x => x.phase == .done) s

/-- Discard every search in a slot and every held result of link `m` (R401). -/
def discardAll (m : Nat) (s : State) : State := discardSlots m (fun _ => true) s

end Sys2Proof.Machine
end

