-- ==== Sys2Proof/Machine/Tcam.lean ====
section
/-! DEFINITION. The ternary array: tables and regions, lookup with its winner check, the commands with their moves, bulk load and
dump, and the slot writes of chain members (R139–R161, R386). -/

namespace Sys2Proof.Machine

/-- A quarter is quarantined (R158, Table 18-6). -/
def quarterOut (s : State) (q : Nat) : Bool := bit s.modes.quarantine (16 + q)

/-! ### Slots (R139–R145) -/

/-- Key of a slot of this device. -/
def slotKey (q i : Nat) : Nat := 8192 * q + i

/-- A slot of this device. -/
def slotAt (s : State) (k : Nat) : TcamSlot := SMap.get TcamSlot.zero s.tcam.slots k

/-- gen[q][T]. -/
def tcamGen (s : State) (q t : Nat) : Bool := SMap.get false s.tcam.gens (256 * q + t)

/-- Change the array. -/
def onTcam (f : Tcam → Tcam) (s : State) : State := { s with tcam := f s.tcam }

/-- Parity over the 192 value bits and 192 mask bits. -/
def slotParity (value mask : Nat) : Bool := (popcount 192 value + popcount 192 mask) % 2 == 1

/-- The 192 mask bits of a slot whose shadow this is: the TableId bits compare exactly, and the top 8 key bits of the second slot of a pair,
for which the 184 mask bits of Table 6-4 have no room, stand in its RecordIndex field, which names nothing there. DESIGN CHOICE. -/
def Shadow.slotMask (h : Shadow) : Nat := h.mask + (if h.upper then h.record % 256 else 255) * 2 ^ 184

/-- A slot as written from its shadow. -/
def slotOf (h : Shadow) : TcamSlot :=
  { v := h.valid, w := h.wide, g := h.gen, parity := slotParity h.value h.slotMask, value := h.value, mask := h.slotMask, shadow := h }

/-- Write a slot of this device and its shadow; a write that makes it valid powers its block (R144, R145). Invalidation leaves the
slot's contents with V clear. -/
def writeSlot (k : Nat) (h : Shadow) (s : State) : State :=
  onTcam (fun c => { c with
    slots := SMap.set TcamSlot.zero c.slots k (slotOf h)
    powered := if h.valid then c.powered ||| 2 ^ (k / 1024) else c.powered }) s

/-- A shadow record as the 52 bytes of Table 6-4's fields, most significant first: here as a number. -/
def Shadow.toNat (h : Shadow) : Nat :=
  let flags := 32 * b2n h.valid + 16 * b2n h.wide + 8 * b2n h.upper + 4 * b2n h.gen + 2 * b2n h.sealed + b2n h.wake
  h.value * 2 ^ 224 + h.mask % 2 ^ 184 * 2 ^ 40 + (h.record % 2 ^ 18) * 2 ^ 22 + (h.priority % 2 ^ 16) * 2 ^ 6 + flags

/-- The shadow record that a number spells. -/
def Shadow.ofNat (n : Nat) : Shadow :=
  { value := bits n 415 224, mask := bits n 223 40, record := bits n 39 22, priority := bits n 21 6, valid := bit n 5, wide := bit n 4,
    upper := bit n 3, gen := bit n 2, sealed := bit n 1, wake := bit n 0 }

/-! ### Lookup (R139, R142, R143) -/

/-- A slot's array bits match a 192-bit word. -/
def wordMatches (word : Nat) (x : TcamSlot) : Bool := (word ^^^ x.value) &&& x.mask == 0

/-- Slot `k` is the first slot of a match for a word of table generation `gen`. -/
def slotMatches (s : State) (wide : Bool) (word : Nat) (gen : Bool) (k : Nat) (x : TcamSlot) : Bool :=
  bit s.tcam.powered (k / 1024) &&
  (if wide then
    let y := slotAt s (k + 1)
    k % 2 == 0 && x.v && y.v && x.w && y.w && x.g == gen && y.g == gen && wordMatches (word / 2 ^ 192) x &&
    wordMatches (word % 2 ^ 192) y
   else x.v && !x.w && x.g == gen && wordMatches word x)

/-- The winner check of one slot: shadow against search word, state bits, generation and parity. -/
def winnerOk (word : Nat) (x : TcamSlot) : Bool :=
  (word ^^^ x.shadow.value) &&& x.shadow.slotMask == 0 && x.v == x.shadow.valid && x.w == x.shadow.wide && x.g == x.shadow.gen &&
  x.parity == slotParity x.value x.mask

/-- What a quarter's lookup gives: no match, a winner that fails its check, or the winner's slot and shadow. -/
inductive TcamHit where
  | miss
  | mismatch
  | hit (slot : Nat) (shadow : Shadow)
  deriving DecidableEq, Repr

/-- One lookup in quarter `q` of this device; a mismatch rewrites the slot from its shadow (R143), and the third of a slot within a lap quarantines the
quarter (R400). -/
def tcamLookup (q t : Nat) (wide : Bool) (word : Nat) (s : State) : TcamHit × State :=
  let gen := tcamGen s q t
  let mine := s.tcam.slots.filter fun e => e.1 / 8192 == q
  match List.find? (fun e => slotMatches s wide word gen e.1 e.2) mine with
  | none => (.miss, s)
  | some (k, x) =>
    let ok := if wide then winnerOk (word / 2 ^ 192) x && winnerOk (word % 2 ^ 192) (slotAt s (k + 1)) else winnerOk word x
    if ok then (.hit k x.shadow, s)
    else
      let s := writeSlot k x.shadow s
      let s := if wide then writeSlot (k + 1) (slotAt s (k + 1)).shadow s else s
      let s := onTcam (fun c => { c with mismatched := k :: c.mismatched }) ((s.bump O.winnerMismatches).bump O.shadowRewrites)
      (.mismatch, if 3 ≤ s.tcam.mismatched.count k then quarantineMark (0x10 + q) s else s)

/-- The search word of a table: TableId and the left-aligned key. -/
def searchWord (t : Nat) (wide : Bool) (key : Nat) : Nat :=
  if wide then t * 2 ^ 376 + key % 2 ^ 376 else t * 2 ^ 184 + key % 2 ^ 184

/-! ### Tables and entries -/

/-- The head's chain position is 0 (R159). -/
def isHead (s : State) : Bool := s.power.strapChain == 0

/-- The first slots of entries in a region of a table at a local index, in order: on this device, then, for a chain-wide table at the head, on
each member. -/
def regionPlaces (s : State) (q d base : Nat) : List Nat :=
  let here := fun pos => (List.range (tdCap d)).map fun j => 32768 * pos + slotKey q (base + tdStride d * j)
  if tdChain d && isHead s then (List.range s.tcam.members).flatMap here else here 0

/-- The first slots of a table's entries in order. -/
def tablePlaces (s : State) (q i : Nat) : List Nat :=
  regionPlaces s q (tcamDef s.dict.live q i) (SMap.get 0 s.tcam.regions (32 * q + i))

/-- The shadow at a place of this device or of a member. -/
def shadowAt (s : State) (p : Nat) : Shadow :=
  if p < 32768 then (slotAt s p).shadow else SMap.get Shadow.zero s.tcam.remote p

/-- An entry as commands see it: its key and mask (184 or 376 bits), record, priority and whether it is sealed. -/
structure TcamEntry where
  key : Nat
  mask : Nat
  record : Nat
  priority : Nat
  sealed : Bool
  deriving DecidableEq, Repr

/-- The entry that the shadows of its slots spell. -/
def shadowEntry (wide : Bool) (a b : Shadow) : TcamEntry :=
  if wide then ⟨a.value % 2 ^ 184 * 2 ^ 192 + b.value, a.mask % 2 ^ 184 * 2 ^ 192 + b.slotMask, a.record, a.priority, a.sealed⟩
  else ⟨a.value % 2 ^ 184, a.mask % 2 ^ 184, a.record, a.priority, a.sealed⟩

/-- The entry at a place, if one is valid there. -/
def entryIn (s : State) (wide : Bool) (p : Nat) : Option TcamEntry :=
  let a := shadowAt s p
  if !a.valid then none else some (shadowEntry wide a (shadowAt s (p + 1)))

/-- A table's entries by place. -/
def tcamEntries (s : State) (q i : Nat) : List (Nat × TcamEntry) :=
  (tablePlaces s q i).filterMap fun p => (entryIn s (tdWide (tcamDef s.dict.live q i)) p).map fun e => (p, e)

/-- The shadow writes that make an entry valid at a place, second slot first (R144). -/
def validateWrites (d : Nat) (gen : Bool) (e : TcamEntry) (p : Nat) : List (Nat × Shadow) :=
  let h : Shadow := { value := 0, mask := 0, record := e.record, priority := e.priority, valid := true, wide := tdWide d, upper := false, gen, sealed := e.sealed, wake := tdWake d }
  let id := tdId d * 2 ^ 184
  if tdWide d then
    [(p + 1, { h with value := e.key % 2 ^ 192, mask := e.mask % 2 ^ 184, record := e.mask / 2 ^ 184 % 256, upper := true }),
     (p, { h with value := id + e.key / 2 ^ 192, mask := e.mask / 2 ^ 192 })]
  else [(p, { h with value := id + e.key, mask := e.mask })]

/-- The shadow writes that invalidate the entry at a place, first slot first (R144). -/
def invalidateWrites (s : State) (wide : Bool) (p : Nat) : List (Nat × Shadow) :=
  let off := fun k => (k, { shadowAt s k with valid := false })
  if wide then [off p, off (p + 1)] else [off p]

/-- A WRITE message to a chain member (Table 17-9). -/
def sendWrite (p : Nat) (h : Shadow) (s : State) : State :=
  emit (.domino 0x82 (beBytes 1 (p / 32768) ++ beBytes 1 (p % 32768 / 8192) ++ beBytes 2 (p % 8192) ++ zeros 3 ++ beBytes 52 h.toNat ++ zeros 4)) s

/-- The RecordIndex in a slot's shadow is replaced; the slot itself is not written (Table 6-7). -/
def setRecord (p r : Nat) (s : State) : State :=
  let x := slotAt s p
  onTcam (fun c => { c with slots := SMap.set TcamSlot.zero c.slots p { x with shadow := { x.shadow with record := r } } }) s

/-- Write a slot of this device; where RecordIndex alone changes, the shadow alone is written (R152). -/
def writePlace (p : Nat) (h : Shadow) (s : State) : State :=
  if !h.upper && h == { shadowAt s p with record := h.record } then setRecord p h.record s else writeSlot p h s

/-! ### Slot writes in progress (R150, R153, R155, R386)

A load of a chain-wide table writes its second region on every device. The manual gives no message that flips a member's generation bit:
here a WRITE that leaves a slot invalid gives the member the generation that it carries. The head flips its own bit and sends one
such WRITE to every member together; messages pass round the ring in order, so every LOOKUP meets either the old bits everywhere or
the new ones everywhere. DESIGN CHOICE. -/

/-- The head's map takes a slot of a member. -/
def setRemote (p : Nat) (h : Shadow) (s : State) : State := onTcam (fun c => { c with remote := SMap.set Shadow.zero c.remote p h }) s

/-- A slot of this device, or of a member in the head's map, takes a shadow. -/
def setPlace (p : Nat) (h : Shadow) (s : State) : State := if p < 32768 then writeSlot p h s else setRemote p h s

/-- An invalid slot that carries a table's generation. -/
def genMark (t : Nat) (gen : Bool) : Shadow := { Shadow.zero with value := t * 2 ^ 184, gen }

/-- A table's region and generation are switched at the head, from the region in use to the one at `base`. -/
def flipHead (f : Nat × Nat × Nat) (s : State) : State :=
  let (q, i, base) := f
  let t := tdId (tcamDef s.dict.live q i)
  onTcam (fun c => { c with
    gens := SMap.set false c.gens (256 * q + t) (!tcamGen s q t)
    regions := SMap.set 0 c.regions (32 * q + i) base }) s

/-- The region in use of a table, in the form of a switch back to it. -/
def flipBack (s : State) (f : Nat × Nat × Nat) : Nat × Nat × Nat := (f.1, f.2.1, SMap.get 0 s.tcam.regions (32 * f.1 + f.2.1))

/-- The writes that tell each member the generation of a table, into the first slot of its region at `base`. -/
def memberMarks (s : State) (q i base : Nat) (gen : Bool) : List (Nat × Shadow) :=
  let d := tcamDef s.dict.live q i
  if tdChain d && isHead s then (List.range (s.tcam.members - 1)).map fun m => (32768 * (m + 1) + slotKey q base, genMark (tdId d) gen) else []

/-- The writes that invalidate what a table's region at `base` holds; those that go to a member carry its table's generation. -/
def clearWrites (s : State) (q i base : Nat) : List (Nat × Shadow) :=
  let d := tcamDef s.dict.live q i
  let now := tcamGen s q (tdId d)
  ((regionPlaces s q d base).filter fun p => (shadowAt s p).valid).flatMap fun p =>
    (invalidateWrites s (tdWide d) p).map fun w => (w.1, if w.1 < 32768 then w.2 else { w.2 with gen := now })

/-- The slots that a table's region at `base` takes in its quarter. -/
def regionOf (s : State) (f : Nat × Nat × Nat) : Nat × Nat × Nat := (f.1, f.2.2, tdSlots (tcamDef s.dict.live f.1 f.2.1))

/-- Every write has been acknowledged and made, nothing is left to switch, and no fence stands. -/
def ChainJob.over (j : ChainJob) : Bool := j.acks.isEmpty && j.writes.isEmpty && j.flips.isEmpty && j.fence.isEmpty

/-- Two lists of slot writes as one. -/
def ChainJob.append (a b : ChainJob) : ChainJob :=
  ⟨a.acks ++ b.acks, a.writes ++ b.writes, a.flips ++ b.flips, a.undo ++ b.undo, a.held ++ b.held, a.tables ++ b.tables,
   match a.gate, b.gate with
    | some m, some n => some (m + n)
    | _, _ => Option.none, b.old ++ a.old, a.bundle ++ b.bundle, a.fence ++ b.fence⟩

/-- The ring carries no WRITE: the head's map alone takes the slots of members, which are written when the ring is restored (R386). -/
def ringSilent (s : State) : Bool := !s.chain.up || s.val O.chainState == 3

/-- A search marks a table that these slot writes change. -/
def jobMarked (j : ChainJob) (s : State) : Bool := j.tables.any fun n => tableMarked s (0x1000 + n)

/-- The next write has been begun: it is noted with what its place held, and a move less is to be made before the effect write. -/
def ChainJob.begun (j : ChainJob) (p : Nat) (was : Shadow) : ChainJob :=
  { j with gate := j.gate.bind fun n => if n = 0 then Option.none else some (n - 1), old := (p, was) :: j.old }

/-- Make slot writes in order, up to an effect write that a mark holds, or to the first that goes to a member, which is sent and must be
acknowledged. -/
def runWrites (marked : Bool) : List (Nat × Shadow) → ChainJob → State → ChainJob × State
  | [], j, s => ({ j with writes := [] }, s)
  | (p, h) :: ws, j, s =>
    if marked && j.gate == some 0 then ({ j with writes := (p, h) :: ws }, s)
    else
      let j := j.begun p (shadowAt s p)
      if p < 32768 then runWrites marked ws j (writePlace p h s)
      else if ringSilent s then runWrites marked ws j (setRemote p h s)
      else ({ j with acks := [(p, some h)], writes := ws }, sendWrite p h s)

/-- The switch of loads whose writes are made: the head's generation bits and regions at once, then each member's, then the old regions go. -/
def switchLoads (j : ChainJob) (s : State) : ChainJob × State :=
  let undo := j.flips.map (flipBack s)
  let s := j.flips.foldl (fun s f => flipHead f s) s
  let marks := if ringSilent s then []
    else undo.flatMap fun f => memberMarks s f.1 f.2.1 f.2.2 (tcamGen s f.1 (tdId (tcamDef s.dict.live f.1 f.2.1)))
  let clear := undo.flatMap fun f => clearWrites s f.1 f.2.1 f.2.2
  let j := { j with acks := marks.map (fun w => (w.1, Option.none)), flips := [], undo, held := undo.map (regionOf s), gate := Option.none, writes := clear }
  let s := marks.foldl (fun s w => sendWrite w.1 w.2 s) s
  if marks.isEmpty then runWrites false clear j s else (j, s)

/-- A MAC operation granted before a revocation runs on with its copy of a key that the revocation marked (R321). -/
def fenceHeld (keys : List Bytes) (s : State) : Bool :=
  s.headgate.slots.any fun x => x.phase == .mac && x.mac.any fun w => keys.contains w.key

/-- Slot writes go on, with nothing left to acknowledge: up to the next WRITE, to an effect write or a switch that a mark holds, and to the switch
of loads once their writes are made; none while a revocation's fence stands. -/
def runJob (j : ChainJob) (s : State) : ChainJob × State :=
  if fenceHeld j.fence s then (j, s)
  else
  let marked := jobMarked j s
  let (j, s) := runWrites marked j.writes j s
  if !j.acks.isEmpty || !j.writes.isEmpty || (marked && j.gate.isSome && !j.flips.isEmpty) then (j, s)
  else if j.flips.isEmpty then (ChainJob.none, s)
  else switchLoads j s

/-- A member has acknowledged a WRITE of these: the head's map takes it. -/
def ackJob (p : Nat) (j : ChainJob) (s : State) : ChainJob × State :=
  let s := match j.acks.find? fun a => a.1 == p with
    | some (_, some h) => setRemote p h s
    | _ => s
  ({ j with acks := j.acks.filter fun a => a.1 != p }, s)

/-- Slot writes end with no effect: what they switched is switched back, and each place holds what it held. -/
def abandonJob (j : ChainJob) (s : State) : State :=
  j.old.foldl (fun s w => setPlace w.1 w.2 s) (j.undo.foldl (fun s f => flipHead f s) s)

/-- Slot writes that no ring command makes: at once where no other such writes are under way, and else behind them. -/
def queueJob (j : ChainJob) (s : State) : State :=
  let put (j : ChainJob) (s : State) : State := { s with chain := { s.chain with rewrite := j } }
  if s.chain.rewrite.over then (let (j, s) := runJob j s; put j s) else put (s.chain.rewrite.append j) s

/-- Slot writes of a relocation in table `i` of quarter `q`; they are no effect write. -/
def queueWrites (q i : Nat) (ws : List (Nat × Shadow)) (s : State) : State :=
  queueJob { ChainJob.none with writes := ws, tables := [32 * q + i] } s

/-- The outcome of a command whose slot writes these are. -/
def startJob (j : ChainJob) (result : Nat) (s : State) : OpRes :=
  let (j, s) := runJob j s
  if j.over then .done 0 result s else .chain j result s

/-- The outcome of a command on table `i` of quarter `q` whose slot writes are given, `moves` of them before the effect write. -/
def finishWrites (q i moves : Nat) (ws : List (Nat × Shadow)) (result : Nat) (s : State) : OpRes :=
  startJob { ChainJob.none with writes := ws, tables := [32 * q + i], gate := some moves } result s

/-- The slot writes in progress of this device: of its rings, of forwarded commands and resyncs, and of sealed tables and restored rings. -/
def jobsOf (s : State) : List ChainJob :=
  s.host.rings.filterMap (fun g => match g.waiting with
    | some (.chain j _ _) => some j
    | _ => none) ++ s.pair.chainWrites.map (·.2) ++ [s.chain.rewrite]

/-- The regions of quarter `q` that loads in progress, here and forwarded by the peer, keep from other use. -/
def heldRegions (s : State) (q : Nat) : List (Nat × Nat) :=
  ((jobsOf s).flatMap fun j => (j.held.filter fun r => r.1 == q).map (·.2)) ++ heldSpace s q

/-- Slot writes of table `i` of quarter `q` are in progress. -/
def tableBusy (s : State) (q i : Nat) : Bool := (jobsOf s).any fun j => j.tables.contains (32 * q + i)

/-! ### Insertion and deletion (R147, R149, R151) -/

/-- The rank of an entry in its table: groups lie in ascending rank. -/
def rankOf (d : Nat) (e : TcamEntry) : Nat :=
  let w := if tdWide d then 376 else 184
  if tdPriority d then e.priority else w - popcount w e.mask

/-- A position takes a new entry. -/
def positionFree (s : State) (d p : Nat) : Bool :=
  (List.range (tdStride d)).all fun k => !s.tcam.retired.contains (p + k) && !s.tcam.reserved.contains (p + k)

/-- What stands at each position of a table, in order: the place, whether a free one takes an entry, and the rank. -/
def layoutOf (s : State) (q i : Nat) : List (Nat × Bool × Option Nat) :=
  let d := tcamDef s.dict.live q i
  (tablePlaces s q i).map fun p => (p, positionFree s d p, (entryIn s (tdWide d) p).map (rankOf d))

/-- The ranks met on the way, each once, in the order met. -/
def ranksMet (l : List (Nat × Bool × Option Nat)) : List Nat :=
  (l.filterMap fun x => x.2.2).foldl (fun acc r => if acc.contains r then acc else acc ++ [r]) []

/-- Split at the nearest free position: what lies before it, and that position. -/
def toFree : List (Nat × Bool × Option Nat) → List (Nat × Bool × Option Nat) → Option (List (Nat × Bool × Option Nat) × Nat)
  | _, [] => none
  | acc, x :: xs => if x.2.2.isNone && x.2.1 then some (acc.reverse, x.1) else toFree (x :: acc) xs

/-- Where an entry of rank `r` goes: the moves as (source, hole) and the last hole, or none where no slot is free (R149). DESIGN CHOICE: the
boundary position of an empty group inside a free run is that run's first position, right after the last entry of lower rank. -/
def insertPath (lay : List (Nat × Bool × Option Nat)) (r : Nat) : Option (List (Nat × Nat) × Nat) :=
  -- positions up to the end of group r, or of the last group before it, lie on the near side of the boundary
  let upto := fun (x : Nat × Bool × Option Nat) => x.2.2.any fun k => k ≤ r
  let before := (lay.reverse.dropWhile fun x => !upto x).reverse
  let after := lay.drop before.length
  let own := fun (x : Nat × Bool × Option Nat) => x.2.2 == some r
  let left := if before.any own then before.takeWhile (fun x => !own x) else before
  let a := toFree [] after
  let b := toFree [] left.reverse
  let moves := fun (passed : List (Nat × Bool × Option Nat)) (hole : Nat) =>
    -- groups from the one next to the hole towards g; the source is each group's member farthest from the hole's side
    let ranks := (ranksMet passed).reverse
    ranks.foldl (fun (acc : List (Nat × Nat) × Nat) k =>
      match passed.find? fun x => x.2.2 == some k with
      | some x => (acc.1 ++ [(x.1, acc.2)], x.1)
      | none => acc) (([] : List (Nat × Nat)), hole)
  match a, b with
  | none, none => none
  | some (pa, f), none => some (moves pa f)
  | none, some (pb, f) => some (moves pb f)
  | some (pa, f), some (pb, f') =>
    if (ranksMet pa).length ≤ (ranksMet pb).length then some (moves pa f) else some (moves pb f')

/-- The writes of one move: the copy, then the source invalidated (R149). -/
def moveWrites (s : State) (d : Nat) (src dst : Nat) : List (Nat × Shadow) :=
  if tdWide d then [(dst + 1, shadowAt s (src + 1)), (dst, shadowAt s src)] ++ invalidateWrites s true src
  else [(dst, shadowAt s src)] ++ invalidateWrites s false src

/-- Put an entry into table `i` of quarter `q`: the place and the writes, or the detail of FULL with the state that counts it. -/
def planTcam (q i : Nat) (e : TcamEntry) (s : State) : (Nat × List (Nat × Shadow) × Nat) ⊕ Nat :=
  let d := tcamDef s.dict.live q i
  match insertPath (layoutOf s q i) (rankOf d e) with
  | none => .inr 0
  | some (ms, hole) =>
    if s.obj O.insertMoveLimit < ms.length then .inr 0x2404
    else .inl (hole, ms.flatMap (fun m => moveWrites s d m.1 m.2) ++ validateWrites d (tcamGen s q (tdId d)) e hole, ms.length)

/-- The entry with an identity (R148). -/
def findTcam (s : State) (q i key mask : Nat) : Option (Nat × TcamEntry) :=
  (tcamEntries s q i).find? fun e => e.2.key == key && e.2.mask == mask

/-- The writes that delete the entry at a place: it is invalidated, and its group's last entry moves into the hole (R151). -/
def deleteWrites (s : State) (q i p : Nat) (e : TcamEntry) : List (Nat × Shadow) × Nat :=
  let d := tcamDef s.dict.live q i
  let group := (tcamEntries s q i).filter fun x => rankOf d x.2 == rankOf d e
  match group.getLast? with
  | some (l, _) => if l = p then (invalidateWrites s (tdWide d) p, 0)
      else (invalidateWrites s (tdWide d) p ++ moveWrites s d l p, 1)
  | none => (invalidateWrites s (tdWide d) p, 0)

/-! ### The commands (R148–R152) -/

/-- The fields of an operand block (Table 6-6), its entry read for a table definition. -/
def tcamBlockEntry (d : Nat) (b : Bytes) : TcamEntry :=
  let cut := if tdWide d then 2 ^ 8 else 2 ^ 200
  ⟨be b 16 48 / cut, be b 64 48 / cut, le b 4 4, le b 2 2, false⟩

/-- A mask of `w` bits is a run of 1 bits followed by 0 bits. -/
def isPrefix (w m : Nat) : Bool := m == 2 ^ w - 2 ^ (w - popcount w m)

/-- Records in the store that a quarter's entries name. -/
def tcamRecords (live : SMap Nat) (q : Nat) : Nat := if flumeQuarter live q then 16384 else 262144

/-- The kind of a TCAM command: 1 insert, 2 delete, 3 modify, or 0 for an image record. -/
def tcamDetail (s : State) (kind : Nat) (b : Bytes) : Option Nat :=
  let q := u8 b 0 % 4
  match tcamTable s.dict.live q (u8 b 1) with
  | none => some 0x2401
  | some i =>
    let d := tcamDef s.dict.live q i
    let w := if tdWide d then 376 else 184
    let e := tcamBlockEntry d b
    let beyond := if tdWide d then 2 ^ 8 else 2 ^ 200
    if be b 16 48 % beyond ≠ 0 ∨ be b 64 48 % beyond ≠ 0 ∨ e.key &&& e.mask ≠ e.key then some 0x2402
    else if !tdPriority d && !isPrefix w e.mask then some 0x2402
    else if kind ≠ 2 ∧ bits e.record 31 18 = 0 ∧ tcamRecords s.dict.live q ≤ e.record then some 0x2403
    else if bits (u8 b 0) 7 2 ≠ 0 ∨ (e.priority ≠ 0 ∧ (1 < kind ∨ tdPriority d = false)) ∨ bits e.record 31 18 ≠ 0 ∨
      (kind = 2 ∧ e.record ≠ 0) ∨ allZero b 8 8 = false then some 0x2112
    else if tdChain d && !isHead s then some 0x2407
    else none

/-- A command on a chain-wide table needs the ring complete (R386). -/
def ringBroken (s : State) (d : Nat) : Bool := tdChain d && s.val O.chainState != 2

/-- A checked TCAM command goes to its table. -/
def withTable (kind : Nat) (b : Bytes) (s : State) (run : Nat → Nat → TcamEntry → OpRes) : OpRes :=
  if quarterOut s (u8 b 0 % 4) then .fail 0x19 0 s
  else match tcamDetail s kind b with
  | some x => .fail 0x14 x s
  | none =>
    let q := u8 b 0 % 4
    match tcamTable s.dict.live q (u8 b 1) with
    | none => .fail 0x14 0x2401 s
    | some i =>
      let d := tcamDef s.dict.live q i
      if ringBroken s d then .fail 0x1B 0x2F1E s
      else run q i (tcamBlockEntry d b)

/-- TCAM_INSERT (R149). -/
def opTcamInsert (b : Bytes) (s : State) : OpRes :=
  withTable 1 b s fun q i e =>
    if (findTcam s q i e.key e.mask).isSome then .fail 0x12 0 s
    else match planTcam q i e s with
      | .inr 0x2404 => .fail 0x10 0x2404 (s.bump O.moveLimitFailures)
      | .inr x => .fail 0x10 x s
      | .inl (p, ws, n) => finishWrites q i (ws.length - 1) ws (p % 8192) (s.bumpBy O.moves n)

/-- TCAM_DELETE (R151). -/
def opTcamDelete (b : Bytes) (s : State) : OpRes :=
  withTable 2 b s fun q i e =>
    match findTcam s q i e.key e.mask with
    | none => .fail 0x11 0 s
    | some (p, x) =>
      if x.sealed then .fail 0x13 0 s
      else
        let (ws, n) := deleteWrites s q i p x
        finishWrites q i 0 ws (p % 8192) (s.bumpBy O.moves n)

/-- TCAM_MODIFY_RESULT (R152): RecordIndex of the entry's first shadow, in one write; a member takes it by WRITE. -/
def opTcamModify (b : Bytes) (s : State) : OpRes :=
  withTable 3 b s fun q i e =>
    match findTcam s q i e.key e.mask with
    | none => .fail 0x11 0 s
    | some (p, x) =>
      if x.sealed then .fail 0x13 0 s
      else finishWrites q i 0 [(p, { shadowAt s p with record := e.record })] 0 s

/-! ### Regions (R146) -/

/-- The regions in use in quarter `q` as (base, slots). -/
def tcamRegions (live : SMap Nat) (q : Nat) (base : Nat → Option Nat) : List (Nat × Nat) :=
  (List.range 32).filterMap fun i =>
    let d := tcamDef live q i
    if tdDefined d then (base i).map fun b => (b, tdSlots d) else none

/-- The lowest local index at which a table fits; a Wide region begins at an even index. -/
def lowestSlots (used : List (Nat × Nat)) (d : Nat) : Option Nat :=
  let ends := 0 :: used.map fun u => (u.1 + u.2 + tdStride d - 1) / tdStride d * tdStride d
  let fits := ends.filter fun a => decide (a + tdSlots d ≤ 8192) && used.all fun u => u.1 + u.2 ≤ a || a + tdSlots d ≤ u.1
  fits.min?

/-- Place the regions of quarter `q` that need one, ascending, clear of those that loads keep; also the first table that finds no space. -/
def placeSlots (kept : List (Nat × Nat)) (new : SMap Nat) (q : Nat) : List Nat → (Nat → Option Nat) → (Nat → Option Nat) × Option Nat
  | [], base => (base, none)
  | i :: is, base =>
    let d := tcamDef new q i
    if !tdDefined d || (base i).isSome then placeSlots kept new q is base
    else match lowestSlots (kept ++ tcamRegions new q base) d with
      | some a => placeSlots kept new q is fun j => if j = i then some a else base j
      | none => (base, some i)

/-- The regions of quarter `q` under new definitions. -/
def newSlots (s : State) (new : SMap Nat) (q : Nat) : (Nat → Option Nat) × Option Nat :=
  placeSlots (heldRegions s q) new q (List.range 32) fun i =>
    let a := tcamDef s.dict.live q i
    let b := tcamDef new q i
    if tdDefined a && tdDefined b && tdCap a == tdCap b && tdWide a == tdWide b then some (SMap.get 0 s.tcam.regions (32 * q + i)) else none

/-- A commit check of chapter 6 that snapshot object `k` fails (R146). -/
def tcamCheck (n : Nat) (s : State) (new : SMap Nat) (k : Nat) : Option Nat :=
  if k < O.tableDefinition 0 0 ∨ O.tableDefinition 3 31 < k ∨ 32 ≤ (k - O.tableDefinition 0 0) % 256 then none
  else
    let q := (k - O.tableDefinition 0 0) / 256
    let i := (k - O.tableDefinition 0 0) % 256
    let a := tcamDef s.dict.live q i
    let b := tcamDef new q i
    if n = 1 then
      if (!(tcamEntries s q i).isEmpty || tableBusy s q i) && (!tdDefined b || tdId a != tdId b || tdPriority a != tdPriority b || tdWide a != tdWide b || tdChain a != tdChain b || tdCap a != tdCap b) then some 0x2410
      else if q ≠ 0 ∧ tdWake b = true then some 0x2020
      else none
    else if n = 6 then
      if tdDefined b && (List.range 32).any fun j => j != i && tdDefined (tcamDef new q j) && tdId (tcamDef new q j) == tdId b then some 0x2412
      else if (newSlots s new q).2 = some i then some 0x2411
      else none
    else none

/-- At the commit instant the regions are placed; `old` is the configuration before it. -/
def tcamCommit (old : SMap Nat) (s : State) : State :=
  let before := { s with dict := { s.dict with live := old } }
  let bases := (List.range 4).flatMap fun q => (List.range 32).map fun i => (32 * q + i, ((newSlots before s.dict.live q).1 i).getD 0)
  onTcam (fun c => { c with regions := SMap.setAll 0 [] bases }) s

/-! ### Bulk load and dump (R155) -/

/-- An entry into its place by rank, then by the free value that decides the order within a group (R147). -/
def insertRanked (x : Nat × Nat × TcamEntry) : List (Nat × Nat × TcamEntry) → List (Nat × Nat × TcamEntry)
  | [] => [x]
  | y :: ys => if x.1 < y.1 ∨ (x.1 = y.1 ∧ x.2.1 ≤ y.2.1) then x :: y :: ys else y :: insertRanked x ys

/-- The entries in group order; the order within a group is not defined, so free values decide it. -/
def groupOrder (d fresh : Nat) (es : List TcamEntry) : List (Nat × Nat × TcamEntry) :=
  (es.zipIdx.map fun x => (rankOf d x.1, (Config.freeValue (fresh + x.2)).toNat, x.1)).foldr insertRanked []

/-- Lay entries out over places: `gap` places stay free at each group boundary while `spare` of them remain. -/
def layOut (gap : Nat) : Nat → List (Nat × Nat × TcamEntry) → List Nat → Option Nat → List (Nat × TcamEntry)
  | _, [], _, _ => []
  | spare, (r, _, e) :: es, places, last =>
    let skip := if last == some r || last == none then 0 else min gap spare
    match places.drop skip with
    | p :: ps => (p, e) :: layOut gap (spare - skip) es ps (some r)
    | [] => []

/-- An image record keeps R148 for table `i` of quarter `q`. -/
def tcamImageOk (s : State) (q t : Nat) (b : Bytes) : Bool :=
  u8 b 0 == q && u8 b 1 == t && (tcamDetail s 0 b).isNone

/-- The second region of a load of table `i` of quarter `q`, placed as R146 places a region. -/
def secondRegion (q i : Nat) (s : State) : Option Nat :=
  lowestSlots (heldRegions s q ++ tcamRegions s.dict.live q fun j => some (SMap.get 0 s.tcam.regions (32 * q + j))) (tcamDef s.dict.live q i)

/-- Replace the contents of table `i` of quarter `q` by a list of entries as one update (R155); Result is `count`. A second region takes the
entries with the other generation and one switch makes it the table's; the slot writes are answered unmade. -/
def rebuildTcam (q i : Nat) (all : List TcamEntry) (count : Nat) (s : State) : OpRes :=
  let d := tcamDef s.dict.live q i
  let t := tdId d
  let cap := tdCap d * (if tdChain d then s.tcam.members else 1)
  let gap := if tdPriority d then s.obj O.priorityGap else s.obj O.lpmGap
  let order := groupOrder d s.fresh all
  let s1 := { s with fresh := s.fresh + all.length }
  if cap < all.length then .fail 0x10 0 s
  else
    match secondRegion q i s with
    | none => .fail 0x10 0x2405 s
    | some base =>
      let places := (regionPlaces s q d base).filter (positionFree s d)
      if places.length < all.length then .fail 0x10 0 s
      else
        let ws := (layOut gap (places.length - all.length) order places none).flatMap fun x => validateWrites d (!tcamGen s q t) x.2 x.1
        .chain { ChainJob.none with writes := ws, flips := [(q, i, base)], held := [(q, base, tdSlots d)], tables := [32 * q + i], gate := some ws.length } count s1

/-- BULK_LOAD of TableKind 1 into the table that the TableId operand names. -/
def loadTcam (operand : Nat) (img : Bytes) (s : State) : OpRes :=
  let q := bits operand 9 8
  let t := bits operand 7 0
  if quarterOut s q then .fail 0x19 0 s
  else match tcamTable s.dict.live q t with
  | none => .fail 0x14 0x2401 s
  | some i =>
    let d := tcamDef s.dict.live q i
    let rs := records 112 img
    let image := rs.map (tcamBlockEntry d)
    let kept := ((tcamEntries s q i).map (·.2)).filter (·.sealed)
    let ids := (image ++ kept).map fun e => (e.key, e.mask)
    if tdChain d && !isHead s then .fail 0x14 0x2407 s
    else if img.length % 112 ≠ 0 ∨ (rs.all (tcamImageOk s q t) && decide ids.Nodup) = false then .fail 0x14 0x2406 s
    else if ringBroken s d then .fail 0x1B 0x2F1E s
    else match rebuildTcam q i (image ++ kept) rs.length s with
      | .chain j x s => startJob j x s
      | r => r

/-- The sealed entries of TableId `t` become those of a bundle's image, in every quarter that has the table; an unsealed entry of the same
identity gives way (R318). Answers the slot writes, added to those given, or a detail class: 1 the image fails its checks, 2 no room. -/
def sealTcamIn (t : Nat) (rs : List Bytes) (j : ChainJob) (s : State) : List Nat → Nat ⊕ (ChainJob × State)
  | [] => .inr (j, s)
  | q :: qs =>
    match tcamTable s.dict.live q t with
    | none => sealTcamIn t rs j s qs
    | some i =>
      let d := tcamDef s.dict.live q i
      let mine := (rs.filter fun b => u8 b 0 == q).map fun b => { tcamBlockEntry d b with sealed := true }
      let old := (tcamEntries s q i).map (·.2)
      let rest := old.filter fun e => !e.sealed && !mine.any fun m => m.key == e.key && m.mask == e.mask
      if mine.isEmpty && !old.any (·.sealed) then sealTcamIn t rs j s qs
      else if !decide ((mine.map fun e => (e.key, e.mask)).Nodup) || (tdChain d && !isHead s) then .inl 1
      else match rebuildTcam q i (mine ++ rest) 0 s with
        | .chain k _ s' => sealTcamIn t rs (j.append k) s' qs
        | _ => .inl 2

/-- The sealed image of TableKind 1. -/
def sealTcam (t : Nat) (img : Bytes) (s : State) : Nat ⊕ (ChainJob × State) :=
  let rs := records 112 img
  if img.length % 112 ≠ 0 ∨ (rs.all fun b => decide (u8 b 0 < 4) && tcamImageOk s (u8 b 0) t b) = false then .inl 1
  else sealTcamIn t rs { ChainJob.none with gate := some 0 } s [0, 1, 2, 3]

/-- One dump record (Table 6-6); Sealed shows in ImageFlags. -/
def dumpTcamEntry (q t : Nat) (d : Nat) (e : TcamEntry) : Bytes :=
  let cut := if tdWide d then 2 ^ 8 else 2 ^ 200
  beBytes 1 q ++ beBytes 1 t ++ leBytes 2 (if tdPriority d then e.priority else 0) ++ leBytes 4 e.record ++ beBytes 1 (b2n e.sealed) ++
  zeros 7 ++ beBytes 48 (e.key * cut) ++ beBytes 48 (e.mask * cut)

/-- TABLE_DUMP of TableKind 1: the entries in index order, or the status and detail of what stops it (R155, R158, R159). -/
def dumpTcam (operand : Nat) (s : State) : Bytes ⊕ (Nat × Nat) :=
  let q := bits operand 9 8
  let t := bits operand 7 0
  if quarterOut s q then .inr (0x19, 0)
  else match tcamTable s.dict.live q t with
  | none => .inr (0x14, 0x2401)
  | some i =>
    let d := tcamDef s.dict.live q i
    if tdChain d && !isHead s then .inr (0x14, 0x2407)
    else .inl ((tcamEntries s q i).flatMap fun e => dumpTcamEntry q t d e.2)

/-! ### Block power and chain members -/

/-- BLOCK_POWER_DOWN: a block without a valid slot powers down (R145). -/
def execBlockPowerDown (quarter block : Nat) (s : State) : Result :=
  onUnit (quarter < 4 && block < 8) (
    let b := 8 * quarter + block
    if s.tcam.slots.any fun e => e.1 / 1024 == b && e.2.v then s
    else onTcam (fun c => { c with powered := if bit c.powered b then c.powered - 2 ^ b else c.powered }) s)

/-- Slots of quarter `q` outside every region. -/
def quarterFree (s : State) (q : Nat) : Nat :=
  8192 - ((tcamRegions s.dict.live q fun i => some (SMap.get 0 s.tcam.regions (32 * q + i))).map (·.2)).sum

end Sys2Proof.Machine
end

