-- ==== Sys2Proof/Machine/Compare.lean ====
section
/-! DEFINITION. Class A result comparison in a pair (R375, R376). -/

namespace Sys2Proof.Machine

/-- Change the pair's record. -/
def onPair (f : Pair → Pair) (s : State) : State := { s with pair := f s.pair }

/-- Region ID of a TCAM table, of the Verdict Store and of the Flume meters (Table 17-6). -/
def classARegion (s : State) (r : Nat) : Bool :=
  r == 0x5000 || r == 0x7000 || (r / 4096 == 1 && flumeQuarter s.dict.live (r % 4096 / 32))

/-- The comparison is suspended: during ConfigGrace and while a class A region is resyncing. -/
def compareSuspended (s : State) : Bool := s.pair.grace != 0 || s.pair.resyncs.any (classARegion s)

/-- A PAIR_DISAGREE record of a kind, with a RegionId or link, and a Tag (R377). -/
def pairDisagree (kind unit tag : Nat) (s : State) : State :=
  journal 0x0080 (beBytes 1 kind ++ beBytes 2 unit ++ beBytes 2 tag) s

/-- The bits of a Result Token that RESULT_DIGEST carries, masked by CompareMask: bits [255:64] of the token. -/
def maskedResult (mask token : Nat) : Nat :=
  let keep (on : Bool) (hi lo : Nat) : Nat := if on then bits token hi lo * 2 ^ (lo - 64) else 0
  keep true 247 246 + keep true 243 228 + keep (bit mask 4) 245 244 + keep (bit mask 0) 227 220 + keep (bit mask 1) 219 217 +
  keep (bit mask 3) 216 214 + keep (bit mask 5) 213 213 + keep (bit mask 7) 212 211 + keep (bit mask 7) 175 160 +
  keep (bit mask 2) 207 192 + keep (bit mask 6) 191 176 + keep (bit mask 8) 127 110

/-- Tag of the bits that a digest carries. -/
def digestTag (d : Nat) : Nat := bits d 179 164

/-- A digest and the own result of its link and tag have met: they are compared. -/
def compareResults (link : Nat) (transition : Bool) (peer own : Nat) (s : State) : State :=
  if peer = own then s.bump O.resultsCompared
  else if transition then s.bump O.compareSkipped
  else
    let s := vector 20 (s.bump O.resultDisagreements)
    let last := SMap.get 0 s.pair.kind5At link
    if last ≠ 0 ∧ s.clock.wall + 1 < last + 1000000000 then s
    else pairDisagree 5 link (digestTag own) (onPair (fun p => { p with kind5At := SMap.set 0 p.kind5At link (s.clock.wall + 1) }) s)

/-- The oldest kept result of a link and tag that `p` picks. -/
def oldestResult (rs : List PairResult) (link tag : Nat) (p : PairResult → Bool) : Option PairResult :=
  rs.find? fun r => r.link == link && digestTag r.digest == tag && p r

/-- An own result has its partner, or has missed it: it stays among the last 256 of its link. -/
def settleOwn (r : PairResult) (s : State) : State :=
  onPair (fun p => { p with ownResults := p.ownResults.map fun q => if q = r then { q with flag := true } else q }) s

/-- An own result becomes the newest of the last 256 of its link. -/
def keepOwn (r : PairResult) (s : State) : State :=
  onPair (fun p =>
    let mine := p.ownResults.filter fun q => q.link == r.link
    { p with ownResults := (if mine.length < 256 then p.ownResults else p.ownResults.erase (mine.headD r)) ++ [r] }) s

/-- The secondary sent a class A result of its own. -/
def ownResult (link own : Nat) (s : State) : State :=
  if compareSuspended s then s
  else match oldestResult s.pair.peerResults link (digestTag own) fun _ => true with
    | some p => compareResults link p.flag p.digest own (keepOwn ⟨link, own, s.clock.wall, true⟩
        (onPair (fun q => { q with peerResults := q.peerResults.erase p }) s))
    | none => keepOwn ⟨link, own, s.clock.wall, false⟩ s

/-- RESULT_DIGEST at the secondary: compared with the oldest unmatched own result of its link and tag, or kept until one comes. -/
def execResultDigest (link : Nat) (transition : Bool) (token : Nat) (s : State) : Result :=
  onUnit (link < 8) (
    if s.val O.pairState ≠ 2 ∨ s.val O.pairRole ≠ 2 ∨ compareSuspended s = true then s
    else
      let d := token % 2 ^ 192
      match oldestResult s.pair.ownResults link (digestTag d) fun r => !r.flag with
      | some r => compareResults link transition d r.digest (settleOwn r s)
      | none => onPair (fun p => { p with peerResults := p.peerResults ++ [⟨link, d, s.clock.wall, transition⟩] }) s)

/-- An own result has found no partner in time (R376). -/
def missOwn (r : PairResult) (s : State) : State := (settleOwn r s).bump O.compareMissing

/-- A result of the peer has found no partner in time (R376). -/
def missPeer (r : PairResult) (s : State) : State :=
  (onPair (fun q => { q with peerResults := q.peerResults.erase r }) s).bump O.compareMissing

/-- COMPARE_TIMEOUT: the oldest result of the link, own or the peer's, has found no partner within 100 us (R376). -/
def execCompareTimeout (link : Nat) (s : State) : Result :=
  onUnit (link < 8) (
    let own := s.pair.ownResults.find? fun r => r.link == link && !r.flag
    let peer := s.pair.peerResults.find? fun r => r.link == link
    if compareSuspended s then s
    else match own, peer with
      | some o, some p => if o.at_ ≤ p.at_ then missOwn o s else missPeer p s
      | some o, none => missOwn o s
      | none, some p => missPeer p s
      | none, none => s)

/-- The command of a ring changes a class A resource (R375). -/
def classACommand (g : Ring) (s : State) : Bool :=
  let d := g.desc
  (decide (dsOpcode d ≤ 3) && flumeQuarter s.dict.live (u8 g.block 0 % 4)) ||
  ((dsOpcode d == 0x18 || dsOpcode d == 0x19) && u8 d 8 == 1) ||
  (dsOpcode d == 0x31 && ((u8 d 8 == 1 && flumeQuarter s.dict.live (bits (le d 10 2) 9 8)) ||
    ((u8 d 8 == 5 || u8 d 8 == 6) && le d 10 2 == 1)))

/-- A forwarded command on a class A resource is between the primary's effect write and CMD_DONE (R375). -/
def inTransition (s : State) : Bool :=
  s.host.rings.any fun g => match g.waiting with
    | some (.done ..) => classACommand g s
    | some (.chain j _ q) => q != 0 && j.gate.isNone && classACommand g s
    | _ => false

/-- The pair's part in sending a class A result. -/
def shareResult (x : Slot) (token : Nat) (s : State) : State :=
  if s.val O.pairState ≠ 2 then s
  else
    let d := maskedResult (s.obj O.compareMask) token
    if s.val O.pairRole = 1 then emit (.culvert 0x20 (beBytes 1 x.link ++ beBytes 1 (b2n x.transition) ++ zeros 5 ++ beBytes 24 d)) s
    else ownResult x.link d s

end Sys2Proof.Machine
end

