-- ==== Sys2Proof/Machine/Reservoir.lean ====
section
/-! DEFINITION. Reservoir memory: granules, cached copies, where a line's current value is, home memory with its write-through, and poison
(Table 12-2, R263–R265, R280, R281). Home memory is kept in cells of 16 bytes, four to a line. -/

namespace Sys2Proof.Machine

/-! ### Regions and granules (Table 12-2) -/

/-- The cell of a counter pair. -/
def counterGranule (c : Nat) : Nat := 0x40000 + c

/-- The cell of a Reservoir meter. -/
def meterGranule (m : Nat) : Nat := 0x80000 + m

/-- The cell of a Reservoir freshness counter. -/
def freshGranule (i : Nat) : Nat := 0xA0000 + i

/-- The cell that holds the tag word of extended bucket `b`; even buckets take its low half. -/
def tagGranule (b : Nat) : Nat := 0xB0000 + b / 2

/-- The line of a cell. -/
def lineOf (g : Nat) : Nat := g / 4

/-- The home slice of a line (R264). -/
def sliceOf (line : Nat) : Nat := line % 16

/-- Granules of a line: of 16 bytes, of 8 in the tag words and the Marionette and Tally area, one of 64 in the free pool. -/
def granuleCount (line : Nat) : Nat := if line < 0x2C000 then 4 else if line < 0x38000 then 8 else 1

/-- The first 8-byte word of granule `i` of a line: by it the granule is named. -/
def granuleWord (line i : Nat) : Nat := 8 * line + i * (8 / granuleCount line)

/-- The granule of its line that holds an 8-byte word. -/
def granuleIndex (word : Nat) : Nat := word % 8 / (8 / granuleCount (word / 8))

/-! ### Cached copies -/

/-- Key of a cached line. -/
def cacheKey (agent line : Nat) : Nat := agent * 262144 + line

/-- An agent's copy of a line. -/
def cacheLine? (s : State) (agent line : Nat) : Option CacheLine := SMap.find? s.coh.caches (cacheKey agent line)

/-- Put an agent's copy of a line. -/
def putLine (agent line : Nat) (c : CacheLine) (s : State) : State :=
  { s with coh := { s.coh with caches := SMap.insert s.coh.caches (cacheKey agent line) c } }

/-- An agent goes to I for a line. -/
def dropLine (agent line : Nat) (s : State) : State :=
  { s with coh := { s.coh with caches := SMap.erase s.coh.caches (cacheKey agent line) } }

/-- The copy is in M, E or S. -/
def CacheLine.live (c : CacheLine) : Bool := c.st == .m || c.st == .e || c.st == .s

/-! ### Poison (R280) -/

/-- The granule at home that holds an 8-byte word is poisoned. -/
def wordPoisoned (s : State) (word : Nat) : Bool := SMap.get false s.coh.poison (granuleWord (word / 8) (granuleIndex word))

/-- The 16-byte granule at cell `g` is poisoned at home. -/
def poisoned (s : State) (g : Nat) : Bool := wordPoisoned s (2 * g)

/-- Mark or clear the poison of granule `i` of a line at home. -/
def setPoison (line i : Nat) (p : Bool) (s : State) : State :=
  { s with coh := { s.coh with poison := SMap.set false s.coh.poison (granuleWord line i) p } }

/-- The granules of a line that are poisoned at home, as a mask. -/
def poisonMask (s : State) (line : Nat) : Nat :=
  (List.range (granuleCount line)).foldl (fun m i => if SMap.get false s.coh.poison (granuleWord line i) then m ||| 2 ^ i else m) 0

/-- Granules of a line that an error found there poisons besides those of `old`, counted. -/
def countPoison (line old found : Nat) (s : State) : State :=
  s.bumpBy O.poisonedGranules ((List.range (granuleCount line)).filter fun i => bit found i && !bit old i).length

/-! ### Home memory -/

/-- The four cells of a line in home memory. -/
def homeLine (s : State) (line : Nat) : List Nat := (List.range 4).map fun i => SMap.get 0 s.coh.home (4 * line + i)

/-- What the LPDDR5 shadow keeps of a cell (Table 12-2): all of it, the configuration of a meter, or nothing. -/
def shadowOf (g v : Nat) : Option Nat :=
  if g < 0x40000 then some v
  else if 0x80000 ≤ g ∧ g < 0xA0000 then some (v / 2 ^ 117 * 2 ^ 117)
  else if 0xB0000 ≤ g ∧ g < 0xE0000 then some v
  else none

/-- The cell of the free-pool line that a cell's line is redirected to (R281). -/
def redirectedCell (s : State) (g : Nat) : Option Nat :=
  (s.coh.redirects.find? fun r => r.1 == lineOf g).map fun r => 4 * r.2 + g % 4

/-- Write a cell of home memory, of a redirected line in the free pool too, and through to the shadow once it is ready. -/
def storeHome (g v : Nat) (s : State) : State :=
  let home := SMap.set 0 s.coh.home g v
  let home := match redirectedCell s g with
    | some g' => SMap.set 0 home g' v
    | none => home
  let s := { s with coh := { s.coh with home } }
  match shadowOf g v with
  | some w => if s.flag O.shadowReady then { s with coh := { s.coh with shadow := SMap.set 0 s.coh.shadow g w } } else s
  | none => s

/-- Write a line at home with the poison mask that came with its data. -/
def storeHomeLine (line : Nat) (data : List Nat) (mask : Nat) (s : State) : State :=
  let s := (List.range 4).foldl (fun s i => storeHome (4 * line + i) (data.getD i 0) s) s
  (List.range (granuleCount line)).foldl (fun s i => setPoison line i (bit mask i) s) s

/-- Granule `i` of a line in home memory. -/
def homeGranule (s : State) (line i : Nat) : Nat :=
  let cell (j : Nat) : Nat := SMap.get 0 s.coh.home (4 * line + j)
  match granuleCount line with
  | 4 => cell i
  | 8 => bits (cell (i / 2)) (64 * (i % 2) + 63) (64 * (i % 2))
  | _ => ((List.range 4).map fun j => cell j * 2 ^ (128 * j)).sum

/-- Write granule `i` of a line at home whole: its poison is cleared (R281). -/
def storeGranule (line i v : Nat) (s : State) : State :=
  let s := match granuleCount line with
    | 4 => storeHome (4 * line + i) (v % 2 ^ 128) s
    | 8 =>
      let g := 4 * line + i / 2
      storeHome g (setBits (SMap.get 0 s.coh.home g) (64 * (i % 2) + 63) (64 * (i % 2)) (v % 2 ^ 64)) s
    | _ => (List.range 4).foldl (fun s j => storeHome (4 * line + j) (v / 2 ^ (128 * j) % 2 ^ 128) s) s
  setPoison line i false s

/-! ### The current value of a line -/

/-- A message that carries a line's data as its current value. -/
def carries (m : Msg) : Bool :=
  match m.kind with
  | .wbd | .dataFwd | .rspFwdData | .rspData => true
  | _ => false

/-- The current value of a line and its poison mask where it is not home's: the M holder's copy, else data that an agent has received or that
is in flight. -/
def awayLine (s : State) (line : Nat) : Option (List Nat × Nat) :=
  let copies := (List.range 15).filterMap fun a => cacheLine? s a line
  match copies.find? fun c => c.st == .m with
  | some c => some (c.data, c.poison)
  | none => match copies.find? fun c => c.st == .fetching && c.gotData with
    | some c => some (c.data, c.poison)
    | none => (s.coh.net.find? fun m => m.line == line && carries m).map fun m => (m.data, m.poison)

/-- The current value of a line. -/
def currentLine (s : State) (line : Nat) : List Nat := ((awayLine s line).map (·.1)).getD (homeLine s line)

/-- The current value of a cell. -/
def readGranule (s : State) (g : Nat) : Nat := (currentLine s (lineOf g)).getD (g % 4) 0

/-- The granule of an 8-byte word is poisoned where a unit that does not cache the line, or Lateral or Weir engine `agent` that holds it, reads
it (R280). -/
def readsPoison (s : State) (agent word : Nat) : Bool :=
  let line := word / 8
  let mask := match (cacheLine? s agent line).filter CacheLine.live with
    | some c => c.poison
    | none => ((awayLine s line).map (·.2)).getD (poisonMask s line)
  bit mask (granuleIndex word)

/-- The tag word of an extended bucket, 64 bits. -/
def readTag (s : State) (b : Nat) : Nat := bits (readGranule s (tagGranule b)) (64 * (b % 2) + 63) (64 * (b % 2))

/-- The 8-byte word of an extended bucket's tag. -/
def tagWord (b : Nat) : Nat := 0x160000 + b

/-- The tag word of an extended bucket is poisoned at home. -/
def tagWordBad (s : State) (b : Nat) : Bool := wordPoisoned s (tagWord b)

/-- The list with entry `i` replaced. -/
def setAt (l : List Nat) (i v : Nat) : List Nat := l.set i v

/-- Count one operation at the line's home slice. -/
def countSlice (line : Nat) (s : State) : State := s.bump (O.sliceOperations (sliceOf line))

/-- An atomic or a read met a poisoned granule: counted, nothing changed (R280). -/
def poisonHit (s : State) : State := s.bump O.poisonedAtomics

end Sys2Proof.Machine
end

