-- ==== Sys2Proof/Machine/Granules.lean ====
section
/-! DEFINITION. What the granules of the Reservoir and the Flume stores hold: Weir meters and freshness counters, and the atomics on them
(R229–R231, R247, R248, R250, R272). -/

namespace Sys2Proof.Machine

/-! ### Meters (Tables 10-3, 10-4) -/

/-- A profile's Mode: 0 off, 1 srTCM, 2 trTCM, 3 FRAME (Table 10-3). -/
def profMode (p : Bytes) : Nat := bits (u8 p 0) 7 6

/-- CIR of a profile. -/
def profCir (p : Bytes) : Nat := le p 4 4

/-- PIR of a profile. -/
def profPir (p : Bytes) : Nat := le p 8 4

/-- CBS of a profile. -/
def profCbs (p : Bytes) : Nat := le p 12 4

/-- EBS or PBS of a profile. -/
def profEbs (p : Bytes) : Nat := le p 16 4

/-- Valid bit of a meter (Table 10-4). -/
def meterValid (m : Nat) : Bool := bit m 117

/-- ProfileId of a meter. -/
def meterProfileId (m : Nat) : Nat := bits m 127 118

/-- A meter of the given fields. -/
def mkMeter (profile : Nat) (valid : Bool) (last tc te : Nat) : Nat :=
  (profile % 1024) * 2 ^ 118 + b2n valid * 2 ^ 117 + (last % 2 ^ 44) * 2 ^ 72 + (tc % 2 ^ 36) * 2 ^ 36 + te % 2 ^ 36

/-- What a frame of `len` bytes costs under a profile [units]. -/
def meterCost (prof : Bytes) (len : Nat) : Nat := (if profMode prof = 3 then 1 else len) * 4096

/-- The token-bucket update of R230: colour 0 green, 1 yellow, 2 red, and the meter after it. `e` is E, `b` the cost [units], `pre` p. -/
def meterStep (prof : Bytes) (e b pre m : Nat) : Nat × Nat :=
  let dt := (e + 2 ^ 44 - bits m 115 72) % 2 ^ 44
  let add := fun rate => rate * dt * 4096 / 1000000000
  let mode := profMode prof
  let cap := profCbs prof * 4096
  let cap2 := profEbs prof * 4096
  let tc0 := bits m 71 36
  let te0 := bits m 35 0
  let out := fun colour tc te => (colour, mkMeter (meterProfileId m) true e tc te)
  if mode = 1 then
    let c := tc0 + add (profCir prof)
    let tc := min c cap
    let te := min (te0 + (c - tc)) cap2
    if pre = 0 ∧ b ≤ tc then out 0 (tc - b) te
    else if pre ≠ 2 ∧ b ≤ te then out 1 tc (te - b)
    else out 2 tc te
  else if mode = 2 then
    let tc := min (tc0 + add (profCir prof)) cap
    let tp := min (te0 + add (profPir prof)) cap2
    if pre = 2 ∨ tp < b then out 2 tc tp
    else if pre = 1 ∨ tc < b then out 1 tc (tp - b)
    else out 0 (tc - b) (tp - b)
  else
    let tc := min (tc0 + add (profCir prof)) cap
    if pre ≠ 2 ∧ b ≤ tc then out 0 (tc - b) 0 else out 2 tc 0

/-- The pre-colour that a profile uses: 3 is taken as green, and a colour-blind profile takes green (R230). -/
def preColourOf (prof : Bytes) (pre : Nat) : Nat := if bit (u8 prof 0) 5 then (if pre = 3 then 0 else pre) else 0

/-- A meter profile in a set of live values. -/
def meterProfileIn (live : SMap Nat) (p : Nat) : Bytes := leBytes 24 (SMap.get 0 live (O.meterProfile p))

/-- A meter as METER_CONFIGURE leaves it: buckets full, LastTime E (R233). -/
def freshMeter (s : State) (profile : Nat) (valid : Bool) : Nat :=
  let prof := meterProfileIn s.dict.live profile
  mkMeter profile valid (elapsed s) (profCbs prof * 4096) (profEbs prof * 4096)

/-! ### Freshness counters (Table 11-5) -/

/-- Value. -/
def fcValue (c : Nat) : Nat := bits c 127 64

/-- Valid. -/
def fcValid (c : Nat) : Bool := bit c 63

/-- Unsynced. -/
def fcUnsynced (c : Nat) : Bool := bit c 62

/-- FailCount. -/
def fcFail (c : Nat) : Nat := bits c 55 48

/-- ReplayCount. -/
def fcReplay (c : Nat) : Nat := bits c 47 40

/-- WindowStart. -/
def fcWindow (c : Nat) : Nat := bits c 31 0

/-- A counter of the given fields. -/
def mkCounter (value : Nat) (valid unsynced sealed : Bool) (fail replay window : Nat) : Nat :=
  (value % 2 ^ 64) * 2 ^ 64 + b2n valid * 2 ^ 63 + b2n unsynced * 2 ^ 62 + b2n sealed * 2 ^ 61 + (fail % 256) * 2 ^ 48 +
  (replay % 256) * 2 ^ 40 + window % 2 ^ 32

/-- Elapsed time in ms, modulo 2^32. -/
def elapsedMs (s : State) : Nat := elapsed s / 1000000 % 2 ^ 32

/-- The counting of a refusal in a counter (R250): the window opens anew where it has run out, and a count that exceeds a nonzero threshold
goes to 0. The counter, and whether the count did. -/
def countIn (replay : Bool) (threshold window now c : Nat) : Nat × Bool :=
  let expired := window ≤ (now + 2 ^ 32 - fcWindow c) % 2 ^ 32
  let w := if expired then now else fcWindow c
  let fail := (if expired then 0 else fcFail c) + b2n (!replay)
  let rep := (if expired then 0 else fcReplay c) + b2n replay
  let burst := threshold != 0 && decide (threshold < if replay then rep else fail)
  let fail := if burst && !replay then 0 else min fail 255
  let rep := if burst && replay then 0 else min rep 255
  (mkCounter (fcValue c) (fcValid c) (fcUnsynced c) (bit c 61) fail rep w, burst)

/-! ### Atomics (Table 12-7) -/

/-- The effect of an atomic on a granule: the result and the new granule. A refusal returns 0. -/
def atomEffect (s : State) (op : AtomOp) (v : Nat) : Nat × Nat :=
  match op with
  | .fetchAdd a b => (v, (v % 2 ^ 64 + a) % 2 ^ 64 + (v / 2 ^ 64 + b) % 2 ^ 64 * 2 ^ 64)
  | .compareAndSwap cmp mask new => if v &&& mask = cmp then (2 ^ 128 + v, new % 2 ^ 128) else (v, v)
  | .compareAndAdvance x window =>
    if fcValue v < x ∧ x - fcValue v ≤ window then
      (1, mkCounter x (fcValid v) (fcUnsynced v) (bit v 61) (fcFail v) (fcReplay v) (fcWindow v))
    else (0, v)
  | .tokenBucket profile len pre =>
    let prof := meterProfileIn s.dict.live profile
    if !meterValid v || profMode prof == 0 then (3, v)
    else meterStep prof (elapsed s) (meterCost prof len) (preColourOf prof pre) v
  | .boundedIncrement .value bound _ =>
    if fcValue v < bound then
      (2 ^ 64 + (fcValue v + 1), mkCounter (fcValue v + 1) (fcValid v) (fcUnsynced v) (bit v 61) (fcFail v) (fcReplay v) (fcWindow v))
    else (0, v)
  | .boundedIncrement field bound window =>
    let (c, burst) := countIn (field == .replays) bound window (elapsedMs s) v
    (if burst then 0 else 2 ^ 64 + (if field = .replays then fcReplay c else fcFail c), c)

/-- The counters that an atomic moves besides its granule: a token-bucket update at home, or of an unconfigured meter (R230, R232). -/
def atomCounts (s : State) (op : AtomOp) (v : Nat) : State :=
  match op with
  | .tokenBucket profile _ _ =>
    if !meterValid v || profMode (meterProfileIn s.dict.live profile) == 0 then s.bump O.unconfiguredMeters else s.bump O.weirHomeUpdates
  | _ => s

end Sys2Proof.Machine
end

