-- ==== Sys2Proof/Machine/Protocol.lean ====
section
/-! DEFINITION. The coherence protocol of the Reservoir: messages and their order, agents, directories and home slices (R262–R280). A message
that Table 12-5 or 12-6 has no row for is noted in `coh.illegal`; the command that met it fails the domain for it. A write or an atomic of the
device itself is a request like every other, run to its end within its command: messages in flight are delivered until home has executed it
(R268, R272, R279). -/

namespace Sys2Proof.Machine

/-- Change the coherent domain. -/
def onCoh (f : Coherence → Coherence) (s : State) : State := { s with coh := f s.coh }

/-- Lines of the Reservoir (Table 12-2). -/
def reservoirLines : Nat := 262144

/-- The unit number of the home slice of a line, as messages name it. -/
def homeUnit (line : Nat) : Nat := 0x40 + sliceOf line

/-- A unit has met a message that no row of Tables 12-5 and 12-6 covers (R283). -/
def illegalAt (unit : Nat) (s : State) : State :=
  onCoh (fun c => { c with illegal := match c.illegal with
    | some u => some u
    | none => some unit }) s

/-! ### Messages (Table 12-4, R266) -/

/-- The channel of a message: 0 requests, 1 snoops, 2 responses, 3 data. -/
def MsgKind.channel : MsgKind → Nat
  | .wbd | .evc | .request _ => 0
  | .snpData | .snpOwn | .snpInv | .snpRecall _ => 1
  | .dataFwd | .dataH => 3
  | _ => 2

/-- Send a message. -/
def send (kind : MsgKind) (src dst line req : Nat) (data : List Nat) (poison : Nat) (s : State) : State :=
  onCoh (fun c => { c with net := c.net ++ [⟨kind, src, dst, line, req, data, poison⟩] }) s

/-- Home sends a message without data. -/
def homeSend (kind : MsgKind) (dst line req : Nat) (s : State) : State := send kind (homeUnit line) dst line req [] 0 s

/-- Home sends its memory's data. -/
def sendDataH (dst line : Nat) (s : State) : State :=
  send .dataH (homeUnit line) dst line 0 (homeLine s line) (poisonMask s line) s

/-- The oldest message in flight between a pair of units on a channel. -/
def oldestOf (s : State) (src dst channel : Nat) : Option Msg :=
  s.coh.net.find? fun x => x.src == src && x.dst == dst && x.kind.channel == channel

/-- The first message in flight that `p` accepts, where no earlier one of its pair and channel is before it. -/
def arrived (p : Msg → Bool) (s : State) : Option Msg :=
  (s.coh.net.find? p).filter fun m => oldestOf s m.src m.dst m.kind.channel == some m

/-! ### Agents (Table 12-1) -/

/-- The agent caches the line's region. -/
def mayCache (agent line : Nat) : Bool :=
  if agent < 8 then decide (line < 0x10000) || (decide (0x28000 ≤ line) && decide (line < 0x34000))
  else if agent < 12 ∨ agent = 14 then decide (0x34000 ≤ line) && decide (line < 0x38000)
  else decide (0x20000 ≤ line) && decide (line < 0x28000) && agent == 12 + line % 2

/-- Lines of an agent's cache. -/
def cacheLines (agent : Nat) : Nat := if agent < 8 then 4096 else if agent < 12 then 512 else if agent < 14 then 1024 else 256

/-- The agent is powered and not quarantined. -/
def agentUp (s : State) (agent : Nat) : Bool :=
  if agent < 8 then !bit s.modes.quarantine agent && (agent == 0 || !(s.modes.drowse == 2 || s.modes.drowse == 3))
  else if agent < 12 then !bit s.modes.quarantine agent
  else true

/-- The agent announces every eviction, clean ones too. -/
def announces (agent : Nat) : Bool := 12 ≤ agent

/-- The agent holds lines in S. A Weir engine or Tally does not (Table 12-1): what Tables 12-5 and 12-6 would leave it in S it uses once and drops
silently, and the pointer at home is stale (R276). DESIGN CHOICE. -/
def holdsShared (agent : Nat) : Bool := agent < 12

/-- An agent asks for a line: the line is fetched, unless its cache is full or it may not cache the line. -/
def startFetch (agent line : Nat) (s : State) : Option State :=
  let held := (s.coh.caches.filter fun e => e.1 / 262144 == agent).length
  if agentUp s agent && mayCache agent line && (cacheLine? s agent line).isNone && decide (held < cacheLines agent) then
    some (putLine agent line ⟨.fetching, [], 0, false, none, false, none⟩ s)
  else none

/-- The agent answers home. -/
def respond (kind : MsgKind) (agent line flag : Nat) (data : List Nat) (poison : Nat) (s : State) : State :=
  send kind agent (homeUnit line) line flag data poison s

/-- An agent answers a snoop (Table 12-5). -/
def answerSnoop (agent line : Nat) (kind : MsgKind) (requester : Nat) (s : State) : State :=
  let rspI (flag : Nat) (s : State) : State := respond .rspI agent line flag [] 0 s
  let fwd (c : CacheLine) (s : State) : State := send .dataFwd agent requester line 0 c.data c.poison s
  let share (c : CacheLine) (s : State) : State :=
    if holdsShared agent then putLine agent line { c with st := .s, snoop := none } s else dropLine agent line s
  match cacheLine? s agent line with
  | none => rspI 1 s
  | some c =>
    match c.st, kind with
    | .fetching, _ => rspI 1 s
    | .ie, _ => respond .rspEvInFlight agent line 0 [] 0 s
    | .e, .snpData => respond .rspFwd agent line 0 [] 0 (fwd c (share c s))
    | .m, .snpData => respond .rspFwdData agent line 0 c.data c.poison (fwd c (share c s))
    | .e, .snpOwn => respond .rspFwd agent line 0 [] 0 (fwd c (dropLine agent line s))
    | .m, .snpOwn => respond .rspFwd agent line 0 [] 0 (fwd c (dropLine agent line s))
    | .e, .snpInv => rspI 0 (dropLine agent line s)
    | .s, .snpInv => rspI 0 (dropLine agent line s)
    | .e, .snpRecall _ => rspI 0 (dropLine agent line s)
    | .s, .snpRecall _ => rspI 0 (dropLine agent line s)
    | .m, .snpRecall _ => respond .rspData agent line 0 c.data c.poison (dropLine agent line s)
    | .upgrading, .snpInv => rspI 0 (putLine agent line ⟨.fetching, [], 0, false, c.granted, false, none⟩ s)
    | .upgrading, .snpRecall _ => rspI 0 (putLine agent line ⟨.fetching, [], 0, false, c.granted, false, none⟩ s)
    | _, _ => illegalAt agent s

/-- Number of a snoop, as a waiting snoop is kept. -/
def snoopCode : MsgKind → Nat
  | .snpData => 0
  | .snpOwn => 1
  | .snpInv => 2
  | .snpRecall b => if b then 4 else 3
  | _ => 5

/-- The snoop of a number. -/
def snoopOf (n : Nat) : MsgKind :=
  match n with
  | 0 => .snpData
  | 1 => .snpOwn
  | 2 => .snpInv
  | 3 => .snpRecall false
  | _ => .snpRecall true

/-- A snoop reaches an agent: it waits while the line is in its hold time (R273). -/
def takeSnoop (agent line : Nat) (kind : MsgKind) (requester : Nat) (s : State) : State :=
  match cacheLine? s agent line with
  | some c => if c.hold then putLine agent line { c with snoop := some (snoopCode kind, requester) } s
    else answerSnoop agent line kind requester s
  | none => answerSnoop agent line kind requester s

/-- The hold of a line ends, and a waiting snoop is answered (R273). -/
def endHold (agent line : Nat) (s : State) : State :=
  match cacheLine? s agent line with
  | none => s
  | some c =>
    if !c.hold then s
    else
      let s := putLine agent line { c with hold := false, snoop := none } s
      match c.snoop with
      | some (k, r) => answerSnoop agent line (snoopOf k) r s
      | none => s

/-- An agent gives up a line that it holds in M, E or S (Table 12-5). -/
def evict (agent line : Nat) (s : State) : State :=
  match cacheLine? s agent line with
  | none => s
  | some c => match c.st with
    | .m => send .wbd agent (homeUnit line) line 0 c.data c.poison (putLine agent line { c with st := .ie, hold := false } s)
    | .s => dropLine agent line s
    | .e =>
      if announces agent then send .evc agent (homeUnit line) line 0 [] 0 (putLine agent line { c with st := .ie, hold := false } s)
      else dropLine agent line s
    | _ => s

/-- Both Data and Grant are there: the line is installed in the granted state, its hold time begins, and Cmp is sent. The operation for which
the agent asked is performed with it (R273); an agent that has left meanwhile gives the line up at once (Table 12-5). -/
def install (agent line : Nat) (s : State) : State :=
  match cacheLine? s agent line with
  | none => s
  | some c =>
    match c.granted with
    | none => s
    | some g =>
      if c.st = .fetching ∧ c.gotData = false then s
      else
        let s := respond .cmp agent line 0 [] 0 (putLine agent line { c with st := g, gotData := false, granted := none, hold := true, snoop := none } s)
        if g = .s ∧ holdsShared agent = false then dropLine agent line s
        else if agentUp s agent then s else evict agent line s

/-- The state that a Grant carries. -/
def grantOf : MsgKind → Option LineState
  | .grant g => some g
  | _ => none

/-- The agent waits for data or a Grant of the line. -/
def fetches (s : State) (agent line : Nat) : Bool :=
  match cacheLine? s agent line with
  | some c => c.st == .fetching || c.st == .upgrading
  | none => false

/-- Data or a Grant reaches an agent; data that finds the line already installed is discarded (R271). -/
def takeMessage (m : Msg) (s : State) : State :=
  match cacheLine? s m.dst m.line with
  | none => s
  | some c =>
    if !fetches s m.dst m.line then s
    else
      let c := match grantOf m.kind with
        | some g => { c with granted := some g }
        | none => { c with data := m.data, poison := m.poison, gotData := true }
      install m.dst m.line (putLine m.dst m.line c s)

/-- An agent is powered down or quarantined: a snoop that its holds kept is answered, dirty lines and announced clean ones are sent home, the
rest dropped (Table 12-5). -/
def leaveDomain (agent : Nat) (s : State) : State :=
  (s.coh.caches.filter fun e => e.1 / 262144 == agent).foldl (fun s e => evict agent (e.1 % 262144) (endHold agent (e.1 % 262144) s)) s

/-! ### The directory (R274–R277) -/

/-- A line's directory entry; a line without one is in DI. -/
def dirOf (s : State) (line : Nat) : Option DirEntry := SMap.find? s.coh.dir line

/-- Write a line's entry, most recently used. -/
def setDir (line : Nat) (d : DirEntry) (s : State) : State :=
  onCoh (fun c => { c with dir := SMap.insert c.dir line { d with used := c.stamp }, stamp := c.stamp + 1 }) s

/-- The line goes to DI. -/
def clearDir (line : Nat) (s : State) : State := onCoh (fun c => { c with dir := SMap.erase c.dir line }) s

/-- The line goes to DX. -/
def setOwner (line agent : Nat) (s : State) : State := setDir line ⟨true, agent, [], false, 0⟩ s

/-- Add a sharer; at a fifth the broadcast bit is set and the pointers stay (R275). -/
def addSharer (line agent : Nat) (d : DirEntry) (s : State) : State :=
  if d.sharers.contains agent then setDir line d s
  else if d.sharers.length < 4 then setDir line { d with sharers := d.sharers ++ [agent] } s
  else setDir line { d with bcast := true } s

/-- The agents that an invalidation of a shared line goes to, the requester excepted. -/
def sharersOf (line requester : Nat) (d : DirEntry) : List Nat :=
  (if d.bcast then (List.range 15).filter fun a => mayCache a line else d.sharers).filter fun a => a != requester

/-- A transaction is open on the line, or evicts its entry. -/
def lineOpen (s : State) (line : Nat) : Bool :=
  s.coh.open_.any fun t => t.req.line == line || t.victim == some line

/-- The entries of a line's set. -/
def setOf (s : State) (line : Nat) : List (Nat × DirEntry) :=
  s.coh.dir.filter fun e => sliceOf e.1 == sliceOf line && e.1 / 16 % 256 == line / 16 % 256

/-- Ways of a line's set that are disabled (Table 13-6). -/
def waysOff (s : State) (line : Nat) : Nat :=
  (s.integ.retired.filter fun r => r.1 == 0x0C && r.2 / 16 == 256 * sliceOf line + line / 16 % 256).length

/-- The least recently used entry of a line's set whose line has no open transaction. -/
def lruVictim (s : State) (line : Nat) : Option (Nat × DirEntry) :=
  let es := (setOf s line).filter fun e => !lineOpen s e.1
  es.find? fun e => es.all fun f => decide (e.2.used ≤ f.2.used)

/-- An announced eviction; every other request needs an entry for its line (R277). -/
def ReqKind.eviction (k : ReqKind) : Bool := k == .wbd || k == .evc

/-- An uncached operation. -/
def ReqKind.uncached (k : ReqKind) : Bool := k == .rdh || k == .wrh || k == .atm

/-! ### Home slices (R268–R272, Table 12-6) -/

/-- Admitted requests at a slice: open or queued; announced evictions need no admission. -/
def admitted (s : State) (slice : Nat) : Nat :=
  (s.coh.open_.filter fun t => sliceOf t.req.line == slice).length +
  (s.coh.queues.filter fun q => sliceOf q.line == slice && !q.kind.eviction).length

/-- Write the entry `t` of the open transactions. -/
def putTxn (t : Txn) (s : State) : State := onCoh (fun c => { c with open_ := c.open_.map fun x => if x.req.line = t.req.line then t else x }) s

/-- Close the transaction on a line. -/
def closeTxn (line : Nat) (s : State) : State := onCoh (fun c => { c with open_ := c.open_.filter fun x => x.req.line != line }) s

/-- Run the operation of an atomic at home: on a poisoned granule it changes nothing (R272, R280). -/
def runAtom (line i : Nat) (op : AtomOp) (s : State) : Nat × State :=
  if wordPoisoned s (granuleWord line i) then (0, poisonHit s)
  else
    let v := homeGranule s line i
    let r := atomEffect s op v
    (r.1, storeGranule line i r.2 (atomCounts s op v))

/-- Execute an uncached read, write or atomic and close its transaction; a posted atomic returns no result (R272). -/
def runUncached (q : Req) (s : State) : State :=
  let s := countSlice q.line s
  let s := match q.kind with
    | .wrh => homeSend .wrAck q.src q.line 0
        ((bitList (granuleCount q.line) q.mask).foldl (fun s i => storeGranule q.line i (q.data.getD i 0) s) s)
    | .atm =>
      let (r, s) := match q.op with
        | some op => runAtom q.line q.mask op s
        | none => (0, s)
      if q.posted then s else homeSend (.atmRsp r) q.src q.line 0 s
    | _ => send .rdRsp (homeUnit q.line) q.src q.line q.mask (homeLine s q.line) (poisonMask s q.line) s
  closeTxn q.line s

/-- Every snoop of a transaction has been answered: Grant, or execution (Table 12-6). -/
def finishTxn (t : Txn) (s : State) : State :=
  let q := t.req
  let dataH (s : State) : State := if t.fromHome then sendDataH q.src q.line s else s
  let t := { t with granted := true, fromHome := false }
  match q.kind with
  | .rds =>
    match dirOf s q.line with
    | some d =>
      let d : DirEntry := if d.dx then ⟨false, 0, [d.owner], false, 0⟩ else d
      homeSend (.grant .s) q.src q.line 0 (putTxn t (addSharer q.line q.src d (dataH s)))
    | none => homeSend (.grant .e) q.src q.line 0 (putTxn t (setOwner q.line q.src (sendDataH q.src q.line s)))
  | .rdo => homeSend (.grant .m) q.src q.line 0 (putTxn t (setOwner q.line q.src (dataH s)))
  | .upg => homeSend (.grant .m) q.src q.line 0 (putTxn t (setOwner q.line q.src (dataH s)))
  | .rdh =>
    match dirOf s q.line with
    | some d => runUncached q (if d.dx then clearDir q.line s else s)
    | none => runUncached q s
  | _ => runUncached q (clearDir q.line s)

/-- Send a snoop to each agent of a list; broadcast ones are counted. -/
def snoopAll (kind : MsgKind) (line : Nat) (bcast : Bool) : List Nat → State → State
  | [], s => s
  | a :: rest, s =>
    let s := homeSend kind a line 0 s
    snoopAll kind line bcast rest (if bcast then s.bump O.broadcastInvalidations else s)

/-- A transaction snoops and goes on at once where nobody is snooped. -/
def snoopTxn (t : Txn) (kind : MsgKind) (agents : List Nat) (bcast : Bool) (s : State) : State :=
  let t := { t with await := agents }
  if agents.isEmpty then finishTxn t s else snoopAll kind t.req.line bcast agents (putTxn t s)

/-- An agent gives up a copy in M, E or S. -/
def giveUp (agent line : Nat) (s : State) : State :=
  if (cacheLine? s agent line).any CacheLine.live then dropLine agent line s else s

/-- Run a request at the head of its line (Table 12-6); its transaction is open. A broadcast excepts its requester (R275): an agent whose
atomic it serves gives up its own copy, so that it reads no value from before the atomic (R272). -/
def runReq (t : Txn) (s : State) : State :=
  let q := t.req
  let line := q.line
  match q.kind, dirOf s line with
  | .rds, none => finishTxn t s
  | .rdo, none => finishTxn { t with fromHome := true } s
  | .upg, none => finishTxn { t with fromHome := true } s
  | .rds, some d =>
    if d.dx then
      homeSend .snpData d.owner line q.src (putTxn { t with await := [d.owner] } s)
    else finishTxn { t with fromHome := true } s
  | .rdo, some d =>
    if d.dx then homeSend .snpOwn d.owner line q.src (putTxn { t with await := [d.owner] } s)
    else snoopTxn t .snpInv (sharersOf line q.src d) d.bcast (sendDataH q.src line s)
  | .upg, some d =>
    if d.dx then
      if d.owner = q.src then illegalAt (0x10 + sliceOf line) s
      else homeSend .snpOwn d.owner line q.src (putTxn { t with await := [d.owner] } s)
    else if d.sharers.contains q.src then snoopTxn t .snpInv (sharersOf line q.src d) d.bcast s
    else snoopTxn t .snpInv (sharersOf line q.src d) d.bcast (sendDataH q.src line s)
  | .rdh, some d =>
    if d.dx then homeSend (.snpRecall false) d.owner line q.src (putTxn { t with await := [d.owner] } s) else finishTxn t s
  | _, some d =>
    if d.dx then homeSend (.snpRecall false) d.owner line q.src (putTxn { t with await := [d.owner] } s)
    else if d.bcast then snoopTxn t .snpInv (sharersOf line q.src d) true (giveUp q.src line s)
    else snoopTxn t .snpInv (sharersOf line 0xFF d) false s
  | _, none => finishTxn t s

/-- The holders that a back-invalidation of an entry goes to (R277). -/
def holdersOf (line : Nat) (d : DirEntry) : List Nat := if d.dx then [d.owner] else sharersOf line 0xFF d

/-- Start a request whose line is free: a full set first gives up its least recently used entry, or the request waits (R277). -/
def startReq (q : Req) (s : State) : Option State :=
  let t : Txn := ⟨q, [], false, false, none, []⟩
  let open_ (t : Txn) (s : State) : State := onCoh (fun c => { c with open_ := c.open_ ++ [t] }) s
  let count (s : State) : State := if q.kind.uncached then s else countSlice q.line s
  if (dirOf s q.line).isNone = true ∧ 16 ≤ (setOf s q.line).length + waysOff s q.line then
    match lruVictim s q.line with
    | none => none
    | some (v, d) =>
      let holders := holdersOf v d
      let s := snoopAll (.snpRecall true) v (!d.dx && d.bcast) holders ((count s).bump O.directoryEvictions)
      if holders.isEmpty then some (runReq t (open_ t (clearDir v s)))
      else some (open_ { t with victim := some v, victimAwait := holders } s)
  else some (runReq t (open_ t (count s)))

/-- An announced eviction at the head of its line (Table 12-6). -/
def takeEviction (q : Req) (s : State) : State :=
  match dirOf s q.line with
  | some d =>
    if d.dx ∧ d.owner = q.src then
      let s := if q.kind = .wbd then countSlice q.line (storeHomeLine q.line q.data q.poison s) else s
      homeSend .evAck q.src q.line 0 (clearDir q.line s)
    else illegalAt (0x10 + sliceOf q.line) s
  | none => illegalAt (0x10 + sliceOf q.line) s

/-- The requests at the head of lines that are free. -/
def freeHeads (s : State) : List Req :=
  s.coh.queues.filter fun q => (s.coh.queues.find? fun x => x.line == q.line) == some q && !lineOpen s q.line

/-- Start what waits at the head of free lines (R268); `n` bounds the requests started. -/
def pump : Nat → State → State
  | 0, s => s
  | n + 1, s =>
    let go := (freeHeads s).findSome? fun q =>
      let s' := onCoh (fun c => { c with queues := c.queues.erase q }) s
      if q.kind.eviction then some (takeEviction q s') else startReq q s'
    match go with
    | some s' => pump n s'
    | none => s

/-- Count the requests that have come to the head of their line and wait for a directory entry, each once (R277). -/
def noteWaits (s : State) : State :=
  let waits := (freeHeads s).filter fun q => !q.waited
  if waits.isEmpty then s
  else onCoh (fun c => { c with queues := c.queues.map fun q => if waits.contains q then { q with waited := true } else q })
    (s.bumpBy O.directoryEvictionWaits waits.length)

/-- The next waiting request of a line starts once its transaction has closed. -/
def pumpAll (s : State) : State := noteWaits (pump (s.coh.queues.length + 1) s)

/-- A request queues on its line. -/
def enqueue (q : Req) (s : State) : State := onCoh (fun c => { c with queues := c.queues ++ [q] }) s

/-- Admit a request: it queues on its line (R269, R270). -/
def admitReq (q : Req) (s : State) : State :=
  let slice := sliceOf q.line
  let s := enqueue q s
  pumpAll (s.peak (O.queuePeak slice) (admitted s slice))

/-- Tickets outstanding at a slice. -/
def tickets (s : State) (slice : Nat) : List (Nat × Req) := s.coh.nacked.filter fun n => sliceOf n.2.line == slice

/-- A request reaches home: admitted, or answered by Nack with a ticket where the slice is full or its free entries are reserved. -/
def request (q : Req) (s : State) : State :=
  let slice := sliceOf q.line
  if admitted s slice + (tickets s slice).length < 8 then admitReq q s
  else
    let t := s.coh.nextTicket.getD slice 0
    homeSend (.nack t) q.src q.line 0
      ((onCoh (fun c => { c with nextTicket := c.nextTicket.set slice (t + 1), nacked := c.nacked ++ [(t, q)] }) s).bump O.nacks)

/-- A unit sends a request, which reaches home at once unless an earlier message of the unit to that slice is before it on the channel (R266). -/
def sendReq (q : Req) (s : State) : State :=
  if (oldestOf s q.src (homeUnit q.line) 0).isSome then send (.request q) q.src (homeUnit q.line) q.line 0 [] 0 s else request q s

/-- Requests of a unit that waited behind its announced evictions on the channel reach home. -/
def arriveRequests (src dst : Nat) : Nat → State → State
  | 0, s => s
  | n + 1, s => match oldestOf s src dst 0 with
    | some m => match m.kind with
      | .request q => arriveRequests src dst n (request q (onCoh (fun c => { c with net := c.net.erase m }) s))
      | _ => s
    | none => s

/-- An announced eviction leaves the channel, and what waited behind it follows. -/
def evictionGone (m : Msg) (s : State) : State := arriveRequests m.src m.dst s.coh.net.length s

/-- A snooped agent no longer holds the line: its pointer goes, and a stale one is counted (R276). -/
def dropPointer (agent line : Nat) (stale : Bool) (s : State) : State :=
  match dirOf s line with
  | none => s
  | some d =>
    let named := if d.dx then d.owner == agent else d.sharers.contains agent
    let s := if stale && named then s.bump O.staleSnoops else s
    if d.dx then (if d.owner = agent then clearDir line s else s)
    else onCoh (fun c => { c with dir := SMap.insert c.dir line { d with sharers := d.sharers.filter fun a => a != agent } }) s

/-- An agent has answered: the transaction, or the eviction of a victim's entry, goes on once every answer is there. -/
def answered (agent line : Nat) (gone : Bool) (s : State) : State :=
  match s.coh.open_.find? fun t => t.req.line == line && t.await.contains agent with
  | some t =>
    let wasDx := match t.req.kind with
      | .rds => true
      | .rdo | .upg => (dirOf s line).isNone || ((dirOf s line).map (·.dx)) == some true
      | _ => false
    let t := { t with await := t.await.filter fun a => a != agent, fromHome := t.fromHome || (gone && wasDx) }
    if t.await.isEmpty then pumpAll (finishTxn t s) else putTxn t s
  | none => match s.coh.open_.find? fun t => t.victim == some line && t.victimAwait.contains agent with
    | some t =>
      let rest := t.victimAwait.filter fun a => a != agent
      if rest.isEmpty then
        let t := { t with victim := none, victimAwait := [] }
        pumpAll (runReq t (putTxn t (clearDir line s)))
      else putTxn { t with victimAwait := rest } s
    | none => s

/-- Home takes an announced eviction that a snoop has crossed as the agent's answer: its data if WbD, and EvAck (R278). -/
def absorbCrossing (dirty : Bool) (agent line : Nat) (data : List Nat) (poison : Nat) (s : State) : State :=
  let s := onCoh (fun c => { c with crossing := c.crossing.erase (agent, line) }) s
  let s := if dirty then countSlice line (storeHomeLine line data poison s) else s
  answered agent line true (dropPointer agent line false (homeSend .evAck agent line 0 s))

/-- RspEvInFlight reaches home: the eviction is taken from the line's queue at once, or as it arrives behind what its sender sent before it
(R266, R278). -/
def crossEviction (agent line : Nat) (s : State) : State :=
  let s := s.bump O.evictionCrossings
  match s.coh.queues.find? fun q => q.src == agent && q.line == line && q.kind.eviction with
  | some q => absorbCrossing (q.kind == .wbd) agent line q.data q.poison (onCoh (fun c => { c with queues := c.queues.erase q }) s)
  | none =>
    if s.coh.net.any fun m => m.src == agent && m.line == line && (m.kind == .wbd || m.kind == .evc) then
      onCoh (fun c => { c with crossing := c.crossing ++ [(agent, line)] }) s
    else illegalAt (0x10 + sliceOf line) s

/-- An announced eviction arrives at home: as the answer that a snoop awaits, or it queues on its line. -/
def landEviction (k : ReqKind) (m : Msg) (s : State) : State :=
  evictionGone m (if s.coh.crossing.contains (m.src, m.line) then absorbCrossing (k == .wbd) m.src m.line m.data m.poison s
    else pumpAll (enqueue ⟨k, m.src, m.line, 0, m.data, m.poison, none, false, false⟩ s))

/-- A message that is no longer in flight takes its effect. -/
def landMsg (m : Msg) (s : State) : State :=
  match m.kind with
  | .request q => request q s
  | .wbd => landEviction .wbd m s
  | .evc => landEviction .evc m s
  | .cmp => pumpAll (closeTxn m.line s)
  | .snpData | .snpOwn | .snpInv | .snpRecall _ => takeSnoop m.dst m.line m.kind m.req s
  | .dataFwd | .dataH | .grant _ => takeMessage m s
  | .rspI => answered m.src m.line true (dropPointer m.src m.line (m.req == 1) s)
  | .rspFwd => answered m.src m.line false s
  | .rspFwdData => answered m.src m.line false (storeHomeLine m.line m.data m.poison s)
  | .rspData => answered m.src m.line true (dropPointer m.src m.line false (storeHomeLine m.line m.data m.poison s))
  | .rspEvInFlight => crossEviction m.src m.line s
  | .atmRsp r => onCoh (fun c => { c with results := (c.results.filter fun x => x.1 != m.dst) ++ [(m.dst, r)] }) s
  | .evAck => dropLine m.dst m.line s
  | .nack _ | .wrAck | .rdRsp => s

/-- A message is delivered. -/
def deliver (m : Msg) (s : State) : State := landMsg m (onCoh (fun c => { c with net := c.net.erase m }) s)

/-! ### The device's own operations at home (R268–R272, R277, R279) -/

/-- A Nacked request of a slice retries: the lowest ticket, where an entry is free for it (R270). -/
def lowestRetry (slice : Nat) (s : State) : Option State :=
  match (tickets s slice).find? fun n => (tickets s slice).all fun x => decide (n.1 ≤ x.1) with
  | some n =>
    if admitted s slice < 8 then
      some (admitReq n.2 (onCoh (fun c => { c with nacked := c.nacked.erase n }) s))
    else none
  | none => none

/-- What happens next in the domain while an operation of the device waits at a slice: the oldest message in flight is delivered, else a Nacked
request of the slice retries, else a hold that keeps a snoop ends. -/
def domainMoves (slice : Nat) (s : State) : Option State :=
  match s.coh.net with
  | m :: _ => some (deliver m s)
  | [] => match lowestRetry slice s with
    | some s => some s
    | none => (s.coh.caches.find? fun e => e.2.hold && e.2.snoop.isSome).map fun e => endHold (e.1 / 262144) (e.1 % 262144) s

/-- The request of the device still waits: queued, open or Nacked. No message request is an atomic without an operation. -/
def deviceWaits (kind : ReqKind) (req line : Nat) (s : State) : Bool :=
  let mine (q : Req) : Bool := q.kind == kind && q.src == req && q.line == line && q.op.isNone && q.posted
  s.coh.queues.any mine || s.coh.open_.any (fun t => mine t.req) || s.coh.nacked.any fun n => mine n.2

/-- Let the domain go on while the device waits at a slice; `n` bounds the moves. -/
def settleWhile (waits : State → Bool) (slice : Nat) : Nat → State → State
  | 0, s => s
  | n + 1, s =>
    if !waits s then s
    else match domainMoves slice s with
      | some s => settleWhile waits slice n s
      | none => s

/-- Moves that suffice for everything under way in the domain. -/
def movesBound (s : State) : Nat := 64 * (s.coh.open_.length + s.coh.queues.length + s.coh.net.length + s.coh.nacked.length + 1)

/-- An operation of the device on a line takes its turn at home as a request of unit `req` that carries no operands of its own: the command gives
it its effect there. A read leaves no RdRsp, which the command has with it. -/
def deviceTurn (kind : ReqKind) (req line : Nat) (s : State) : State :=
  let s := request ⟨kind, req, line, 0, [], 0, none, true, false⟩ s
  let s := settleWhile (deviceWaits kind req line) (sliceOf line) (movesBound s) s
  if kind = .rdh then onCoh (fun c => { c with net := c.net.filter fun m => !(m.dst == req && m.line == line && m.kind == .rdRsp) }) s else s

/-- A home requester of the device whose unit number the manual does not give: no message row names it. -/
def homeUser : Nat := 0xFF

/-- A write or an atomic of the device (WrH, Atm): afterwards home's memory is current and nobody holds the line (Table 12-6). -/
def writeTurn (req line : Nat) (s : State) : State := deviceTurn .atm req line s

/-- An operation of home itself on a line that leaves every copy where it is waits until no transaction or request stands on the line (R268). -/
def settleFree (line : Nat) (s : State) : State :=
  countSlice line (settleWhile (fun s => lineOpen s line || s.coh.queues.any fun q => q.line == line) (sliceOf line) (movesBound s) s)

/-- A read of the device (RdH): an M or E copy is recalled, sharers stay. -/
def readAtHome (line : Nat) (s : State) : State := deviceTurn .rdh homeUser line s

/-- An atomic of unit `req` on the line of cell `g` is at its turn at home. -/
def atHomeFor (req g : Nat) (s : State) : State := writeTurn req (lineOf g) s

/-- An operation of the device on the line of cell `g` is at its turn at home. -/
def atHome (g : Nat) (s : State) : State := atHomeFor homeUser g s

/-- The device writes a 16-byte granule at home; a whole-granule write clears poison (R281). -/
def storeCell (g v : Nat) (s : State) : State := setPoison (lineOf g) (g % 4) false (storeHome g v s)


/-- An operation of the device writes a 16-byte granule, at its turn at home. -/
def writeGranule (g v : Nat) (s : State) : State := storeCell g v (atHome g s)

/-- The compare-and-swap of the slice of extended bucket `b`: way `w` of its tag word takes `v` (R196). -/
def writeTagWay (b w v : Nat) (s : State) : State :=
  let s := atHome (tagGranule b) s
  storeGranule (tagWord b / 8) (tagWord b % 8) (setBits (readTag s b) (16 * w + 15) (16 * w) v) s

end Sys2Proof.Machine
end

