-- ==== Sys2Proof/Machine/Results.lean ====
section
/-! DEFINITION. Result records, Weir meters and counter pairs: their fields, the meter algorithms, and the commands and images
that write them (R222–R238). -/

namespace Sys2Proof.Machine

/-! ### The result record (Table 10-1) -/

/-- Action of a record. -/
def recAction (r : Nat) : Nat := bits r 127 125

/-- EgressPriority of a record. -/
def recPriority (r : Nat) : Nat := bits r 124 122

/-- Mirror bit of a record. -/
def recMirror (r : Nat) : Nat := bits r 121 121

/-- Host bit of a record. -/
def recHost (r : Nat) : Nat := bits r 120 120

/-- Sealed bit of a record. -/
def recSealed (r : Nat) : Bool := bit r 119

/-- Valid bit of a record. -/
def recValid (r : Nat) : Bool := bit r 118

/-- MeterEnable of a record. -/
def recMeterEnable (r : Nat) : Bool := bit r 117

/-- CountEnable of a record. -/
def recCountEnable (r : Nat) : Bool := bit r 116

/-- DestSetId of a record. -/
def recDest (r : Nat) : Nat := bits r 115 100

/-- TransformId of a record. -/
def recTransform (r : Nat) : Nat := bits r 99 84

/-- MirrorSetId of a record. -/
def recMirrorSet (r : Nat) : Nat := bits r 83 68

/-- MeterId of a record. -/
def recMeter (r : Nat) : Nat := bits r 67 51

/-- CounterId of a record. -/
def recCounter (r : Nat) : Nat := bits r 50 33

/-- AuthProfile of a record. -/
def recAuth (r : Nat) : Nat := bits r 32 25

/-- KeyHandle of a record. -/
def recKey (r : Nat) : Nat := bits r 24 13

/-- A record keeps the format that R227 demands of one written to the Reservoir (store 0) or the Verdict Store (store 1). -/
def recordFormatOk (store r : Nat) : Bool :=
  decide (recAction r < 6) && bits r 12 0 == 0 && !recSealed r && !(store == 1 && recCountEnable r) &&
  (recMeterEnable r || recMeter r == 0) && (recCountEnable r || recCounter r == 0) && (recAuth r != 0 || recKey r == 0) &&
  decide (recDest r < 4096) && decide (recMirrorSet r < 4096) &&
  decide (recMeter r < (if store = 1 then 16384 else 131072)) && decide (recCounter r < 262144)

/-- Records in a store. -/
def recordCount (store : Nat) : Nat := if store = 1 then 16384 else 262144

/-- Read a record of a store. -/
def readRecord (store i : Nat) (s : State) : Nat := if store = 1 then SMap.get 0 s.results.verdict i else readGranule s i

/-- Write a record whole, and through to its shadow (R227); an uncorrectable word there is one no longer. -/
def writeRecord (store i r : Nat) (s : State) : State :=
  if store = 1 then
    { s with results := { s.results with
        verdict := SMap.set 0 s.results.verdict i r
        bad := SMap.erase s.results.bad (2 ^ 20 + i)
        verdictShadow := if s.flag O.shadowReady then SMap.set 0 s.results.verdictShadow i r else s.results.verdictShadow } }
  else writeGranule i r s

/-! ### Meters (R228–R233) -/

/-- A colour action byte: Code with Priority for DEMOTE, else 0. -/
def colourActionOk (b : Nat) : Bool := bits b 7 6 == 3 || bits b 5 3 == 0

/-- A meter profile keeps Table 10-3; its reserved fields are ignored (R3). -/
def meterProfileOk (p : Bytes) : Bool :=
  let m := profMode p
  colourActionOk (u8 p 1) && colourActionOk (u8 p 2) && colourActionOk (u8 p 3) &&
  (m == 0 || (decide (1 ≤ profCir p) && decide (1 ≤ profCbs p))) && decide (profCbs p ≤ 16777215) &&
  (if m = 2 then decide (profCir p ≤ profPir p) else profPir p == 0) &&
  (if m = 1 then decide (profEbs p ≤ 16777215)
   else if m = 2 then decide (profCbs p ≤ profEbs p ∧ profEbs p ≤ 16777215) else profEbs p == 0)

/-- Meters in a store. -/
def meterCount (store : Nat) : Nat := if store = 1 then 16384 else 131072

/-- Read a meter of a store. -/
def readMeter (store i : Nat) (s : State) : Nat :=
  if store = 1 then SMap.get 0 s.results.flumeMeters i else readGranule s (meterGranule i)

/-- Write a meter whole at its store, and its ProfileId and Valid through to the shadow; an uncorrectable word there is one no longer. -/
def writeMeter (store i m : Nat) (s : State) : State :=
  if store = 1 then
    { s with results := { s.results with
        flumeMeters := SMap.set 0 s.results.flumeMeters i m
        bad := SMap.erase s.results.bad (2 ^ 21 + i)
        flumeShadow := if s.flag O.shadowReady then SMap.set 0 s.results.flumeShadow i (m / 2 ^ 117 * 2 ^ 117)
          else s.results.flumeShadow } }
  else writeGranule (meterGranule i) m s

/-- The Weir engine of a meter (R232). -/
def weirOf (m : Nat) : Nat := 0x0C + m / 4 % 2

/-- The Weir engine's copy of a Reservoir meter's line, while it holds it M or E. -/
def weirCopy (s : State) (i : Nat) : Option CacheLine :=
  (cacheLine? s (weirOf i) (lineOf (meterGranule i))).filter fun c => c.st == .m || c.st == .e

/-- A meter is reached where R232 says: one of the Flume at hand, one of the Reservoir in its Weir engine's cache, else at home. -/
def reachMeter (flume : Bool) (i : Nat) (s : State) : State :=
  if flume || (weirCopy s i).isSome then s else atHomeFor (weirOf i) (meterGranule i) s

/-- A meter that has been reached is poisoned (R280). -/
def meterPoisoned (flume : Bool) (i : Nat) (s : State) : Bool := !flume && readsPoison s (weirOf i) (2 * meterGranule i)

/-- Update a Reservoir meter where it has been reached. -/
def updateMeterAt (i m : Nat) (s : State) : State :=
  let g := meterGranule i
  match weirCopy s i with
  | some c => (putLine (weirOf i) (lineOf g) { c with st := .m, data := setAt c.data (g % 4) m } s).bump O.weirCacheUpdates
  | none => (storeCell g m s).bump O.weirHomeUpdates

/-- Run the update of a meter that has been reached, for a search: the colour, or none where the granule is poisoned (R230, R232, R280). -/
def meterUpdate (live : SMap Nat) (flume : Bool) (i len pre : Nat) (s : State) : Option Nat × State :=
  if meterPoisoned flume i s then (none, poisonHit s)
  else
    let m := readMeter (b2n flume) i s
    let prof := meterProfileIn live (meterProfileId m)
    if !meterValid m || profMode prof == 0 then (some 3, s.bump O.unconfiguredMeters)
    else
      let r := meterStep prof (elapsed s) (meterCost prof len) (preColourOf prof pre) m
      if flume then (some r.1, (writeMeter 1 i r.2 s).bump O.flumeMeterUpdates) else (some r.1, updateMeterAt i r.2 s)

/-- METER_IDLE_REFRESH: an update that costs nothing of a valid meter not updated for 2^42 ns, in FRAME mode too, so that no colour depends on
it (R231, R236). A lost meter of the Flume waits for its restoration; on a poisoned one of the Reservoir the atomic fails (R280). -/
def execMeterIdleRefresh (flume : Bool) (meter : Nat) (s : State) : Result :=
  onUnit (meter < meterCount (b2n flume)) (
    let m := readMeter (b2n flume) meter s
    let prof := meterProfileIn s.dict.live (meterProfileId m)
    let idle := (elapsed s + 2 ^ 44 - bits m 115 72) % 2 ^ 44
    if !s.power.core || (flume && SMap.get false s.results.bad (2 ^ 21 + meter)) || !meterValid m || profMode prof == 0 || idle < 2 ^ 42 ||
      (!flume && s.val O.domainState != 0) then s
    else
      let s := reachMeter flume meter s
      if meterPoisoned flume meter s then poisonHit s
      else
        let r := meterStep prof (elapsed s) 0 0 (readMeter (b2n flume) meter s)
        let s := s.bump O.idleRefreshes
        if flume then writeMeter 1 meter r.2 s else updateMeterAt meter r.2 s)

/-! ### Sealed records and meters (R228, R319) -/

/-- The Marionette that dumps cells of the Reservoir reads their lines by RdH: an M or E copy is recalled, and what stands on the line is done first
(R263, R279). -/
def readLines (first past : Nat) (s : State) : State :=
  let cells := (s.coh.home.map (·.1)).filter fun g => first ≤ g && g < past
  let held := (s.coh.dir.map (·.1)).filter fun l => first / 4 ≤ l && l < past / 4
  (cells.map lineOf ++ held).eraseDups.foldl (fun s l => readAtHome l s) s

/-- The listed records of a store. -/
def listedRecords (store : Nat) (s : State) : List (Nat × Nat) :=
  if store = 1 then s.results.verdict
  else (s.coh.home.filter fun e => e.1 < 0x40000).map fun e => (e.1, readGranule s e.1)

/-- A meter named by a sealed record is sealed. -/
def meterSealed (store m : Nat) (s : State) : Bool :=
  (listedRecords store s).any fun e => recSealed e.2 && recMeterEnable e.2 && recMeter e.2 == m

/-- A profile that a sealed meter uses is sealed. -/
def meterProfileSealed (p : Nat) (s : State) : Bool :=
  [0, 1].any fun st => (listedRecords st s).any fun e =>
    recSealed e.2 && recMeterEnable e.2 && meterProfileId (readMeter st (recMeter e.2) s) == p

/-! ### Counter pairs (R234, R235) -/

/-- A pair with frames and bytes added, each modulo 2^64. -/
def addPair (v frames bytes : Nat) : Nat :=
  (v % 2 ^ 64 + frames) % 2 ^ 64 + (v / 2 ^ 64 % 2 ^ 64 + bytes) % 2 ^ 64 * 2 ^ 64

/-- Post a counter fetch-add to the pair's home slice. -/
def postCount (c len : Nat) (s : State) : State :=
  { s with results := { s.results with posted := s.results.posted ++ [(c, 1, len)] } }

/-- COUNTER_FETCH_ADD: the oldest posted fetch-add of a home slice executes; on a poisoned pair it is discarded (R234, R280). -/
def execCounterFetchAdd (home : Nat) (s : State) : Result :=
  onUnit (home < 16) (
    let mine := fun (p : Nat × Nat × Nat) => sliceOf (lineOf (counterGranule p.1)) == home
    match s.results.posted.find? mine with
    | none => s
    | some p =>
      if s.val O.domainState ≠ 0 then s
      else
        let s := { s with results := { s.results with posted := s.results.posted.erase p } }
        let g := counterGranule p.1
        let s := atHome g s
        if poisoned s g then poisonHit s else storeCell g (addPair (readGranule s g) p.2.1 p.2.2) s)

/-! ### Ring operations: RESULT_WRITE, METER_CONFIGURE, COUNTER_READ_CLEAR -/

/-- RESULT_WRITE's checks and effect (R227); `wait` until the shadow can take the write-through (R296), unless LPDDR5 failed. -/
def opResultWrite (d : Bytes) (s : State) : OpRes :=
  let store := u8 d 8
  let i := le d 12 4
  let r := le d 16 16
  if 1 < store ∨ allZero d 9 3 = false ∨ allZero d 32 32 = false then .fail 0x14 0x2112 s
  else if recordCount store ≤ i then .fail 0x14 0x2811 s
  else if !recordFormatOk store r then .fail 0x14 0x2810 s
  else if recSealed (readRecord store i s) then .fail 0x13 0 s
  else if store = 0 ∧ s.val O.shadowReady = 0 ∧ s.val O.lpddrState ≠ 4 then .wait
  else .done 0 0 (writeRecord store i r s)

/-- Configure the meters from `i` on, `n` of them. -/
def configureMeters (store profile : Nat) (valid : Bool) (i : Nat) : Nat → State → State
  | 0, s => s
  | n + 1, s => configureMeters store profile valid (i + 1) n (writeMeter store i (freshMeter s profile valid) s)

/-- METER_CONFIGURE's checks and effect (R233). -/
def opMeterConfigure (d : Bytes) (s : State) : OpRes :=
  let store := u8 d 8
  let profile := le d 10 2
  let first := le d 12 4
  let n := le d 16 2
  if 1 < store ∨ 1 < u8 d 9 ∨ allZero d 18 46 = false then .fail 0x14 0x2112 s
  else if meterCount store < first + n then .fail 0x14 0x2812 s
  else if 1023 < profile ∨ n = 0 ∨ 4096 < n then .fail 0x14 0x2810 s
  else if (List.range n).any fun j => meterSealed store (first + j) s then .fail 0x13 0 s
  else .done 0 0 (configureMeters store profile (u8 d 9 == 1) first n s)

/-- What COUNTER_READ_CLEAR reads of a pair: all ones where it is poisoned (R280). -/
def pairRead (c : Nat) (s : State) : Nat :=
  if poisoned s (counterGranule c) then 2 ^ 128 - 1 else readGranule s (counterGranule c)

/-- COUNTER_READ_CLEAR's checks and effect (R235); `ok` says whether host memory takes the writes. -/
def opCounterReadClear (ok : Bool) (d : Bytes) (s : State) : OpRes :=
  let first := le d 8 4
  let n := le d 12 4
  let addr := le d 16 8
  if 1 < u8 d 24 ∨ allZero d 25 39 = false ∨ addr % 16 ≠ 0 ∨ n = 0 ∨ 65536 < n then .fail 0x14 0x2112 s
  else if 262144 < first + n then .fail 0x14 0x2813 s
  else if !ok then .fail 0x17 0x2115 s
  else
    let s := (List.range n).foldl (fun s j => atHome (counterGranule (first + j)) s) s
    let data := ((List.range n).map fun j => leBytes 16 (pairRead (first + j) s)).flatten
    let s := emit (.hostWrite addr data) s
    .done 0 n (if u8 d 24 = 1 then (List.range n).foldl (fun s j => storeCell (counterGranule (first + j)) 0 s) s else s)

/-! ### Images of TableKinds 5 and 6 (R237) -/

/-- An image record of TableKind 5 keeps its format. -/
def recordImageOk (store : Nat) (b : Bytes) : Bool :=
  allZero b 4 4 && allZero b 24 8 && decide (le b 0 4 < recordCount store) && recordFormatOk store (le b 8 16)

/-- An image record of TableKind 6 keeps its format. -/
def meterImageOk (store : Nat) (b : Bytes) : Bool :=
  allZero b 4 4 && decide (u8 b 10 ≤ 1) && allZero b 11 5 && decide (le b 0 4 < meterCount store) && decide (le b 8 2 ≤ 1023)

/-- No index repeats in an image of 32-byte records. -/
def indicesDistinct (rs : List Bytes) : Bool := (rs.map fun b => le b 0 4).Nodup

/-- BULK_LOAD of result records. -/
def loadRecords (store : Nat) (img : Bytes) (s : State) : OpRes :=
  let rs := records 32 img
  if 1 < store ∨ img.length % 32 ≠ 0 ∨ (rs.all (recordImageOk store) && indicesDistinct rs) = false then .fail 0x14 0x2814 s
  else if rs.any fun b => recSealed (readRecord store (le b 0 4) s) then .fail 0x13 0 s
  else if store = 0 ∧ s.val O.shadowReady = 0 ∧ s.val O.lpddrState ≠ 4 then .wait
  else .done 0 rs.length (rs.foldl (fun s b => writeRecord store (le b 0 4) (le b 8 16) s) s)

/-- BULK_LOAD of meters: State is ignored, each meter configured as METER_CONFIGURE does. -/
def loadMeters (store : Nat) (img : Bytes) (s : State) : OpRes :=
  let rs := records 32 img
  if 1 < store ∨ img.length % 32 ≠ 0 ∨ (rs.all (meterImageOk store) && indicesDistinct rs) = false then .fail 0x14 0x2814 s
  else if rs.any fun b => meterSealed store (le b 0 4) s then .fail 0x13 0 s
  else .done 0 rs.length (rs.foldl (fun s b => writeMeter store (le b 0 4) (freshMeter s (le b 8 2) (u8 b 10 == 1)) s) s)

/-- The sealed records of a store become those of a bundle's image (R318); none where the image fails its checks. -/
def sealRecords (store : Nat) (img : Bytes) (s : State) : Option State :=
  let rs := records 32 img
  if 1 < store ∨ img.length % 32 ≠ 0 ∨ (rs.all (recordImageOk store) && indicesDistinct rs) = false then none
  else
    let s := ((listedRecords store s).filter fun e => recSealed e.2).foldl (fun s e => writeRecord store e.1 0 s) s
    some (rs.foldl (fun s b => writeRecord store (le b 0 4) (le b 8 16 + 2 ^ 119) s) s)

/-- The meters of a sealed image are configured, and those that only the earlier image `old` named become not valid. -/
def sealMeters (store : Nat) (img old : Bytes) (s : State) : Option State :=
  let rs := records 32 img
  if 1 < store ∨ img.length % 32 ≠ 0 ∨ (rs.all (meterImageOk store) && indicesDistinct rs) = false then none
  else
    let s := (records 32 old).foldl (fun s b => if rs.any fun r => le r 0 4 == le b 0 4 then s else writeMeter store (le b 0 4) 0 s) s
    some (rs.foldl (fun s b => writeMeter store (le b 0 4) (freshMeter s (le b 8 2) (u8 b 10 == 1)) s) s)

/-- The dump image of result records: every record that is not all zero, in index order. -/
def dumpRecords (store : Nat) (s : State) : Bytes :=
  ((listedRecords store s).filter fun e => e.2 != 0).flatMap fun e => leBytes 4 e.1 ++ zeros 4 ++ leBytes 16 e.2 ++ zeros 8

/-- The listed meters of a store. -/
def listedMeters (store : Nat) (s : State) : List (Nat × Nat) :=
  if store = 1 then s.results.flumeMeters
  else
    let lines := (s.coh.home.filter fun e => 0x80000 ≤ e.1 && e.1 < 0xA0000).map fun e => e.1 - 0x80000
    lines.map fun i => (i, readMeter 0 i s)

/-- The dump image of meters: every valid meter in index order, with its state. -/
def dumpMeters (store : Nat) (s : State) : Bytes :=
  ((listedMeters store s).filter fun e => meterValid e.2).flatMap fun e =>
    leBytes 4 e.1 ++ zeros 4 ++ leBytes 2 (meterProfileId e.2) ++ [1#8] ++ zeros 5 ++ leBytes 16 e.2

end Sys2Proof.Machine
end

