-- ==== Sys2Proof/Machine/Scratch.lean ====
section
/-! DEFINITION. The scratchpad: its window, its alias windows, bank ownership and codes, and images in banks (R71–R81). -/

namespace Sys2Proof.Machine

/-- The scratchpad's size, and that of BAR2. -/
def scratchBytes : Nat := 4194304

/-- The bank of a word (R71). -/
def bankOfWord (w : Nat) : Nat := w % 32

/-- The owner of bank `b` (Table 3-10). -/
def ownerOf (s : State) (b : Nat) : Nat := s.val (O.bankOwner b)

/-- The words that bytes [off, off + n) touch. -/
def wordsTouched (off n : Nat) : List Nat := if n = 0 then [] else (List.range ((off + n - 1) / 8 - off / 8 + 1)).map fun i => off / 8 + i

/-- The banks that an access touches, each once, ascending. -/
def banksTouched (off n : Nat) : List Nat :=
  let ws := wordsTouched off n
  (List.range 32).filter fun b => ws.any fun w => bankOfWord w == b

/-- A requester may access a bank: it owns it, and the bank is not quarantined (R73, R400). -/
def mayAccess (s : State) (owner b : Nat) : Bool := ownerOf s b == owner && !bit s.modes.quarantine (0x20 + b)

/-- The banks of a list that an owner may not access. -/
def refusedBanks (s : State) (owner : Nat) (bs : List Nat) : List Nat := bs.filter fun b => !mayAccess s owner b

/-- Count a refusal in each bank refused (R75). -/
def countRefusals (bs : List Nat) (s : State) : State := bs.foldl (fun s b => s.bump (O.bankRefusals b)) s

/-- A window access is refused: counted per bank, and once for the window (R75). -/
def refuseWindow (bs : List Nat) (s : State) : State := (countRefusals bs s).bump O.refusedWindowAccesses

/-- Change the scratchpad. -/
def onScratch (f : Scratch → Scratch) (s : State) : State := { s with scratch := f s.scratch }

/-- The word holds an uncorrectable error. -/
def wordBad (s : State) (w : Nat) : Bool := (SMap.find? s.scratch.bad w).isSome

/-- The word is written whole: an uncorrectable error in it is gone (R80). -/
def clearBad (w : Nat) (s : State) : State := onScratch (fun x => { x with bad := SMap.erase x.bad w }) s

/-- Which of a word's eight bytes an access [off, off + n) enables. -/
def byteMask (off n w : Nat) : Nat :=
  ((List.range 8).filter fun i => decide (off ≤ 8 * w + i ∧ 8 * w + i < off + n)).foldl (fun m i => m ||| 2 ^ i) 0

/-- What writing some bytes of one word does beside its bytes: it is no candidate (R302), a whole word discards its merge entry and clears an error, a
narrow write merges, and writes the word whole when that completes it (R297). -/
def touchWord (off n : Nat) (s : State) (w : Nat) : State :=
  let m := byteMask off n w
  let s := wrote 0x0F w s
  if m = 255 then clearBad w (mergeDiscard (bankOfWord w) w s)
  else
    let (full, s) := mergeWriteFull (bankOfWord w) w m s
    if full then clearBad w s else s

/-- Write bytes into the scratchpad. -/
def scratchWrite (off : Nat) (data : Bytes) (s : State) : State :=
  onScratch (fun x => { x with mem := Memory.writeBytes x.mem off data }) ((wordsTouched off data.length).foldl (touchWord off data.length) s)

/-- Read bytes of the scratchpad, as the merge buffers show them. -/
def scratchRead (s : State) (off n : Nat) : Bytes := Memory.readBytes s.scratch.mem off n

/-- The port of bank `b` that a requester uses: A for the window and the block mover, B for the others (R72). -/
def portOf (master b : Nat) : Nat := 2 * b + (if master ≤ 2 then 0 else 1)

/-- A requester's access at one bank: its port's arbiter grants it. DESIGN CHOICE: whether the port was busy with another requester of it, and whether
another requester's access met a write on the same word there as Table 3-11 counts it, follows from arrivals that no command tells: a free bit
decides each (R7, R72, R78). -/
def contendAt (master : Nat) (write : Bool) (s : State) (b : Nat) : State :=
  let s := onScratch (fun x => { x with granted := SMap.set 0 x.granted (portOf master b) master }) s
  let (n, s) := drawFresh s
  let s := if Config.arbiter n then s.bump (O.masterConflicts (master - 1)) else s
  if write then
    let (n, s) := drawFresh s
    if Config.arbiter n then s.bump (O.bankCollisions b) else s
  else s

/-- A granted access of a requester (1 the window, 2 the block mover, 3–6 the Marionettes, 7 Tally, 8 Culvert), bank by bank. -/
def contend (master : Nat) (banks : List Nat) (write : Bool) (s : State) : State := banks.foldl (contendAt master write) s

/-- The endpoint reaches the scratchpad, whose fill is complete (R293). -/
def windowUp (s : State) : Bool := s.power.core && s.modes.fillDone && !bit s.modes.refLost 3

/-- The endpoint answers: the core is powered and K4 has its reference (R16). -/
def endpointPowered (s : State) : Bool := s.power.core && !bit s.modes.refLost 3

/-- A poisoned write TLP, or a write outside every BAR or refused, is discarded and logged through AER (R53, R75). -/
def discardTlp (s : State) : State := emit .aer s

/-- SCRATCHPAD_WINDOW_WRITE (R71, R75, R297). -/
def execScratchpadWindowWrite (offset : Nat) (data : Bytes) (poisoned : Bool) (s : State) : Result :=
  .next (
    if !windowUp s then s
    else if poisoned ∨ scratchBytes < offset + data.length then discardTlp s
    else
      let no := refusedBanks s 0 (banksTouched offset data.length)
      if no.isEmpty then scratchWrite offset data (contend 1 (banksTouched offset data.length) true s) else discardTlp (refuseWindow no s))

/-- The data of a read, each byte of an uncorrectable word a free value. -/
def readWithFree (s : State) (off n : Nat) : Bytes :=
  (scratchRead s off n).mapIdx fun i b => if wordBad s ((off + i) / 8) then BitVec.ofNat 8 (Config.freeValue (s.fresh + i)).toNat else b

/-- A read of the host at a scratchpad offset: the data, a Completer Abort, or a poisoned completion (R75, R80). -/
def windowRead (offset length : Nat) (s : State) : State :=
  if scratchBytes < offset + length then emit (.pcie 1 []) s
  else
    let no := refusedBanks s 0 (banksTouched offset length)
    if !no.isEmpty then emit (.pcie 4 []) (refuseWindow no s)
    else
      let s := contend 1 (banksTouched offset length) false s
      if (wordsTouched offset length).any (wordBad s) then
        emit .aer (emit (.pcie 8 (readWithFree s offset length)) { s with fresh := s.fresh + length })
      else emit (.pcie 0 (scratchRead s offset length)) s

/-- SCRATCHPAD_WINDOW_READ: of BAR2, or through an alias window of BAR4, which returns the words as BAR2 does (R71, R77). PRESUMED: no read
crosses from one alias window into the other, since PCIe lets no request cross a 4 KiB boundary. -/
def execScratchpadWindowRead (at_ : WindowAt) (length : Nat) (s : State) : Result :=
  .next (
    if !windowUp s then s
    else if at_.bar4 && decide (2 * scratchBytes < at_.offset + length) then emit (.pcie 1 []) s
    else windowRead (if at_.bar4 then at_.offset % scratchBytes else at_.offset) length s)

/-- One byte of an alias operation. -/
def aliasByte (set : Bool) (old d : Byte) : Byte := if set then old ||| d else old &&& (~~~ d)

/-- A write through the bit-set or bit-clear window: an atomic read-modify-write of each word, on the enabled bytes (R77); a poisoned one is
discarded and logged (R53). -/
def aliasWrite (set : Bool) (offset : Nat) (data : Bytes) (poisoned : Bool) (s : State) : State :=
  if !windowUp s then s
  else if poisoned ∨ scratchBytes < offset + data.length then discardTlp s
  else
    let no := refusedBanks s 0 (banksTouched offset data.length)
    if !no.isEmpty then discardTlp (refuseWindow no s)
    else
      let s := contend 1 (banksTouched offset data.length) true s
      let s := (wordsTouched offset data.length).foldl (fun s w => wrote 0x0F w (mergeDiscard (bankOfWord w) w s)) s
      let new := List.zipWith (aliasByte set) (scratchRead s offset data.length) data
      onScratch (fun x => { x with mem := Memory.writeBytes x.mem offset new }) s

/-- ALIAS_BIT_SET (R77). -/
def execAliasBitSet (offset : Nat) (tlp : AliasWrite) (s : State) : Result := .next (aliasWrite true offset tlp.data tlp.poisoned s)

/-- ALIAS_BIT_CLEAR (R77); `offset` is the scratchpad offset. -/
def execAliasBitClear (offset : Nat) (tlp : AliasWrite) (s : State) : Result := .next (aliasWrite false offset tlp.data tlp.poisoned s)

/-! ### Ownership and codes -/

/-- Fill a bank with zeros (R76, R79). -/
def fillBank (b : Nat) (s : State) : State :=
  onInteg (fun i => { i with merge := i.merge.filter fun e => e.bank != b })
    (onScratch (fun x => { x with
      mem := x.mem.filter fun c => bankOfWord (c.1 / 8) != b, bad := SMap.filterKeys (fun w => bankOfWord w != b) x.bad }) s)

/-- Banks that a ring command in execution names: its BankMask, while it waits. -/
def banksInUse (s : State) : Nat :=
  s.host.rings.foldl (fun m g => if g.waiting.isSome && [0x31, 0x32, 0x38].contains (dsOpcode g.desc) then m ||| le g.desc 12 4 else m) 0

/-- Hand every bank of a mask to an owner together (R74). -/
def handOver (mask code : Nat) (s : State) : Option (Nat × Nat) × State :=
  if mask &&& (s.val O.tallyBanks ||| s.val O.culvertBanks) ≠ 0 then (some (0x08000022, 0x2102), s)
  else if mask &&& banksInUse s ≠ 0 then (some (0x08000022, 0x2101), s)
  else (none, (bitList 32 mask).foldl (fun s b => s.put (O.bankOwner b) code) s)

/-- A BankCode write (R79). -/
def setBankCode (b code : Nat) (s : State) : Option (Nat × Nat) × State :=
  if ownerOf s b ≠ 0 then (some (0x08000022, 0x2103), s) else (none, fillBank b (s.put (O.bankCode b) code))

/-- Commit check 5 on TallyBanks and CulvertBanks (R76): true where the object fails. -/
def bankCheck (s : State) (new : SMap Nat) (k : Nat) : Bool :=
  let nw (k : Nat) : Nat := SMap.get 0 new k
  (k == O.tallyBanks || k == O.culvertBanks) &&
    ((nw O.tallyBanks &&& nw O.culvertBanks) != 0 || (bitList 32 (nw k)).any fun b => !bit (s.val k) b && ownerOf s b != 0)

/-- One reserved mask takes effect at commit: banks leaving it are filled and go to the host, banks entering it go to their feature. -/
def bankCommitOne (old : SMap Nat) (k owner : Nat) (s : State) : State :=
  let was := SMap.get 0 old k
  let now := s.val k
  (List.range 32).foldl (fun s b =>
    if bit was b && !bit now b then (fillBank b s).put (O.bankOwner b) 0
    else if bit now b && !bit was b then s.put (O.bankOwner b) owner
    else s) s

/-- TallyBanks and CulvertBanks take effect (R76). -/
def bankCommit (old : SMap Nat) (s : State) : State := bankCommitOne old O.culvertBanks 6 (bankCommitOne old O.tallyBanks 5 s)

/-! ### Images in banks (R81) -/

/-- The scratchpad word that holds image word `i` of a mask's banks. -/
def imageWord (banks : List Nat) (i : Nat) : Nat := i / banks.length * 32 + banks.getD (i % banks.length) 0

/-- The words of an image of `length` bytes. -/
def imageWords (mask length : Nat) : List Nat :=
  let banks := bitList 32 mask
  if banks.isEmpty then [] else (List.range (length / 8)).map (imageWord banks)

/-- The most bytes an image may have in a mask's banks (R82). -/
def imageLimit (mask : Nat) : Nat := popcount 32 mask * 131072

/-- Read an image; none where a word of it is uncorrectable (R80). -/
def readImage (s : State) (mask length : Nat) : Option Bytes :=
  let ws := imageWords mask length
  if ws.any (wordBad s) then none else some (ws.flatMap fun w => scratchRead s (8 * w) 8)

/-- Where word `w` stands in the image order of a list of banks, where it lies in one of them. -/
def imageIndex (banks : List Nat) (w : Nat) : Option Nat := (banks.findIdx? fun b => b == w % 32).map fun j => w / 32 * banks.length + j

/-- The `i`-th word, in image order, of banks whose owner uses no weak word (R308). -/
def soundWord (s : State) (banks : List Nat) (i : Nat) : Nat :=
  let weak : SMap Bool := ((s.integ.regions.getD 0x0F RegionScrub.off).weak.filterMap fun w => imageIndex banks w.1).foldl (fun m k => SMap.insert m k true) []
  imageWord banks (weak.foldl (fun i e => if e.1 ≤ i then i + 1 else i) (i % (banks.length * 16384 - weak.length)))

/-- Bytes of a stream land in banks from stream offset `off` on, up to the end of each word, laid out as an image (R81) on the words that are not weak
(R308). DESIGN CHOICE: no rule places them; the stream starts anew at the first word where it exceeds the banks. -/
def landBytes (banks : List Nat) : Nat → Nat → Bytes → State → State
  | 0, _, _, s => s
  | n + 1, off, d, s =>
    if d.isEmpty then s
    else
      let k := 8 - off % 8
      let w := soundWord s banks (off / 8)
      landBytes banks n (off + k) (d.drop k) (scratchWrite (8 * w + off % 8) (d.take k) s)

/-- Culvert lands bytes of a stream in CulvertBanks, from where the block mover copies them to the staging region (R381). -/
def landCulvert (off : Nat) (d : Bytes) (s : State) : State :=
  let banks := bitList 32 (s.val O.culvertBanks)
  if banks.isEmpty then s else contend 2 banks false (landBytes banks (d.length + 1) off d (contend 8 banks true s))

/-- Write an image, padded to whole words. -/
def writeImage (mask : Nat) (data : Bytes) (s : State) : State :=
  let n := cdiv data.length 8
  ((imageWords mask (8 * n)).zip (chunks 8 n data)).foldl (fun s p => scratchWrite (8 * p.1) (fit 8 p.2) s) s

end Sys2Proof.Machine
end

