-- ==== Sys2Proof/Machine/Tally.lean ====
section
/-! DEFINITION. The Tally journal: commits to the flash pool, seals, the read window and the reconciliation of the chain head at
start (R327–R332). -/

namespace Sys2Proof.Machine

/-! ### The wear-managed pool (R328, R331) -/

/-- Segments in the pool: the flash less the first 32 MiB and the reserved last 32 MiB (Table 14-11). -/
def segmentsTotal : Nat := (Config.flashMiB - 64) * 16

/-- Header magic of a Tally segment. -/
def tallyMagic : Nat := 0x54534547

/-- Header magic of a freshness snapshot segment (R331). -/
def snapshotMagic : Nat := 0x46534E50

/-- A slot of a Tally segment holds a seal or the rest of one, not a record: seals start with their magic (R329). -/
def isSealSlot (b : Bytes) : Bool := be b 0 4 == 0x5453454C

/-- The records of a Tally segment's slots; a seal takes three slots. -/
def segmentRecords : List Bytes → List Bytes
  | [] => []
  | b :: bs =>
    if isSealSlot b then
      match bs with
      | _ :: _ :: rest => segmentRecords rest
      | _ => []
    else b :: segmentRecords bs

/-- Every record in flash, oldest first. DESIGN CHOICE: what a segment retired by a failed program already held can still be read. -/
def flashRecords (s : State) : List Bytes :=
  ((s.flash.worn ++ s.flash.pool).filter fun g => g.magic == tallyMagic).flatMap fun g => segmentRecords g.slots

/-- The host has read a Sequence in the window. -/
def hasRead (s : State) (seq : Nat) : Bool := s.tally.seen.any fun r => decide (r.1 ≤ seq ∧ seq < r.2)

/-- A segment holds a record at or after the Cursor that the host has not read. -/
def unreadIn (s : State) (g : Segment) : Bool :=
  g.magic == tallyMagic && (segmentRecords g.slots).any fun b => decide (s.tally.cursor ≤ be b 0 8) && !hasRead s (be b 0 8)

/-- A segment with its header (R328). DESIGN CHOICE: the CRC-32C covers magic and erase count of 4 B and the Sequence of 8 B, most significant byte
first; the manual places no field. -/
def newSegment (magic erases first : Nat) (slots : List Bytes) : Segment :=
  ⟨magic, erases, first, (crc32c (beBytes 4 magic ++ beBytes 4 erases ++ beBytes 8 first)).toNat, slots⟩

/-- A program or an erase of a segment fails: a free bit. -/
def flashFails (s : State) : Bool × State :=
  let (n, s) := drawFresh s
  (bit (Config.freeValue n).toNat 0, s)

/-- Erase the oldest segment `g` of a full pool: its erase count, or none where its erase or program fails and it is retired and
counted. An unread record lost is counted, announced and a JOURNAL_LOSS (R331, Table 18-7). -/
def eraseSegment (g : Segment) (gs : List Segment) (s : State) : Option Nat × State :=
  let n := g.erases + 1
  let (fails, s) := flashFails s
  let unread := unreadIn s g
  let s := { s with flash := { s.flash with
    pool := gs, maxErase := max s.flash.maxErase n, retired := if fails then s.flash.retired + 1 else s.flash.retired } }
  let s := if unread then raiseFault 0x0172 0 (vector 19 (s.bump O.unreadOverwritten)) else s
  (if fails then none else some n, s)

/-- Erase the oldest segments of the pool until one can be programmed. -/
def eraseOldest : List Segment → State → Option Nat × State
  | [], s => (none, s)
  | g :: gs, s => match eraseSegment g gs s with
    | (some n, s) => (some n, s)
    | (none, s) => eraseOldest gs s

/-- Take one of `n` segments that were never erased; one whose program fails is retired. -/
def takeErased : Nat → State → Bool × State
  | 0, s => (false, s)
  | n + 1, s => match flashFails s with
    | (false, s) => (true, s)
    | (true, s) => takeErased n { s with flash := { s.flash with retired := s.flash.retired + 1 } }

/-- Take a segment in round-robin order, erasing the oldest where the pool has no erased one (R331). Answers the erase count, or none where the
pool has no segment. -/
def takeSegment (s : State) : Option Nat × State :=
  match takeErased (segmentsTotal - (s.flash.pool.length + s.flash.retired)) s with
  | (true, s) => (some 0, s)
  | (false, s) => eraseOldest s.flash.pool s

/-- Put a segment at the end of the pool. -/
def pushSegment (g : Segment) (s : State) : State := { s with flash := { s.flash with pool := s.flash.pool ++ [g] } }

/-- Put slots into a new segment of the journal; false where the pool has none. -/
def openSegment (first : Nat) (slots : List Bytes) (s : State) : Bool × State :=
  match takeSegment s with
  | (some n, s) => (true, pushSegment (newSegment tallyMagic n first slots) s)
  | (none, s) => (false, s)

/-- Append slots to the open segment of the journal, or to a new one where they do not fit or their program fails, which retires the open one (R331);
`first` is the Sequence of the first record in the slots or after them. False where the pool has no segment. -/
def appendSlots (first : Nat) (slots : List Bytes) (s : State) : Bool × State :=
  match s.flash.pool.reverse.find? fun g => g.magic == tallyMagic with
  | some g =>
    if g.slots.length + slots.length ≤ 1023 then
      match flashFails s with
      | (false, s) =>
        (true, { s with flash := { s.flash with pool := s.flash.pool.map fun x => if x = g then { g with slots := g.slots ++ slots } else x } })
      | (true, s) =>
        openSegment first slots { s with flash := { s.flash with
          pool := s.flash.pool.erase g, worn := s.flash.worn ++ [g], retired := s.flash.retired + 1 } }
    else openSegment first slots s
  | none => openSegment first slots s

/-! ### Seals (R329, Table 14-15) -/

/-- Write a seal over the records up to `last`, where the identity key exists; a full seal starts a new run. False where none is written. -/
def writeSeal (full : Bool) (last : Nat) (link : Bytes) (s : State) : Bool × State :=
  if s.keys.rootUp then
    let m := beBytes 4 0x5453454C ++ [1#8] ++ beBytes 1 (epochNow s) ++ zeros 2 ++ uidBytes ++ beBytes 8 s.tally.sealFrom ++
      beBytes 8 last ++ fit 32 link ++ beBytes 8 (timebase s)
    let (sig, s) := sign m s
    let b := m ++ sig
    match appendSlots (last + 1) (chunks 64 3 (b ++ zeros 48)) s with
    | (false, s) => (false, s)
    | (true, s) =>
      let s := (s.bump O.sealsWritten).put O.latestSeal (leNat b)
      (true, if full then { s with tally := { s.tally with sealFrom := last + 1 } } else s)
  else (false, s)

/-- Flash can be written: the xSPI domain's reference is there (R16). -/
def flashRuns (s : State) : Bool := s.power.core && !bit s.modes.refLost 5

/-- Program records, oldest first, each full seal after its record (R328, R329); what no segment takes stays to be committed. -/
def programRecords : List TallyRec → State → State
  | [], s => s
  | r :: rs, s => match appendSlots r.seq [r.bytes] s with
    | (false, s) => s
    | (true, s) =>
      let s := { s with tally := { s.tally with inFlash := r.seq + 1 } }
      programRecords rs (if (r.seq + 1) % 4096 = 0 then (writeSeal true r.seq r.link s).2 else s)

/-- Lists of at most 64 records each. -/
def bursts : Nat → List TallyRec → List (List TallyRec)
  | 0, _ => []
  | n + 1, rs => if rs.isEmpty then [] else rs.take 64 :: bursts n (rs.drop 64)

/-- One write burst of a commit (R328): staged in TallyBanks where it has any, else in Tally's Reservoir area, then programmed. DESIGN CHOICE: a burst
lies in the banks as an image does; where the Reservoir area holds one is not stated. -/
def commitBurst (s : State) (rs : List TallyRec) : State :=
  let banks := bitList 32 (s.val O.tallyBanks)
  let staged := if banks.isEmpty then s
    else landBytes banks (64 * rs.length + 1) 0 (rs.flatMap TallyRec.bytes) (contend 7 banks true s)
  programRecords rs staged

/-- Commit the numbered records that flash does not yet hold, at most 64 in a burst (R328). -/
def tallyCommit (s : State) : State :=
  if tallyRuns s && flashRuns s then
    let rs := (s.tally.recs.filter fun r => s.tally.inFlash ≤ r.seq).reverse
    (bursts rs.length rs).foldl commitBurst s
  else s

/-- Commit and write an interim seal: at Sleep entry, at SealNow and at a Jack opening. True where every record and the seal are in flash. -/
def commitAndSeal (s : State) : Bool × State :=
  let s := tallyCommit s
  if tallyRuns s && flashRuns s && 0 < s.tally.next then
    let (done, s) := writeSeal false (s.tally.next - 1) s.tally.link s
    (done && s.tally.inFlash == s.tally.next, s)
  else (false, s)

/-! ### The read window (R332) -/

/-- Every record that can be read, as (Sequence, 64 bytes): those in flash, then those in the ring that flash does not hold. -/
def journalRecords (s : State) : List (Nat × Bytes) :=
  (flashRecords s).map (fun b => (be b 0 8, b)) ++
    ((s.tally.recs.filter fun r => s.tally.inFlash ≤ r.seq).reverse.map fun r => (r.seq, r.bytes))

/-- OldestPresent: the Sequence of the oldest record that can be read, or of the next where none exists. -/
def oldestPresent (s : State) : Nat :=
  match journalRecords s ++ (s.tally.recs.reverse.map fun r => (r.seq, r.bytes)) with
  | [] => s.tally.next
  | r :: rs => rs.foldl (fun m r => min m r.1) r.1

/-- The Cursor, clamped to the oldest record present. -/
def cursorNow (s : State) : Nat := max s.tally.cursor (oldestPresent s)

/-- A record by its Sequence, from the ring or from flash. -/
def recordAt (s : State) (seq : Nat) : Option Bytes :=
  match s.tally.recs.find? fun r => r.seq == seq with
  | some r => some r.bytes
  | none => (flashRecords s).find? fun b => be b 0 8 == seq

/-- The 64 records from Cursor onward, fewer where they do not exist. -/
def journalWindow (s : State) : Bytes :=
  ((List.range 64).filterMap fun i => recordAt s (cursorNow s + i)).flatten

/-- The host reads the window: the records that it shows are read. -/
def noteWindow (s : State) : State :=
  let run := (cursorNow s, min (cursorNow s + 64) s.tally.next)
  let kept := s.tally.seen.filter fun r => !(decide (run.1 ≤ r.1 ∧ r.2 ≤ run.2))
  if s.tally.seen.any fun r => decide (r.1 ≤ run.1 ∧ run.2 ≤ r.2) then s
  else { s with tally := { s.tally with seen := run :: kept } }

/-- Move the Cursor, clamped to the oldest record present. -/
def setCursor (v : Nat) (s : State) : State :=
  let s := { s with tally := { s.tally with cursor := v } }
  { s with tally := { s.tally with cursor := cursorNow s } }

/-! ### The chain head at start (R330) -/

/-- The vault holds a valid chain head: its header verifies and names a record. -/
def vaultHead? (valid : Bool) (s : State) : Option (Nat × Bytes) :=
  if valid && s.keys.vault.chainLink != [] then some (s.keys.vault.chainSeq, s.keys.vault.chainLink) else none

/-- Compare the vault's chain head with the newest record in flash; number TAIL_LOST or CHAIN_BREAK where needed. Where flash is newer than the
vault, the chain goes on from the newest record's Link. The codes of CHAIN_BREAK's Cause are not stated: the byte is a free value. -/
def reconcileChain (valid : Bool) (s : State) : State :=
  let newest := (flashRecords s).foldl (fun m b => max m (be b 0 8 + 1)) 0
  let s := { s with tally := { s.tally with recs := [], inFlash := newest, sealFrom := newest / 4096 * 4096, cursor := oldestPresent s } }
  match vaultHead? valid s with
  | some (seq, link) =>
    if newest ≤ seq then
      let s := { s with tally := { s.tally with next := seq + 1, link, inFlash := seq + 1 } }
      raiseFault 0x0172 0x0003 (numberPieces 0x0003
        [fit 12 (beBytes 6 newest ++ beBytes 6 seq), fit 12 link, fit 12 (link.drop 12), fit 12 (link.drop 24)] s)
    else
      let last := ((flashRecords s).find? fun b => be b 0 8 + 1 == newest).map fun b => slice b 32 32
      { s with tally := { s.tally with next := newest, link := if newest = seq + 1 then link else last.getD link } }
  | none =>
    let s := { s with tally := { s.tally with next := newest, link := genesisLink } }
    let (n, s) := drawFresh s
    raiseFault 0x0172 0x0004 (numberRecord 0x0004 (beBytes 1 (Config.freeValue n).toNat) s)

/-! ### The commands -/

/-- TALLY_COMMIT: CommitInterval or CommitRecords is reached (R328). -/
def execTallyCommit (s : State) : Result := .next (tallyCommit s)

end Sys2Proof.Machine
end

