-- ==== Sys2Proof/Machine/Auth.lean ====
section
/-! DEFINITION. Frame authentication and freshness: profiles, the checks of Table 11-3, MAC input, freshness counters, generation, and
freshness over a start (R240–R261). -/

namespace Sys2Proof.Machine

/-! ### Profiles (Table 11-1) -/

/-- Profile `p` among live values, 32 bytes. -/
def authProfileIn (live : SMap Nat) (p : Nat) : Bytes := leBytes 32 (SMap.get 0 live (O.authProfile p))

/-- Algorithm. -/
def apAlg (p : Bytes) : Nat := bits (u8 p 0) 7 5

/-- Usage: generate. -/
def apGenerate (p : Bytes) : Bool := bit (u8 p 0) 4

/-- Store: 0 Reservoir, 1 Flume. -/
def apStore (p : Bytes) : Nat := bits (u8 p 0) 3 3

/-- FromEnd. -/
def apFromEnd (p : Bytes) : Bool := bit (u8 p 0) 2

/-- DataIdPresent. -/
def apDataIdPresent (p : Bytes) : Bool := bit (u8 p 0) 1

/-- ResyncOnStart. -/
def apResync (p : Bytes) : Bool := bit (u8 p 0) 0

/-- MacBytes. -/
def apMacBytes (p : Bytes) : Nat := u8 p 1

/-- FreshnessBits n. -/
def apN (p : Bytes) : Nat := u8 p 2

/-- TxFreshnessBits x. -/
def apX (p : Bytes) : Nat := u8 p 3

/-- MacOffset. -/
def apMacOffset (p : Bytes) : Nat := le p 4 2

/-- FreshnessOffset. -/
def apFreshOffset (p : Bytes) : Nat := le p 6 2

/-- DataId. -/
def apDataId (p : Bytes) : Nat := le p 8 2

/-- FreshnessBase. -/
def apBase (p : Bytes) : Nat := le p 10 2

/-- SpanLog2. -/
def apSpan (p : Bytes) : Nat := u8 p 12

/-- OutProfile. -/
def apOut (p : Bytes) : Nat := u8 p 13

/-- KeyHandle for use as an OutProfile. -/
def apKey (p : Bytes) : Nat := le p 14 2 % 4096

/-- AcceptWindow. -/
def apWindow (p : Bytes) : Nat := le p 16 4

/-- RestartJump. -/
def apJump (p : Bytes) : Nat := le p 20 4

/-- FailAction. -/
def apFailAction (p : Bytes) : Nat := bits (u8 p 24) 7 6

/-- ReplayAction. -/
def apReplayAction (p : Bytes) : Nat := bits (u8 p 24) 5 4

/-- FailThreshold. -/
def apFailThreshold (p : Bytes) : Nat := u8 p 25

/-- ReplayThreshold. -/
def apReplayThreshold (p : Bytes) : Nat := u8 p 26

/-- ThresholdWindow [ms]. -/
def apThresholdWindow (p : Bytes) : Nat := le p 27 2

/-- The profile is defined. -/
def apDefined (p : Bytes) : Bool := apAlg p != 0

/-- GMAC. -/
def apGmac (p : Bytes) : Bool := apAlg p == 3 || apAlg p == 4

/-- Length of the freshness field. -/
def apFieldBytes (p : Bytes) : Nat := cdiv (apX p) 8

/-- A profile keeps Table 11-1. Its reserved fields are ignored (R3), but an undefined profile is all zero. A verify profile never serves as an
OutProfile (R241), so its KeyHandle is 0. -/
def authProfileOk (p : Bytes) : Bool :=
  if !apDefined p then allZero p 0 32
  else
    decide (apAlg p ≤ 5) && decide ((if apGmac p then 8 else 3) ≤ apMacBytes p) && decide (apMacBytes p ≤ 16) &&
    decide ((if apGmac p then 1 else 0) ≤ apN p) && decide (apN p ≤ 64) && decide (apX p ≤ 32) && decide (apX p ≤ apN p) &&
    decide (apMacOffset p ≤ 4095) && decide (apFreshOffset p ≤ 4095) && (apX p != 0 || apFreshOffset p == 0) &&
    apBase p % 2 ^ apSpan p == 0 && (apN p != 0 || apBase p == 0) && decide (apSpan p ≤ (if apStore p = 1 then 12 else 16)) &&
    (if apGenerate p then apOut p == 0 else apKey p == 0) &&
    (if apGenerate p then apWindow p == 0
     else decide (1 ≤ apWindow p) && (apX p == 0 || apX p == apN p || decide (apWindow p ≤ 2 ^ apX p - 1))) &&
    apFailAction p != 3 && apReplayAction p != 3 && decide (1 ≤ apThresholdWindow p)

/-- The counters of a profile's range, as (first, count); none where n is 0. -/
def apRange (p : Bytes) : Nat × Nat := if apDefined p && apN p != 0 then (apBase p, 2 ^ apSpan p) else (0, 0)

/-- Counters of a store. -/
def freshCount (store : Nat) : Nat := if store = 1 then 4096 else 65536

/-- Counter `i` of a store lies in the profile's range. -/
def inRange (p : Bytes) (store i : Nat) : Bool :=
  apStore p == store && decide ((apRange p).1 ≤ i) && decide (i < (apRange p).1 + (apRange p).2)

/-! ### Freshness counters (Table 11-5) -/

/-- Read a counter of a store. -/
def readFresh (store i : Nat) (s : State) : Nat :=
  if store = 1 then SMap.get 0 s.headgate.flumeFresh i else readGranule s (freshGranule i)

/-- A counter that UnsyncedCounters counts: in a defined profile's range and Unsynced. -/
def countsUnsynced (c : Nat) : Nat := b2n (fcValid c && fcUnsynced c)

/-- An operation of unit `req` on a counter is at its turn: of the Reservoir at home (R268), of the Flume store at hand. -/
def freshHome (req store i : Nat) (s : State) : State := if store = 1 then s else atHomeFor req (freshGranule i) s

/-- Write a counter there; UnsyncedCounters follows it (Table 11-10). -/
def storeFresh (store i c : Nat) (s : State) : State :=
  let s := s.put O.unsyncedCounters (s.val O.unsyncedCounters + countsUnsynced c - countsUnsynced (readFresh store i s))
  if store = 1 then
    { s with
      headgate := { s.headgate with flumeFresh := SMap.set 0 s.headgate.flumeFresh i c }
      results := { s.results with bad := SMap.erase s.results.bad (2 ^ 22 + i) } }
  else storeCell (freshGranule i) c s

/-- Set a counter from what it holds, by other than an acceptance or an issue: noted for the base of a restart (Table 12-10). -/
def setFresh (store i : Nat) (f : Nat → Nat) (s : State) : State :=
  let s := freshHome homeUser store i s
  let c := f (readFresh store i s)
  let s := storeFresh store i c s
  if store = 1 then s else { s with coh := { s.coh with freshSet := SMap.insert s.coh.freshSet i c } }

/-- The counter is poisoned at home (R280), or its word of the Flume store is lost and it has not been written since (Table 13-6). -/
def freshPoisoned (store i : Nat) (s : State) : Bool :=
  if store = 1 then SMap.get false s.results.bad (2 ^ 22 + i) else poisoned s (freshGranule i)

/-- The search that reads a lost word of the Flume store has had its ERR_DATA; later ones find the counter Unsynced (Table 13-6). DESIGN CHOICE. -/
def freshSeen (store i : Nat) (s : State) : State :=
  if store = 1 then { s with results := { s.results with bad := SMap.erase s.results.bad (2 ^ 22 + i) } } else s

/-- An atomic meets a lost counter: in the Reservoir it is counted (R280). -/
def freshHit (store i : Nat) (s : State) : State := if store = 1 then freshSeen store i s else poisonHit s

/-- A search reads its counter as lost: its Lateral as poisoned, in its cache or at home (R280), or in the Flume store (Table 13-6). -/
def freshReadsPoison (store i lateral : Nat) (s : State) : Bool :=
  if store = 1 then freshPoisoned store i s else readsPoison s lateral (2 * freshGranule i)

/-- FreshnessId of a record under a profile (R243). -/
def freshnessId (p : Bytes) (record : Nat) : Nat := apBase p + record % 2 ^ apSpan p

/-! ### Payload layout and the MAC (R245, R246) -/

/-- Where a field begins in a payload of `len` bytes, or none where its offset exceeds it. -/
def fieldStart (p : Bytes) (offset len : Nat) : Option Nat :=
  if apFromEnd p then (if len < offset then none else some (len - offset)) else some offset

/-- The places of the MAC and freshness fields, or none for AUTH_LEN. -/
def fieldPlaces (p : Bytes) (len : Nat) : Option (Nat × Nat) :=
  match fieldStart p (apMacOffset p) len, fieldStart p (apFreshOffset p) len with
  | some m, some f =>
    let t := apFieldBytes p
    if len = 0 ∨ len < m + apMacBytes p ∨ (0 < t ∧ len < f + t) ∨ (0 < t ∧ m < f + t ∧ f < m + apMacBytes p) then none
    else some (m, f)
  | _, _ => none

/-- The authentic data D: the payload with both fields removed. -/
def authenticData (p : Bytes) (m f : Nat) (payload : Bytes) : Bytes :=
  ((payload.zipIdx.filter fun x =>
    !(decide (m ≤ x.2) && decide (x.2 < m + apMacBytes p)) && !(decide (f ≤ x.2) && decide (x.2 < f + apFieldBytes p))).map (·.1))

/-- The algorithm's output over DataId, D and the freshness value, cut to MacBytes. -/
def macOver (p key d : Bytes) (v : Nat) : Bytes :=
  let id := beBytes 2 (apDataId p)
  let f := beBytes (cdiv (apN p) 8) v
  let m := (if apDataIdPresent p then id else []) ++ d ++ f
  let full := if apGmac p then aesGmac key (id ++ zeros 2 ++ beBytes 8 v) d else if apAlg p = 5 then hmacSha256 key m else aesCmac key m
  full.take (apMacBytes p)

/-! ### Keys (Tables 11-3, 11-8, 14-5) -/

/-- Keyed flows are unavailable: Locked, Uncommissioned, zeroized or Jack-Open (Tables 11-8, 18-1). -/
def keysBarred (s : State) : Bool := s.keys.closed || s.modes.locked != 0 || !commissioned s || s.jack.opened

/-- The key type of an algorithm. -/
def algType (alg : Nat) : Nat := match alg with
  | 1 | 3 => 1
  | 2 | 4 => 2
  | _ => 3

/-- Rows 2 and 3 for a slot: KEY_UNAVAIL, KEY_REVOKED, or the key. -/
def keyFor (s : State) (p : Bytes) (handle : Nat) : Nat ⊕ Bytes :=
  let k := SMap.get KeySlot.empty s.keys.slots handle
  if keysBarred s || k.state == 0 || s.keys.lost.contains k.parent || k.type != algType (apAlg p) || !bit k.usage (if apGenerate p then 1 else 0) then .inl 0x13
  else if k.state = 2 then .inl 0x12
  else .inr k.key

/-! ### The checks (Table 11-3) -/

/-- Rows 1 to 3 for a search of class `cls` (1 A, 2 B, 3 C): a status with its failure action, or the key. -/
def authRows13 (live : SMap Nat) (s : State) (cls profile handle : Nat) : (Nat × Nat) ⊕ Bytes :=
  let p := authProfileIn live profile
  if !apDefined p then .inl (0x13, 0)
  else
    let laneOk := if cls = 1 then apStore p == 1 && apAlg p != 5 && apOut p == 0 && SMap.get 0 live O.classAAuth != 0 else apStore p == 0
    if !laneOk then .inl (0x13, apFailAction p)
    else match keyFor s p handle with
      | .inl st => .inl (st, apFailAction p)
      | .inr k => .inr k

/-- The candidate freshness value of a received field `r` (R248). -/
def candidate (p : Bytes) (last r : Nat) : Nat :=
  let x := apX p
  if x = apN p then r % 2 ^ x
  else if x = 0 then last + 1
  else
    let v := last / 2 ^ x * 2 ^ x + r % 2 ^ x
    if v ≤ last ∧ v + 2 ^ x - last ≤ apWindow p then v + 2 ^ x else v

/-- An Unsynced verify counter accepts the first value that verifies (R258). -/
def resyncs (p : Bytes) : Bool := apResync p && apX p == apN p

/-- Row 5: where the MAC and freshness fields lie, or none where the payload's layout or the outbound layout breaks R245. -/
def authRow5 (live : SMap Nat) (p : Bytes) (payload : Bytes) : Option (Nat × Nat) :=
  (fieldPlaces p payload.length).bind fun (m, f) =>
    let out := authProfileIn live (apOut p)
    let outLen := (authenticData p m f payload).length + apMacBytes out + apFieldBytes out
    if apOut p ≠ 0 ∧ (fieldPlaces out outLen).isNone then none else some (m, f)

/-- The profile's search reads its counter before its MAC: it verifies with n above 0 (rows 6 and 7). -/
def readsCounter (p : Bytes) : Bool := !apGenerate p && apN p != 0

/-- Rows 6 and 7 on a payload whose freshness field begins at `f`: none for REPLAY, or the candidate value (0 where the rows do not apply). A
refusal by a counter at 2^n − 1 is counted (R249). -/
def authRows67 (p : Bytes) (record : Nat) (payload : Bytes) (f : Nat) (s : State) : Option Nat × State :=
  if !readsCounter p then (some 0, s)
  else
    let c := readFresh (apStore p) (freshnessId p record) s
    if fcUnsynced c && !resyncs p then (none, s)
    else
      let v := candidate p (fcValue c) (be payload f (apFieldBytes p))
      if 2 ^ apN p ≤ v then (none, if fcValue c = 2 ^ apN p - 1 then s.bump O.freshnessExhausted else s) else (some v, s)

/-! ### Counting refusals (R250) -/

/-- Count an AUTH_FAIL (`replay` false) or a REPLAY in a counter that an atomic is at; a burst is recorded. -/
def countRefusal (replay : Bool) (p : Bytes) (number record link v : Nat) (s : State) : State :=
  if apN p = 0 then s
  else
    let i := freshnessId p record
    let store := apStore p
    let (c, burst) := countIn replay (if replay then apReplayThreshold p else apFailThreshold p) (apThresholdWindow p) (elapsedMs s) (readFresh store i s)
    let s := storeFresh store i c s
    if burst then
      journal (if replay then 0x0041 else 0x0040)
        (fit 12 (beBytes 1 number ++ beBytes 4 i ++ beBytes 1 link) ++ beBytes 4 record ++ beBytes 8 v) s
    else s

/-! ### Generation (R251) -/

/-- The extension of Table 4-13 for a generation (Table 11-6), as a 256-bit number. -/
def extensionOf (p : Bytes) (outLen v : Nat) (mac : Bytes) : Nat :=
  let off := fun o => (fieldStart p o outLen).getD 0
  0x01 * 2 ^ 248 + apMacBytes p * 2 ^ 240 + apX p * 2 ^ 232 + off (apMacOffset p) % 2 ^ 13 * 2 ^ 219 +
  off (apFreshOffset p) % 2 ^ 13 * 2 ^ 206 + v % 2 ^ apX p * 2 ^ 160 + beNat (fit 16 mac)

/-- What an atomic on a freshness counter gives: the value taken or issued (or what follows from it), a refusal, or poison (R280). -/
inductive Atomic where
  | ok (v : Nat)
  | refused
  | poisoned
  deriving DecidableEq, Repr

/-- Issue the next value of a generate profile's counter for unit `req`: refused where it is Unsynced or exhausted (R251, R258). -/
def issueValue (req : Nat) (p : Bytes) (record : Nat) (s : State) : Atomic × State :=
  if apN p = 0 then (.ok 0, s)
  else
    let i := freshnessId p record
    let s := freshHome req (apStore p) i s
    let c := readFresh (apStore p) i s
    if freshPoisoned (apStore p) i s then (.poisoned, freshHit (apStore p) i s)
    else if fcUnsynced c then (.refused, s)
    else if 2 ^ apN p ≤ fcValue c + 1 then (.refused, s.bump O.freshnessExhausted)
    else
      (.ok (fcValue c + 1),
       storeFresh (apStore p) i (mkCounter (fcValue c + 1) (fcValid c) false (bit c 61) (fcFail c) (fcReplay c) (fcWindow c)) s)

/-- Generate for unit `req` under profile `p` with a key over D: the extension, or why there is none. -/
def generate (req : Nat) (p key d : Bytes) (record engine : Nat) (s : State) : Atomic × State :=
  match issueValue req p record s with
  | (.ok v, s) =>
    let s := (s.bump O.generations).bump (O.engineOperations engine)
    (.ok (extensionOf p (d.length + apMacBytes p + apFieldBytes p) v (macOver p key d v)), s)
  | (r, s) => (r, s)

/-! ### The end of a MAC operation (rows 9 to 11) -/

/-- How a MAC operation ends: with the verdict's AuthVerified and extension, with a status of rank 4 and its failure action, or with poison
in a counter that it needed (R280). -/
inductive AuthEnd where
  | pass (verified : Bool) (ext : Nat)
  | fail (status action : Nat) (verified : Bool)
  | poisoned
  deriving DecidableEq, Repr

/-- Row 10: the compare-and-advance of unit `req`, which counts a value that it refuses (R248, R250), or the first value of a resyncing counter
(R258). -/
def compareAdvance (req : Nat) (w : MacWork) (record link : Nat) (s : State) : Atomic × State :=
  let p := w.profile
  if apN p = 0 then (.ok 0, s)
  else
    let i := freshnessId p record
    let s := freshHome req (apStore p) i s
    let c := readFresh (apStore p) i s
    let v := w.candidate
    if freshPoisoned (apStore p) i s then (.poisoned, freshHit (apStore p) i s)
    else if fcUnsynced c && resyncs p then
      let s := storeFresh (apStore p) i (mkCounter v (fcValid c) false (bit c 61) (fcFail c) (fcReplay c) (fcWindow c)) s
      (.ok v, journal 0x0042 (beBytes 1 w.number ++ beBytes 4 i) s)
    else if fcValue c < v ∧ v - fcValue c ≤ apWindow p then
      (.ok v, storeFresh (apStore p) i (mkCounter v (fcValid c) (fcUnsynced c) (bit c 61) (fcFail c) (fcReplay c) (fcWindow c)) s)
    else
      let s := if fcValue c = 2 ^ apN p - 1 then s.bump O.freshnessExhausted else s
      (.refused, countRefusal true p w.number record link v s)

/-- Row 9's refusal takes an atomic of its own on the counter (R250), which a lost counter fails (R280). -/
def countFailure (req : Nat) (w : MacWork) (record link : Nat) (s : State) : AuthEnd × State :=
  let p := w.profile
  let fail : AuthEnd := .fail 0x10 (apFailAction p) false
  if apN p = 0 then (fail, s)
  else
    let i := freshnessId p record
    let s := freshHome req (apStore p) i s
    if freshPoisoned (apStore p) i s then (.poisoned, freshHit (apStore p) i s)
    else (fail, countRefusal false p w.number record link w.candidate s)

/-- Rows 9 to 11 for the MAC operation of unit `req`'s search over its payload. -/
def authEnd (req : Nat) (live : SMap Nat) (w : MacWork) (record link : Nat) (payload : Bytes) (s : State) : AuthEnd × State :=
  let p := w.profile
  match fieldPlaces p payload.length with
  | none => (.fail 0x14 (apFailAction p) false, s)
  | some (m, f) =>
    let d := authenticData p m f payload
    if s.keys.closed then (.fail 0x13 (apFailAction p) false, s)
    else if apGenerate p then
      match generate req p w.key d record w.engine s with
      | (.ok ext, s) => (.pass false ext, s)
      | (.refused, s) => (.fail 0x13 (apFailAction p) false, s)
      | (.poisoned, s) => (.poisoned, s)
    else
      let s := s.bump (O.engineOperations w.engine)
      if macOver p w.key d w.candidate ≠ slice payload m (apMacBytes p) then
        countFailure req w record link s
      else match compareAdvance req w record link s with
        | (.poisoned, s) => (.poisoned, s)
        | (.refused, s) => (.fail 0x11 (apReplayAction p) false, s)
        | (.ok _, s) =>
          if apOut p = 0 then (.pass true 0, s)
          else
            let out := authProfileIn live (apOut p)
            match keyFor s out (apKey out) with
            | .inl st => (.fail st (apFailAction p) true, s)
            | .inr key =>
              match generate req out key d record w.engine s with
              | (.ok ext, s) => (.pass true ext, s.bump O.reauthentications)
              | (.refused, s) => (.fail 0x13 (apFailAction p) true, s)
              | (.poisoned, s) => (.poisoned, s)

/-- Count a result by its status (Table 11-10). -/
def countAuth (status : Nat) (verified : Bool) (s : State) : State :=
  let s := if verified then s.bump O.authVerified else s
  match status with
  | 0x10 => s.bump O.authFailResults
  | 0x11 => s.bump O.replayResults
  | 0x12 => s.bump O.keyRevokedResults
  | 0x13 => s.bump O.keyUnavailResults
  | 0x14 => s.bump O.authLenResults
  | _ => s

/-! ### Commit (R241, R242) -/

/-- Profile `p`, 1 to 255, breaks R241's links. -/
def profileLinkBad (new : SMap Nat) (p : Nat) : Bool :=
  let a := authProfileIn new p
  let o := authProfileIn new (apOut a)
  apDefined a && ((apOut a != 0 && (!apDefined o || !apGenerate o || apStore o == 1)) ||
    decide (freshCount (apStore a) < (apRange a).1 + (apRange a).2) || (apStore a == 1 && apAlg a == 5))

/-- Two profiles share a counter. -/
def profilesOverlap (new : SMap Nat) (p q : Nat) : Bool :=
  let a := authProfileIn new p
  let b := authProfileIn new q
  p != q && apStore a == apStore b && decide ((apRange a).1 < (apRange b).1 + (apRange b).2) &&
  decide ((apRange b).1 < (apRange a).1 + (apRange a).2) && (apRange a).2 != 0 && (apRange b).2 != 0

/-- The profile of an object key. -/
def profileOfKey (k : Nat) : Option Nat := (List.range 256).find? fun p => p != 0 && O.authProfile p == k

/-- A commit check of chapter 11 that snapshot object `k` fails. -/
def authCheck (n : Nat) (new : SMap Nat) (k : Nat) : Option Nat :=
  match profileOfKey k with
  | none => none
  | some p =>
    if n = 1 then
      if profileLinkBad new p || (List.range 256).any fun q => apOut (authProfileIn new q) == p && profileLinkBad new q then some 0x2910
      else none
    else if n = 6 then (if (List.range 256).any fun q => q != 0 && profilesOverlap new p q then some 0x2911 else none)
    else none

/-- A profile is sealed. -/
def profileSealed (s : State) (p : Nat) : Bool := (SMap.find? s.dict.sealedBy (O.authProfile p)).isSome

/-- The counters of profile `p` take the Sealed bit as the profile has it (Table 11-5). -/
def sealFresh (p : Nat) (s : State) : State :=
  let a := authProfileIn s.dict.live p
  (List.range (apRange a).2).foldl (fun s j =>
    let i := (apRange a).1 + j
    let s := freshHome homeUser (apStore a) i s
    let c := readFresh (apStore a) i s
    let sealed (c : Nat) : Nat := mkCounter (fcValue c) (fcValid c) (fcUnsynced c) (profileSealed s p) (fcFail c) (fcReplay c) (fcWindow c)
    if bit c 61 = profileSealed s p then s
    else
      let s := storeFresh (apStore a) i (sealed c) s
      if apStore a = 1 then s
      else onCoh (fun h => { h with freshSet := h.freshSet.map fun e => if e.1 = i then (e.1, sealed e.2) else e }) s) s

/-- At the commit instant counters enter and leave the ranges of profile `p`; `old` is the configuration before it. -/
def freshCommitOne (old : SMap Nat) (p : Nat) (s : State) : State :=
  let a := authProfileIn old p
  let b := authProfileIn s.dict.live p
  if a = b then s
  else
    let leave := (List.range (apRange a).2).map fun j => (apRange a).1 + j
    let s := leave.foldl (fun s i =>
      if (List.range 256).any fun q => q != 0 && inRange (authProfileIn s.dict.live q) (apStore a) i then s
      else setFresh (apStore a) i
        (fun c => mkCounter (fcValue c) false (fcUnsynced c) (bit c 61) (fcFail c) (fcReplay c) (fcWindow c)) s) s
    let enter := (List.range (apRange b).2).map fun j => (apRange b).1 + j
    enter.foldl (fun s i =>
      if inRange a (apStore b) i then s
      else setFresh (apStore b) i (fun c => mkCounter 0 true false (profileSealed s p) 0 0 (fcWindow c)) s) s

/-- The commit of every profile. -/
def freshCommit (old : SMap Nat) (s : State) : State :=
  (List.range 256).foldl (fun s p => if p = 0 then s else freshCommitOne old p s) s

/-- FreshnessReset of a profile; a rejection is its abort code and detail (R259). -/
def freshnessReset (profile : Nat) (s : State) : Option (Nat × Nat) × State :=
  let p := authProfileIn s.dict.live profile
  if profileSealed s profile then (some (0x08000020, 0x2007), s)
  else if profile = 0 ∨ apDefined p = false then (some (0x06090030, 0x2902), s)
  else
    (none, (List.range (apRange p).2).foldl (fun s j =>
      setFresh (apStore p) ((apRange p).1 + j) (fun c => mkCounter 0 (fcValid c) false (bit c 61) 0 0 (fcWindow c)) s) s)

/-! ### Snapshots (R256, R257, R331) -/

/-- The freshness snapshot key (Table 14-2). -/
def snapshotKey : Bytes := kdf rootBytes "KY88 FRESH SNAP" uidBytes 256

/-- Every counter in a defined profile's range, as (store, index, value). -/
def validCounters (s : State) : List (Nat × Nat × Nat) :=
  let reservoir := (s.coh.home.filter fun e => 0xA0000 ≤ e.1 && e.1 < 0xB0000).map fun e => (0, e.1 - 0xA0000, readGranule s e.1)
  let flume := s.headgate.flumeFresh.map fun e => (1, e.1, e.2)
  (reservoir ++ flume).filter fun c => fcValid c.2.2

/-- A snapshot's bytes: header, entries and CMAC. -/
def snapshotBytes (seq : Nat) (closing : Bool) (cs : List (Nat × Nat × Nat)) : Bytes :=
  let m := beBytes 8 seq ++ beBytes 4 cs.length ++ beBytes 1 (b2n closing) ++ zeros 19 ++
    cs.flatMap fun c => beBytes 4 (c.1 * 2 ^ 31 + c.2.1) ++ beBytes 8 (fcValue c.2.2)
  m ++ aesCmac snapshotKey m

/-- Write a snapshot's slots into whole segments of the pool; false where no segment can be had. -/
def pushSnapshot (seq : Nat) : List (List Bytes) → State → Bool × State
  | [], s => (true, s)
  | g :: gs, s =>
    match takeSegment s with
    | (some n, s) => pushSnapshot seq gs (pushSegment (newSegment snapshotMagic n seq g) s)
    | (none, s) => (false, s)

/-- Lists of at most `n` slots each. -/
def grouped (n : Nat) : Nat → List Bytes → List (List Bytes)
  | 0, _ => []
  | fuel + 1, l => if l.isEmpty then [] else l.take n :: grouped n fuel (l.drop n)

/-- Write a freshness snapshot (R256); a failure is counted. -/
def writeSnapshot (closing ok : Bool) (s : State) : State :=
  if !s.keys.rootUp || !ok then s.bump O.snapshotFailures
  else
    let seq := s.keys.vault.snapSeq + 1
    let slots := chunks 64 20000 (snapshotBytes seq closing (validCounters s))
    match pushSnapshot seq (grouped 1023 (slots.length + 1) slots) s with
    | (true, s) => (onVault (fun v => { v with snapSeq := seq }) s).put O.snapshotSequence (seq % 2 ^ 32)
    | (false, s) => s.bump O.snapshotFailures

/-- FRESHNESS_SNAPSHOT: at FreshSaveInterval (R256), once the counters are set. -/
def execFreshnessSnapshot (ok : Bool) (s : State) : Result :=
  if !s.power.core || !s.modes.fillEnded then .next s else .next (writeSnapshot false ok s)

/-- The snapshot that the vault's sequence number names, where its check holds: its Closing flag and entries (R257). -/
def latestSnapshot (s : State) : Option (Bool × SMap Nat) :=
  let seq := s.keys.vault.snapSeq
  let b := ((s.flash.pool.filter fun g => g.magic == snapshotMagic && g.first == seq).flatMap (·.slots)).flatten
  let n := be b 8 4
  let m := b.take (32 + 12 * n)
  if seq = 0 ∨ s.keys.rootUp = false ∨ b.length < 48 + 12 * n ∨ be b 0 8 ≠ seq ∨ aesCmac snapshotKey m ≠ slice b (32 + 12 * n) 16 then none
  else some (bit (u8 b 12) 0,
    (records 12 (m.drop 32)).foldl (fun t e => SMap.insert t (be e 0 4) (be e 4 8)) [])

/-- Set the counters of one profile's range from a snapshot (R257). -/
def restoreRange (snap : Option (Bool × SMap Nat)) (number : Nat) (s : State) : State :=
  let p := authProfileIn s.dict.live number
  (List.range (apRange p).2).foldl (fun s j =>
    let i := (apRange p).1 + j
    let saved := snap.bind fun x => (SMap.find? x.2 (apStore p * 2 ^ 31 + i)).map fun v => (x.1, v)
    let sealed := profileSealed s number
    let c := match saved with
      | some (true, v) => mkCounter v true false sealed 0 0 0
      | some (false, v) => mkCounter (min (v + apJump p) (2 ^ apN p - 1)) true false sealed 0 0 0
      | none => mkCounter 0 true true sealed 0 0 0
    setFresh (apStore p) i (fun _ => c) s) s

/-- Set every counter at a start; a start that leaves any Unsynced is recorded (R257). -/
def restoreFreshness (s : State) : State :=
  let snap := latestSnapshot s
  let s := (List.range 256).foldl (fun s p => if p = 0 then s else restoreRange snap p s) s
  if s.val O.unsyncedCounters = 0 then s else journal 0x0043 (beBytes 4 (s.val O.unsyncedCounters)) s

end Sys2Proof.Machine
end

