-- ==== Sys2Proof/Machine/Buckets.lean ====
section
/-! DEFINITION. Bucket tables and the extended flow table: definitions, seeds, lookup, the commands, flush, load and dump
(R183–R203). -/

namespace Sys2Proof.Machine

/-! ### Definitions (Table 8-1) -/

/-- The definition of table `t` among live values. -/
def tableDef (live : SMap Nat) (t : Nat) : Nat := SMap.get 0 live (O.bucketTableDefinition t)

/-- Defined bit. -/
def defDefined (d : Nat) : Bool := bit d 63

/-- Extended bit. -/
def defExt (d : Nat) : Bool := bit d 62

/-- Learnable bit. -/
def defLearnable (d : Nat) : Bool := bit d 61

/-- KeyWidth. -/
def defKeyWidth (d : Nat) : Nat := bits d 56 48

/-- BucketsLog2. -/
def defLog2 (d : Nat) : Nat := bits d 44 40

/-- OverflowLimit. -/
def defOverflow (d : Nat) : Nat := bits d 28 16

/-- A definition's fields, each alone, keep Table 8-1; reserved bits are ignored (R3). -/
def tableFieldsOk (d : Nat) : Bool :=
  if !defDefined d then bits d 62 61 == 0 && defKeyWidth d == 0 && defLog2 d == 0 && defOverflow d == 0
  else decide (1 ≤ defKeyWidth d) && decide (defKeyWidth d ≤ 320) && decide (defOverflow d ≤ 4096)

/-- What commit check 1 asks of a definition (R183). -/
def tableDefOk (d : Nat) : Bool :=
  !defDefined d ||
    (decide (4 ≤ defLog2 d) && (if defExt d then decide (defLog2 d ≤ 18) && defOverflow d == 0 else decide (defKeyWidth d ≤ 128) && decide (defLog2 d ≤ 16)))

/-- Buckets of a store. -/
def storeBuckets (ext : Bool) : Nat := if ext then 262144 else 65536

/-! ### Entries and places -/

/-- The entries of table `t`, by place. -/
def tableEntries (t : Nat) (s : State) : SMap BucketEntry := s.buckets.entries.filter fun e => e.2.table == t

/-- Table `t` holds an entry. -/
def tableHolds (t : Nat) (s : State) : Bool := s.buckets.entries.any fun e => e.2.table == t

/-- A place of the overflow store. -/
def isOverflow (p : Nat) : Bool := decide (0x40000 ≤ p) && decide (p < 0x41000)

/-- Overflow entries of table `t`. -/
def overflowOf (t : Nat) (s : State) : Nat := SMap.count (fun p e => isOverflow p && e.table == t) s.buckets.entries

/-- Overflow entries in use. -/
def overflowInUse (s : State) : Nat := SMap.count (fun p _ => isOverflow p) s.buckets.entries

/-- Entries of table `t` with Learned set. -/
def learnedOf (t : Nat) (s : State) : Nat := SMap.count (fun _ e => e.table == t && e.learned) s.buckets.entries

/-- Change the bucket stores. -/
def onBuckets (f : Buckets → Buckets) (s : State) : State := { s with buckets := f s.buckets }

/-- The first place of bucket `b` of a store. -/
def bucketPlace (ext : Bool) (b : Nat) : Nat := (if ext then 0x100000 else 0) + 4 * b

/-- The bucket of a place of the bucket stores. -/
def placeBucket (p : Nat) : Nat := p % 0x100000 / 4

/-- The four words of an on-chip entry are written whole: what a merge buffer holds of them is discarded (R297). -/
def wholeEntry (p : Nat) (s : State) : State :=
  if p < 0x40000 then (List.range 4).foldl (fun s i => mergeDiscard (32 + placeBucket p % 16) (4 * p + i) s) s else s

/-- Write an entry whole at a place; an uncorrectable word there is gone. -/
def putEntry (p : Nat) (e : BucketEntry) (s : State) : State :=
  onBuckets (fun b => { b with entries := SMap.insert b.entries p e, bad := SMap.erase b.bad p }) (wholeEntry p s)

/-- Free a place; an uncorrectable word there is gone. -/
def dropEntry (p : Nat) (s : State) : State :=
  onBuckets (fun b => { b with entries := SMap.erase b.entries p, bad := SMap.erase b.bad p }) (wholeEntry p s)

/-- A place takes a new entry: nothing valid there, not retired, not reserved for the peer (R191, R307, Culvert pairs). -/
def placeFree (s : State) (p : Nat) : Bool :=
  (SMap.find? s.buckets.entries p).isNone && !s.buckets.retired.contains p && !s.buckets.reserved.contains p

/-! ### Seed, hash and bucket (R185, R186) -/

/-- The seed of table `t`, from the root, or from DeviceUid where the start found no root. -/
def seedOf (s : State) (t : Nat) (ext : Bool) : Bytes :=
  let ctx := beBytes 1 t ++ beBytes 1 (b2n ext) ++ beBytes 1 s.buckets.seedEpoch
  if s.val O.seedSource = 1 then (sha256 (ascii "KY88 SEED" ++ uidBytes ++ ctx)).take 4
  else kdf rootBytes "KY88 SEED" ctx 32

/-- The 32-bit hash of a 320-bit left-aligned key in table `t`. -/
def hashOf (s : State) (t : Nat) (ext : Bool) (key : Nat) : Nat :=
  (crc32c (seedOf s t ext ++ (beBytes 40 key).take (if ext then 40 else 16))).toNat

/-- The key's bucket under a definition and a region base. -/
def bucketOf (d base h : Nat) : Nat := base + h % 2 ^ defLog2 d

/-- The first bucket of table `t`'s region. -/
def regionBase (t : Nat) (s : State) : Nat := s.val (O.regionBase t)

/-- The bucket of a key of table `t` as the table is defined now. -/
def keyBucket (s : State) (t key : Nat) : Nat :=
  let d := tableDef s.dict.live t
  bucketOf d (regionBase t s) (hashOf s t (defExt d) key)

/-- A key with every bit below its most significant KeyWidth bits taken as 0. -/
def trimKey (d key : Nat) : Nat := key / 2 ^ (320 - defKeyWidth d) * 2 ^ (320 - defKeyWidth d)

/-- The 14-bit fingerprint of a hash. -/
def fingerprint (h : Nat) : Nat := bits h 31 18

/-- The tag of way `w` in a tag word: Valid and Fingerprint. -/
def tagWay (tag w : Nat) : Nat := bits tag (16 * w + 15) (16 * w)

/-! ### Lookup (R188, R197) -/

/-- The place of the valid current entry of table `t` with a key: bucket first, then the overflow store. -/
def findPlace (s : State) (t key : Nat) : Option Nat :=
  let d := tableDef s.dict.live t
  let here := fun p => match SMap.find? s.buckets.entries p with
    | some e => e.table == t && e.key == key && e.gen == bit s.buckets.gens t
    | none => false
  let h := hashOf s t (defExt d) key
  let b := bucketOf d (regionBase t s) h
  let base := bucketPlace (defExt d) b
  if defExt d then
    match (List.range 4).find? fun w => tagWay (readTag s b) w == 0x8000 + fingerprint h with
    | some w => if here (base + w) then some (base + w) else none
    | none => none
  else
    match (List.range 4).find? fun w => here (base + w) with
    | some w => some (base + w)
    | none => (List.find? (fun e => isOverflow e.1 && here e.1) s.buckets.entries).map (·.1)

/-- The places of uncorrectable words that a lookup of table `t` reads: any way of an on-chip bucket and the overflow entry that it matches, or
the one extended line that the tag selects (R188, R197). DESIGN CHOICE: an uncorrectable overflow entry gives ERR_DATA to a lookup whose key it
matches and to no other. -/
def badPlaces (s : State) (t key : Nat) : List Nat :=
  if s.buckets.bad.isEmpty then []
  else
    let d := tableDef s.dict.live t
    let h := hashOf s t (defExt d) key
    let b := bucketOf d (regionBase t s) h
    let base := bucketPlace (defExt d) b
    let ways := if defExt d then ((List.range 4).find? fun w => tagWay (readTag s b) w == 0x8000 + fingerprint h).toList else List.range 4
    let here := ways.map fun w => base + w
    (here ++ ((findPlace s t key).filter fun p => !here.contains p).toList).filter fun p => (SMap.find? s.buckets.bad p).isSome

/-- The entry at a place. -/
def entryAt? (s : State) (p : Nat) : Option BucketEntry := SMap.find? s.buckets.entries p

/-- The tag word of a key's extended bucket is poisoned at home: a compare-and-swap there changes nothing (R280). -/
def tagPoisoned (s : State) (t key : Nat) : Bool := defExt (tableDef s.dict.live t) && tagWordBad s (keyBucket s t key)

/-- A lookup of a Lateral meets poison in its tag word, in the Lateral's cache or at home (R280). -/
def tagReadsPoison (s : State) (lateral t key : Nat) : Bool :=
  defExt (tableDef s.dict.live t) && readsPoison s lateral (tagWord (keyBucket s t key))

/-! ### Ticks (R213) -/

/-- The aging definition of a table (Table 9-4). -/
def agingDef (live : SMap Nat) (t : Nat) : Nat := SMap.get 0 live (O.agingDefinition t)

/-- AgingEnable. -/
def agingOn (a : Nat) : Bool := bit a 63

/-- TickExponent. -/
def tickExp (a : Nat) : Nat := bits a 58 54

/-- E in ns as the ticks count it: a paired secondary's estimate of its primary's count. -/
def tickTime (s : State) : Nat := unsigned 64 ((elapsed s : Int) + s.clock.tickAdj)

/-- now[t]. -/
def tickNow (s : State) (t : Nat) : Nat :=
  let k := tickExp (agingDef s.dict.live t)
  if k = 0 then 0 else tickTime s / 1000 / 2 ^ k % 65536

/-! ### Placing and removing -/

/-- An insertion failed: counted, its key kept, and vector 22 raised while armed (R195). -/
def insertFailed (t key : Nat) (s : State) : State :=
  let s := (s.bump (O.insertFailures t)).put (O.lastFailedKey t) (leNat (beBytes 40 key))
  if bit s.buckets.disarmed t then s
  else vector 22 (onBuckets (fun b => { b with disarmed := b.disarmed ||| 2 ^ t }) s)

/-- Where an insertion of an absent key goes: the place, or the detail of its failure (R193, R197). -/
def planInsert (s : State) (t key : Nat) : Nat ⊕ Nat :=
  let d := tableDef s.dict.live t
  let h := hashOf s t (defExt d) key
  let b := bucketOf d (regionBase t s) h
  let base := bucketPlace (defExt d) b
  match (List.range 4).find? fun w => placeFree s (base + w) with
  | some w =>
    if defExt d && (List.range 4).any fun w => tagWay (readTag s b) w == 0x8000 + fingerprint h then .inr 0x2605
    else .inl (base + w)
  | none =>
    if defExt d || decide (defOverflow d ≤ overflowOf t s) then .inr 0x2604
    else match (List.range 4096).find? fun o => placeFree s (0x40000 + o) with
      | some o => .inl (0x40000 + o)
      | none => .inr 0x2604

/-- OverflowPeak follows OverflowInUse. -/
def notePeak (s : State) : State := s.peak O.overflowPeak (overflowInUse s)

/-- The tag word of an extended place is poisoned: the compare-and-swap of its home slice changes nothing (R272, R280). -/
def tagBad (s : State) (p : Nat) : Bool := decide (0x100000 ≤ p) && tagWordBad s (placeBucket p)

/-- Make a new entry valid at its place: in the extended store the line first, then its tag (R198). -/
def placeEntry (p : Nat) (e : BucketEntry) (s : State) : State :=
  let s := putEntry p e s
  if 0x100000 ≤ p then
    let b := placeBucket p
    let w := p % 4
    writeTagWay b w (0x8000 + fingerprint (hashOf s e.table true e.key)) s
  else notePeak s

/-- Promote the overflow entry of the lowest slot whose table and bucket are those of a freed way (R191). -/
def promote (t p : Nat) (s : State) : State :=
  if 0x40000 ≤ p ∨ placeFree s p = false then s
  else match List.find? (fun e => isOverflow e.1 && e.2.table == t && keyBucket s t e.2.key == placeBucket p) s.buckets.entries with
    | some e => (dropEntry e.1 (putEntry p e.2 s)).bump O.promotions
    | none => s

/-- Remove the entry at a place: in the extended store the tag first, then the line; on chip a promotion may follow. Where the tag word is
poisoned, nothing changes and the atomic is counted (R280). -/
def removeEntry (t p : Nat) (s : State) : State :=
  if tagBad s p then poisonHit s
  else if 0x100000 ≤ p then
    let b := placeBucket p
    let w := p % 4
    dropEntry p (writeTagWay b w 0 s)
  else promote t p (dropEntry p s)

/-- A host entry as BUCKET_INSERT makes it. -/
def hostEntry (s : State) (t key record : Nat) (static : Bool) (hostState : Nat) : BucketEntry :=
  { key, record, timestamp := tickNow s t, static, sealed := false, learned := false, moveLocked := false,
    gen := bit s.buckets.gens t, table := t, flap := 0, flapStart := 0, channel := 0, hostState, created := timebase s }

/-- The slice invalidates the entries of a lookup's uncorrectable places; a sealed one waits for a Marionette to restore it (Table 13-6). -/
def invalidateBad (ps : List Nat) (s : State) : State :=
  ps.foldl (fun s p => match entryAt? s p with
    | some e => if e.sealed then s else removeEntry e.table p s
    | none => onBuckets (fun b => { b with bad := SMap.erase b.bad p }) s) s

/-- A place with an uncorrectable word is handled: a sealed entry is restored from its bundle, another is invalidated (Table 13-6). -/
def repairPlace (p : Nat) (s : State) : State :=
  match SMap.find? s.buckets.bad p with
  | none => s
  | some _ => onBuckets (fun b => { b with bad := SMap.erase b.bad p }) (invalidateBad [p] s)

/-- A command's operation met content that cannot be read; its status and detail are not stated (R80, R280). -/
def failUnreadable (s : State) : OpRes :=
  let (n, s) := drawFresh s
  .fail (0x10 + (Config.freeValue n).toNat % 12) ((Config.freeValue n).toNat / 16 % 65536) s

/-- The Result of an insertion: the bucket number, or 0x8000_0000 + overflow slot. -/
def placeResult (p : Nat) : Nat := if isOverflow p then 0x80000000 + (p - 0x40000) else placeBucket p

/-! ### The operand block (Table 8-4) -/

/-- The key of a block. -/
def blockKey (b : Bytes) : Nat := be b 16 40

/-- The operand checks of R192 in the order of its list; `del` for BUCKET_DELETE. Fields that Table 8-4 marks reserved (0) are ignored (R3). -/
def blockDetail (s : State) (del : Bool) (b : Bytes) : Option Nat :=
  let t := u8 b 0
  let d := tableDef s.dict.live t
  if 63 < t ∨ defDefined d = false then some 0x2601
  else if blockKey b % 2 ^ (320 - defKeyWidth d) ≠ 0 then some 0x2602
  else if !del && decide (262143 < le b 4 4) then some 0x2603
  else if bits (u8 b 1) 4 2 ≠ 0 ∨ le b 2 2 ≠ 0 ∨ (le b 8 4 ≠ 0 ∧ (del = true ∨ defExt d = false)) then some 0x2112
  else none

/-- A command on table `t` must wait for ExtReady (R200) or completes MODE where LPDDR5 failed (R428). -/
def extGate (s : State) (t : Nat) : Option OpRes :=
  if defExt (tableDef s.dict.live t) then
    if s.val O.lpddrState = 4 then some (.fail 0x19 0x2B01 s)
    else if s.val O.extReady = 0 ∨ bit s.modes.refLost 4 = true then some .wait
    else none
  else none

/-- BUCKET_INSERT on a checked block (R193, R195, R197). -/
def insertBlock (b : Bytes) (s : State) : OpRes :=
  let t := u8 b 0
  let key := blockKey b
  if (findPlace s t key).isSome then .fail 0x12 0 s
  else match planInsert s t key with
    | .inr 0x2605 => .fail 0x10 0x2605 s
    | .inr d => .fail 0x10 d (insertFailed t key s)
    | .inl p => .done 0 (placeResult p) (placeEntry p (hostEntry s t key (le b 4 4) (bit (u8 b 1) 1) (le b 8 4)) s)

/-- BUCKET_UPDATE on a checked block (R193). -/
def updateBlock (b : Bytes) (s : State) : OpRes :=
  let t := u8 b 0
  match findPlace s t (blockKey b) with
  | none => .fail 0x11 0 s
  | some p =>
    match entryAt? s p with
    | none => .fail 0x11 0 s
    | some e =>
      if e.sealed then .fail 0x13 0 s
      else .done 0 0 (putEntry p { e with record := le b 4 4, static := bit (u8 b 1) 1, hostState := le b 8 4, learned := false, flap := 0, timestamp := tickNow s t } s)

/-- BUCKET_DELETE on a checked block (R193, R191). -/
def deleteBlock (b : Bytes) (s : State) : OpRes :=
  let t := u8 b 0
  match findPlace s t (blockKey b) with
  | none => .fail 0x11 0 s
  | some p =>
    match entryAt? s p with
    | none => .fail 0x11 0 s
    | some e => if e.sealed then .fail 0x13 0 s else .done 0 0 (removeEntry t p s)

/-! ### FLOW_FLUSH (R194) -/

/-- An entry is selected by a flush's Select and RecordMatch. -/
def flushSelects (select match_ : Nat) (e : BucketEntry) : Bool :=
  !e.sealed && (if e.learned then bit select 0 else if e.static then bit select 2 else bit select 1) &&
  (!bit match_ 31 || e.record == match_ % 262144)

/-- Remove entries one by one; overflow entries follow into freed ways. -/
def flushAll (t : Nat) (select match_ : Nat) : List Nat → Nat × State → Nat × State
  | [], r => r
  | p :: ps, (n, s) =>
    match entryAt? s p with
    | some e => if e.table = t ∧ flushSelects select match_ e = true then flushAll t select match_ ps (if tagBad s p then n else n + 1, removeEntry t p s)
        else flushAll t select match_ ps (n, s)
    | none => flushAll t select match_ ps (n, s)

/-- FLOW_FLUSH on its direct operands; overflow entries are removed first, so that none is promoted into a way already passed. -/
def opFlowFlush (d : Bytes) (s : State) : OpRes :=
  let t := u8 d 8
  let select := u8 d 9
  let m := le d 12 4
  if 63 < t ∨ defDefined (tableDef s.dict.live t) = false then .fail 0x14 0x2601 s
  else if bits select 7 3 ≠ 0 ∨ allZero d 10 2 = false ∨ bits m 30 18 ≠ 0 ∨ allZero d 16 48 = false then .fail 0x14 0x2112 s
  else match extGate s t with
    | some r => r
    | none =>
      let r := flushAll t select m ((tableEntries t s).map (·.1)).reverse (0, s)
      .done 0 r.1 r.2

/-! ### Regions (R183, R201) -/

/-- The regions in use in a store as (base, length), from given definitions and bases. -/
def regionsOf (live : SMap Nat) (base : Nat → Option Nat) (ext : Bool) : List (Nat × Nat) :=
  (List.range 64).filterMap fun t =>
    let d := tableDef live t
    if defDefined d && defExt d == ext then (base t).map fun b => (b, 2 ^ defLog2 d) else none

/-- The lowest free position of a store aligned to `size`. -/
def lowestRegion (ext : Bool) (used : List (Nat × Nat)) (size : Nat) : Option Nat :=
  ((List.range (storeBuckets ext / size)).map (· * size)).find? fun a =>
    used.all fun u => u.1 + u.2 ≤ a || a + size ≤ u.1

/-- A table keeps its region over a commit. -/
def keepsRegion (old new : SMap Nat) (t : Nat) : Bool :=
  let a := tableDef old t
  let b := tableDef new t
  defDefined a && defDefined b && defExt a == defExt b && defLog2 a == defLog2 b

/-- Place regions for tables that need one, ascending, clear of those kept on chip and in the extended store; answers the bases and the first
table that finds no space. -/
def placeRegions (kept : Bool → List (Nat × Nat)) (new : SMap Nat) : List Nat → (Nat → Option Nat) → (Nat → Option Nat) × Option Nat
  | [], base => (base, none)
  | t :: ts, base =>
    let d := tableDef new t
    if !defDefined d || (base t).isSome then placeRegions kept new ts base
    else match lowestRegion (defExt d) (kept (defExt d) ++ regionsOf new base (defExt d)) (2 ^ defLog2 d) with
      | some a => placeRegions kept new ts fun u => if u = t then some a else base u
      | none => (base, some t)

/-- The regions under new definitions. -/
def newRegions (s : State) (new : SMap Nat) : (Nat → Option Nat) × Option Nat :=
  placeRegions (fun ext => heldSpace s (if ext then 5 else 4)) new (List.range 64) fun t => if keepsRegion s.dict.live new t then some (regionBase t s) else none

/-- A commit check of chapter 8 that snapshot object `k` fails. -/
def bucketCheck (n : Nat) (s : State) (new : SMap Nat) (k : Nat) : Option Nat :=
  if O.bucketTableDefinition 0 ≤ k ∧ k ≤ O.bucketTableDefinition 63 then
    let t := k - O.bucketTableDefinition 0
    let a := tableDef s.dict.live t
    let b := tableDef new t
    if n = 1 then
      if tableHolds t s && (!defDefined b || defExt a != defExt b || defKeyWidth a != defKeyWidth b || defLog2 a != defLog2 b)
        then some 0x2610
      else if !tableDefOk b then some 0x2020
      else none
    else if n = 6 then (if (newRegions s new).2 = some t then some 0x2611 else none)
    else none
  else none

/-- At the commit instant the regions are placed; `old` is the configuration before it. -/
def bucketCommit (old : SMap Nat) (s : State) : State :=
  let base := (newRegions { s with dict := { s.dict with live := old } } s.dict.live).1
  (List.range 64).foldl (fun s t => s.put (O.regionBase t) ((base t).getD 0)) s

/-! ### Bulk load and dump (R201) -/

/-- An image record keeps its format for table `t`. -/
def bucketImageOk (s : State) (t : Nat) (b : Bytes) : Bool := u8 b 0 == t && (blockDetail s false b).isNone

/-- Place the entries of the new generation one by one; a key that finds no place, or none where a tag word is poisoned. -/
def placeAll (t : Nat) : List BucketEntry → State → Option Nat ⊕ State
  | [], s => .inr s
  | e :: es, s =>
    match planInsert s t e.key with
    | .inl p => if tagBad s p then .inl none else placeAll t es (placeEntry p e s)
    | .inr _ => .inl (some e.key)

/-- The second region of a load of table `t`. -/
def loadRegion (ext : Bool) (t : Nat) (s : State) : Option Nat :=
  let used := regionsOf s.dict.live (fun u => some (regionBase u s)) ext
  lowestRegion ext (heldSpace s (if ext then 5 else 4) ++ used) (2 ^ defLog2 (tableDef s.dict.live t))

/-- BULK_LOAD of TableKinds 3 and 4: a second region, the flip of gen[t], and the release of the first. -/
def loadBuckets (ext : Bool) (t : Nat) (img : Bytes) (s : State) : OpRes :=
  let d := tableDef s.dict.live t
  if 63 < t ∨ defDefined d = false ∨ defExt d ≠ ext then .fail 0x14 0x2601 s
  else match extGate s t with
    | some r => r
    | none =>
      let rs := records 64 img
      let kept := (tableEntries t s).filter fun e => e.2.sealed
      let keys := rs.map blockKey ++ kept.map fun e => e.2.key
      if img.length % 64 ≠ 0 ∨ (rs.all (bucketImageOk s t) && decide keys.Nodup) = false then .fail 0x14 0x2606 s
      else
        match loadRegion ext t s with
        | none => .fail 0x10 0x2607 s
        | some base =>
          let gen := !bit s.buckets.gens t
          let flip := fun (e : BucketEntry) => { e with gen }
          let images := rs.map fun b => flip (hostEntry s t (blockKey b) (le b 4 4) (bit (u8 b 1) 1) (le b 8 4))
          let old := (tableEntries t s).map (·.1)
          let oldOver := old.filter isOverflow
          -- the old generation keeps its overflow slots while the new one is placed, but does not count towards OverflowLimit
          let s0 := onBuckets (fun b => { b with
            entries := b.entries.filter fun e => e.2.table != t
            reserved := oldOver ++ b.reserved
            gens := b.gens ^^^ 2 ^ t }) (old.foldl (fun s p => if 0x100000 ≤ p then removeEntry t p s else s) s)
          -- DESIGN CHOICE: the sealed entries are placed first, and then the image's in its order
          match placeAll t (kept.map (fun e => flip e.2) ++ images) (s0.put (O.regionBase t) base) with
          | .inr s1 =>
            let s1 := s1.peak O.overflowPeak (overflowInUse s1 + oldOver.length)
            .done 0 rs.length (onBuckets (fun b => { b with reserved := b.reserved.filter fun p => !oldOver.contains p }) s1)
          | .inl (some k) => .fail 0x10 0x2604 (insertFailed t k s)
          | .inl none => failUnreadable (poisonHit s)

/-- The sealed entries of table `t` become those of a bundle's image; an unsealed entry with the same key gives way (R318). Answers a
detail class: 1 the image fails its checks, 2 no room. -/
def sealBuckets (ext : Bool) (t : Nat) (img : Bytes) (s : State) : Nat ⊕ State :=
  let d := tableDef s.dict.live t
  let rs := records 64 img
  let keys := rs.map blockKey
  if 63 < t ∨ defDefined d = false ∨ defExt d ≠ ext ∨ img.length % 64 ≠ 0 ∨ (rs.all (bucketImageOk s t) && decide keys.Nodup) = false then .inl 1
  else
    let gone := ((tableEntries t s).filter fun e => e.2.sealed || keys.contains e.2.key).map (·.1)
    let s := gone.reverse.foldl (fun s p => removeEntry t p s) s
    match placeAll t (rs.map fun b => { hostEntry s t (blockKey b) (le b 4 4) (bit (u8 b 1) 1) (le b 8 4) with sealed := true }) s with
    | .inr s => .inr s
    | .inl _ => .inl 2

/-- One dump record (Table 8-4). -/
def dumpEntry (e : BucketEntry) : Bytes :=
  beBytes 1 e.table ++
  beBytes 1 (2 * b2n e.static + 4 * b2n e.sealed + 8 * b2n e.learned + 16 * b2n e.moveLocked) ++
  leBytes 2 e.timestamp ++ leBytes 4 e.record ++ leBytes 4 e.hostState ++ zeros 4 ++ beBytes 40 e.key ++ zeros 8

/-- TABLE_DUMP of a bucket table: in bucket order, then overflow order. -/
def dumpBuckets (t : Nat) (s : State) : Bytes := (tableEntries t s).flatMap fun e => dumpEntry e.2

/-- The lookup's token of R199: a lookup that finds none waits and is counted. -/
def takeExtToken (s : State) : State :=
  let now := elapsed s
  let level := min 8000 (s.buckets.tokens + (s.obj O.extLookupRate * (now - s.buckets.tokensAt) : Nat))
  let t := onBuckets (fun b => { b with tokens := level - 1000, tokensAt := now }) s
  if 1000 ≤ level then t else t.bump O.extLookupsDeferred

end Sys2Proof.Machine
end

