-- ==== Sys2Proof/Machine/Learning.lean ====
section
/-! DEFINITION. Learning and aging: what a source lookup posts, how a table slice applies it, the aging sweep, the move-lock, and
the bucket commands as their slice executes them (R190, R204–R221). -/

namespace Sys2Proof.Machine

/-! ### Definitions (Tables 9-4, 9-5) -/

/-- RefreshAnyHit. -/
def agingAnyHit (a : Nat) : Bool := bit a 62

/-- AgeTicks. -/
def ageTicks (a : Nat) : Nat := bits a 47 32

/-- SweepTicks. -/
def sweepTicks (a : Nat) : Nat := bits a 30 16

/-- The learn definition of a table. -/
def learnDef (live : SMap Nat) (t : Nat) : Nat := SMap.get 0 live (O.learnDefinition t)

/-- FlapLimit. -/
def flapLimit (l : Nat) : Nat := bits l 59 56

/-- LearnRecordBase. -/
def learnBase (l : Nat) : Nat := bits l 49 32

/-- FlapWindow. -/
def flapWindow (l : Nat) : Nat := bits l 29 16

/-- LearnChannelBits. -/
def learnBits (l : Nat) : Nat := bits l 15 12

/-- An aging definition keeps Table 9-4. -/
def agingOk (a : Nat) : Bool :=
  (if agingOn a then decide (10 ≤ tickExp a ∧ tickExp a ≤ 26) && decide (2 ≤ ageTicks a ∧ ageTicks a ≤ 32768) &&
      decide (1 ≤ sweepTicks a ∧ sweepTicks a ≤ 16384)
   else !agingAnyHit a && ageTicks a == 0 && sweepTicks a == 0 && (tickExp a == 0 || decide (10 ≤ tickExp a ∧ tickExp a ≤ 26)))

/-- A learn definition keeps Table 9-5 and its record range (R205, R219). -/
def learnOk (l : Nat) : Bool :=
  decide (flapLimit l ≤ 14) && decide (learnBits l ≤ 12) &&
  (if flapLimit l = 0 then flapWindow l == 0 else decide (1 ≤ flapWindow l)) &&
  (l == 0 || decide (learnBase l + 8 * 2 ^ learnBits l ≤ 262144))

/-- The table whose definitions key `k` concerns, with 0 the table, 1 the aging, 2 the learn definition. -/
def learnObject (k : Nat) : Option (Nat × Nat) :=
  if O.bucketTableDefinition 0 ≤ k ∧ k ≤ O.bucketTableDefinition 63 then some (0, k - O.bucketTableDefinition 0)
  else if O.agingDefinition 0 ≤ k ∧ k ≤ O.agingDefinition 63 then some (1, k - O.agingDefinition 0)
  else if O.learnDefinition 0 ≤ k ∧ k ≤ O.learnDefinition 63 then some (2, k - O.learnDefinition 0)
  else none

/-- A commit check of chapter 9 that snapshot object `k` fails (R219). -/
def learnCheck (n : Nat) (s : State) (new : SMap Nat) (k : Nat) : Option Nat :=
  if n ≠ 1 then none
  else match learnObject k with
    | none => none
    | some (kind, t) =>
      let a := agingDef new t
      let l := learnDef new t
      let defined := defDefined (tableDef new t)
      if (kind = 1 ∧ agingOk a = false) ∨ (kind ≤ 1 ∧ defined = false ∧ agingOn a = true) then some 0x2710
      else if (kind = 2 ∧ learnOk l = false) ∨ (kind ≠ 1 ∧ defined = false ∧ l ≠ 0) ∨
        (1 ≤ kind ∧ flapLimit l ≠ 0 ∧ tickExp a = 0) then some 0x2711
      else if kind = 1 ∧ tickExp a ≠ tickExp (agingDef s.dict.live t) ∧ tableHolds t s = true then some 0x2712
      else none

/-! ### Posting to the slices (R190, R204–R206, R214) -/

/-- Operations waiting at a slice. -/
def sliceLength (s : State) (slice : Nat) : Nat := (s.buckets.queue.filter fun q => q.1 == slice).length

/-- Post a learn or refresh to the slice of its key's bucket; a full queue discards it (R190). -/
def postSlice (t key : Nat) (op : SliceOp) (s : State) : State :=
  let slice := keyBucket s t key % 16
  if 64 ≤ sliceLength s slice then s.bump O.sliceDrops
  else onBuckets (fun b => { b with queue := b.queue ++ [(slice, op)] }) s

/-- A NEW learn is predicted full at the lookup (R206). -/
def predictedFull (s : State) (t key : Nat) : Bool :=
  let d := tableDef s.dict.live t
  let b := keyBucket s t key
  let limit := s.val (O.learnLimit t)
  let full := if defExt d then (List.range 4).all fun w => bit (readTag s b) (16 * w + 15)
    else ((List.range 4).all fun w => (entryAt? s (bucketPlace false b + w)).isSome) &&
      (decide (defOverflow d ≤ overflowOf t s) || decide (4096 ≤ overflowInUse s))
  full || (limit != 0 && decide (limit ≤ learnedOf t s))

/-- Post a refresh where R214 allows it; `r.stale` says that the Timestamp differed at the lookup. -/
def postRefresh (r : SourceRead) (s : State) : State :=
  let a := agingDef s.dict.live r.table
  if agingOn a && (r.learn || agingAnyHit a) && r.stale then postSlice r.table r.key (.refresh r.table r.key) s else s

/-- What a lookup of an exact-match table posts once its search has ended with a status of rank 5 to 8 (Table 9-1), as the lookup
classified it; the flag says that a NEW learn was predicted full. -/
def postLookup (link channel : Nat) (r : SourceRead) (s : State) : Bool × State :=
  let l := learnDef s.dict.live r.table
  let rec_ := learnBase l + link * 2 ^ learnBits l + channel
  if r.learn && defLearnable (tableDef s.dict.live r.table) && s.obj O.learnEnable != 0 then
    if 2 ^ learnBits l ≤ channel then (false, s.bump O.learnChannelRange)
    else match r.entry with
      | none =>
        if r.full then (true, insertFailed r.table r.key s)
        else (false, postSlice r.table r.key (.learn r.table r.key rec_ channel) s)
      | some e =>
        if e.record = rec_ then (false, postRefresh r s)
        else if e.static || e.sealed || !e.learned then (false, (postRefresh r s).bump O.staticConflicts)
        else if e.moveLocked then (false, (postRefresh r s).bump O.lockedMoveAttempts)
        else (false, postSlice r.table r.key (.learn r.table r.key rec_ channel) s)
  else match r.entry with
    | some _ => (false, postRefresh r s)
    | none => (false, s)

/-! ### What a slice executes (R207, R214, R217) -/

/-- Write the current tick as an entry's Timestamp, on chip a narrow write of the three bytes of its second word that hold bits [109:94] (Table 8-2,
R297); skipped when it is there already, and where the table does not age (R214, Table 9-4). -/
def refreshEntry (t p : Nat) (e : BucketEntry) (s : State) : State :=
  if e.timestamp = tickNow s t ∨ agingOn (agingDef s.dict.live t) = false then s
  else
    let s := if p < 0x40000 then mergeWrite (32 + placeBucket p % 16) (4 * p + 1) 0x38 s else s
    (onBuckets (fun b => { b with entries := SMap.insert b.entries p { e with timestamp := tickNow s t } }) s).bump O.refreshWrites

/-- A station move of entry `e` to record `r` (R207, R210). -/
def moveEntry (t p r channel : Nat) (e : BucketEntry) (s : State) : State :=
  let now := tickNow s t
  let l := learnDef s.dict.live t
  let e1 := if flapWindow l ≤ (now + 65536 - e.flapStart) % 65536 then { e with flapStart := now, flap := 0 } else e
  let e2 := { e1 with flap := min (e1.flap + 1) 15, record := r, channel, timestamp := now }
  let locks := flapLimit l != 0 && decide (flapLimit l < e2.flap)
  let s := putEntry p { e2 with moveLocked := locks } s
  let s := (s.bump O.stationMoves).bump O.learnsApplied
  if locks then
    vector 22 (journal 0x0050 (fit 12 (beBytes 1 t ++ beBytes 4 e.record ++ beBytes 4 r) ++ beBytes 40 e.key) (s.bump O.moveLocks))
  else s

/-- A slice applies a NEW or MOVE learn (R207). DESIGN CHOICE: a commit that has since undefined the table or cleared Learnable does not discard a
learn that waits; it is applied to the table as it is defined then. -/
def applyLearn (t key r channel : Nat) (s : State) : State :=
  match (findPlace s t key).bind fun p => (entryAt? s p).map fun e => (p, e) with
  | none =>
    let limit := s.val (O.learnLimit t)
    if limit ≠ 0 ∧ limit ≤ learnedOf t s then insertFailed t key s
    else match planInsert s t key with
      | .inr _ => insertFailed t key s
      | .inl p =>
        let e := hostEntry s t key r false 0
        (placeEntry p { e with learned := true, channel, flapStart := tickNow s t } s).bump O.learnsApplied
  | some (p, e) =>
    if e.static || e.sealed || !e.learned then s.bump O.staticConflicts
    else if e.record = r then refreshEntry t p e s
    else if e.moveLocked then s.bump O.lockedMoveAttempts
    else moveEntry t p r channel e s

/-- A slice applies a refresh; without an entry it is an orphan (R214). -/
def applyRefresh (t key : Nat) (s : State) : State :=
  match (findPlace s t key).bind fun p => (entryAt? s p).map fun e => (p, e) with
  | none => s.bump O.refreshOrphans
  | some (p, e) => refreshEntry t p e s

/-- A slice applies an aging compare-and-delete (R217). -/
def applyAgeDelete (t key ts : Nat) (s : State) : State :=
  match (findPlace s t key).bind fun p => (entryAt? s p).map fun e => (p, e) with
  | none => s.bump O.ageDeleteLost
  | some (p, e) =>
    if e.static || e.sealed || e.timestamp != ts then s.bump O.ageDeleteLost else (removeEntry t p s).bump O.agedOut

/-- The table and key of an operation. -/
def SliceOp.target : SliceOp → Nat × Nat
  | .learn t k _ _ | .refresh t k | .ageDelete t k _ => (t, k)

/-- One slice operation; on a poisoned tag word the atomic changes nothing (R280). -/
def applyOp (op : SliceOp) (s : State) : State :=
  if tagPoisoned s op.target.1 op.target.2 then poisonHit s
  else match op with
    | .learn t k r c => applyLearn t k r c s
    | .refresh t k => applyRefresh t k s
    | .ageDelete t k ts => applyAgeDelete t k ts s

/-- Execute every operation that waits at the chosen slices, in arrival order: what a command finds done at its turn (R190). -/
def drainOps (mine : Nat → Bool) (s : State) : State :=
  let ops := s.buckets.queue.filter fun q => mine q.1
  ops.foldl (fun s q => applyOp q.2 s) (onBuckets (fun b => { b with queue := b.queue.filter fun q => !mine q.1 }) s)

/-- An operation of an extended table needs a tag word at home, so it cannot execute while the domain is stopped (R218). -/
def opNeedsHome (s : State) (op : SliceOp) : Bool := defExt (tableDef s.dict.live op.target.1)

/-- At a domain failure the queued operations of extended tables are lost (R218, R284). -/
def loseExtOps (s : State) : State :=
  onBuckets (fun b => { b with queue := b.queue.filter fun q => !opNeedsHome s q.2 }) s

/-- Execute the head of a slice's queue where it is of the named kind; otherwise nothing happens. -/
def runHead (slice : Nat) (isKind : SliceOp → Bool) (s : State) : State :=
  match s.buckets.queue.find? fun q => q.1 == slice with
  | none => s
  | some q =>
    if !s.power.core || !isKind q.2 || (opNeedsHome s q.2 && s.val O.domainState != 0) then s
    else applyOp q.2 (onBuckets (fun b => { b with queue := b.queue.erase q }) s)

/-- LEARN_APPLY: a posted learn executes at its slice (R207). -/
def execLearnApply (slice : Nat) (s : State) : Result :=
  onUnit (slice < 16) (runHead slice (fun | .learn .. => true | _ => false) s)

/-- REFRESH: a posted timestamp refresh executes at its slice (R214). -/
def execRefresh (slice : Nat) (s : State) : Result :=
  onUnit (slice < 16) (runHead slice (fun | .refresh .. => true | _ => false) s)

/-- AGE_DELETE: an aging compare-and-delete executes at its slice (R217). -/
def execAgeDelete (slice : Nat) (s : State) : Result :=
  onUnit (slice < 16) (runHead slice (fun | .ageDelete .. => true | _ => false) s)

/-! ### The aging sweep (R215) -/

/-- What the sweep does with an entry that it reads: clear the FlapCount of a window that has run out, and post the delete of an expired one. -/
def sweepEntry (t p : Nat) (e : BucketEntry) (s : State) : State :=
  let a := agingDef s.dict.live t
  let now := tickNow s t
  let s := if e.flap ≠ 0 ∧ flapWindow (learnDef s.dict.live t) ≤ (now + 65536 - e.flapStart) % 65536 then putEntry p { e with flap := 0 } s else s
  if !e.static && !e.sealed && decide (ageTicks a ≤ (now + 65536 - e.timestamp) % 65536) then
    onBuckets (fun b => { b with queue := b.queue ++ [(keyBucket s t e.key % 16, .ageDelete t e.key e.timestamp)] }) s
  else s

/-- A descriptor is a BULK_LOAD or FLOW_FLUSH of table `t`. -/
def rewritesTable (t : Nat) (d : Bytes) : Bool :=
  (u8 d 0 == 0x31 && (u8 d 8 == 3 || u8 d 8 == 4) && le d 10 2 == t) || (u8 d 0 == 0x20 && u8 d 8 == t)

/-- A bulk load or flush of table `t` is under way, on a ring or forwarded by the peer. -/
def rewriting (t : Nat) (s : State) : Bool :=
  (s.host.rings.any fun g => g.waiting.isSome && rewritesTable t g.desc) || s.pair.held.any fun p => rewritesTable t p.desc

/-- The sweep of a table runs now (R215, R218). -/
def sweepRuns (t : Nat) (s : State) : Bool :=
  let d := tableDef s.dict.live t
  s.power.core && bit s.modes.classReady 1 && s.val O.domainState == 0 && defDefined d && agingOn (agingDef s.dict.live t) && !rewriting t s &&
  (!defExt d || (s.flag O.extReady && s.modes.drowse != 2 && s.modes.drowse != 3))

/-- AGING_SWEEP_READ: the sweep reads its next bucket, or its next overflow entry, and posts what R215 says; a full slice queue
makes it wait. DESIGN CHOICE: a lap begins at the tick of the read that ended the lap before it, the first one at its first read, and time in which
aging is disabled counts in it. -/
def execAgingSweepRead (t : Nat) (s : State) : Result :=
  onUnit (t < 64) (
    if !sweepRuns t s then s
    else
      let d := tableDef s.dict.live t
      let a := agingDef s.dict.live t
      let now := tickNow s t
      let nb := 2 ^ defLog2 d
      let sw := (SMap.find? s.buckets.sweeps t).getD ⟨0, now, false⟩
      let base := bucketPlace (defExt d) (regionBase t s)
      let overs := (tableEntries t s).filter fun e => isOverflow e.1
      let nextOver := fun from_ => overs.find? fun e => 0x40000 + from_ ≤ e.1
      let read : List (Nat × BucketEntry) :=
        if sw.pos < nb then (List.range 4).filterMap fun w =>
          ((entryAt? s (base + 4 * sw.pos + w)).filter fun e => e.table == t).map fun e => (base + 4 * sw.pos + w, e)
        else (nextOver (sw.pos - nb)).toList
      if read.any fun e => 60 < sliceLength s (keyBucket s t e.2.key % 16) then s
      else
        let s := read.foldl (fun s e => sweepEntry t e.1 e.2 s) s
        let pos := if sw.pos < nb then sw.pos + 1 else match read with
          | e :: _ => nb + (e.1 - 0x40000) + 1
          | [] => nb + 4096
        let done := decide (nb ≤ pos) && (nextOver (pos - nb)).isNone
        let lap := (now + 65536 - sw.lapStart) % 65536
        let overrun := !sw.late && decide (sweepTicks a < lap)
        let s := if overrun then s.bump O.sweepOverruns else s
        if done then
          (onBuckets (fun b => { b with sweeps := SMap.insert b.sweeps t ⟨0, now, false⟩ }) s).put (O.lastLapTicks t) lap
        else onBuckets (fun b => { b with sweeps := SMap.insert b.sweeps t ⟨pos, sw.lapStart, sw.late || overrun⟩ }) s)

/-! ### MoveLockClear (R211) -/

/-- Clear the move-lock of an entry. -/
def unlockEntry (t : Nat) (s : State) (e : BucketEntry) : BucketEntry :=
  { e with moveLocked := false, flap := 0, flapStart := tickNow s t }

/-- A MoveLockClear write of 42 bytes; a rejection is its abort code and detail. -/
def moveLockClear (v : Bytes) (s : State) : Option (Nat × Nat) × State :=
  let t := u8 v 0
  let all := bit (u8 v 1) 0
  let d := tableDef s.dict.live t
  if 63 < t ∨ defDefined d = false ∨ defLearnable d = false ∨ (all = true ∧ allZero v 2 40 = false) then (some (0x06090030, 0x2702), s)
  else if all then
    let s := drainOps (fun _ => true) s
    (none, onBuckets (fun b => { b with entries := b.entries.map fun e => if e.2.table = t then (e.1, unlockEntry t s e.2) else e }) s)
  else
    let key := be v 2 40
    let s := drainOps (fun sl => sl == keyBucket s t key % 16) s
    match (findPlace s t key).bind fun p => (entryAt? s p).map fun e => (p, e) with
    | none => (some (0x08000022, 0x2701), s)
    | some (p, e) => (none, putEntry p (unlockEntry t s e) s)

/-! ### The bucket commands as their slice executes them -/

/-- A bucket command: the operand checks, the wait of R200, the operations ahead of it at its slice, and then the command. On a poisoned tag
word its atomic changes nothing and is counted (R280); how the command completes is not stated. -/
def opBucket (del : Bool) (run : Bytes → State → OpRes) (b : Bytes) (s : State) : OpRes :=
  match blockDetail s del b with
  | some d => .fail 0x14 d s
  | none => match extGate s (u8 b 0) with
    | some r => r
    | none =>
      let s := drainOps (fun sl => sl == keyBucket s (u8 b 0) (blockKey b) % 16) s
      if tagPoisoned s (u8 b 0) (blockKey b) then failUnreadable (poisonHit s) else run b s

/-- FLOW_FLUSH behind the operations that wait at all slices. -/
def opFlush (d : Bytes) (s : State) : OpRes := opFlowFlush d (drainOps (fun _ => true) s)

/-- BULK_LOAD of TableKinds 3 and 4, once it passes its checks, behind the operations that wait at all slices: what they learned is lost at the
flip (Table 9-3). -/
def opLoadBuckets (ext : Bool) (t : Nat) (img : Bytes) (s : State) : OpRes :=
  match loadBuckets ext t img s with
  | .wait => .wait
  | .fail 0x14 x s => .fail 0x14 x s
  | _ => loadBuckets ext t img (drainOps (fun _ => true) s)

end Sys2Proof.Machine
end

