-- ==== Sys2Proof/Machine/Sluice.lean ====
section
/-! DEFINITION. Sluice: partial networks, wake sources, gate lines, PWR_HOLD and the timers (R351–R366). -/

namespace Sys2Proof.Machine

/-! ### Configuration that Sluice acts on -/

/-- An object of the copy that Sluice acts on (R363). -/
def sluiceObj (s : State) (k : Nat) : Nat := objIn 0 s.sluice.held k

/-- The definition of PN `p` (Table 16-1). -/
def pnDef (s : State) (p : Nat) : Nat := sluiceObj s (O.pnDefinition p)

/-- The PN is defined. -/
def pnDefined (s : State) (p : Nat) : Bool := bit (pnDef s p) 63

/-- The PN never leaves Awake-Requested. -/
def pnAlwaysOn (s : State) (p : Nat) : Bool := bit (pnDef s p) 62

/-- The gate lines of a PN definition, ascending. -/
def linesOf (d : Nat) : List Nat := bitList 24 d

/-- The definition of a source (Table 16-3). -/
def sourceDef (s : State) (src : Nat) : Nat := sluiceObj s (O.sourceDefinition src)

/-- The source is defined; events of any other are ignored. -/
def sourceDefined (s : State) (src : Nat) : Bool := bit (sourceDef s src) 63

/-- A pin source in level mode. -/
def levelMode (s : State) (src : Nat) : Bool := src < 8 && !bit (sourceDef s src) 62

/-! ### PNs, holds and masks -/

/-- The record of PN `p`. -/
def pnOf (s : State) (p : Nat) : Pn := SMap.get Pn.undefined s.sluice.pns p

/-- Set the record of PN `p`. -/
def setPn (p : Nat) (r : Pn) (s : State) : State :=
  { s with sluice := { s.sluice with pns := SMap.set Pn.undefined s.sluice.pns p r } }

/-- The PNs that a source holds. -/
def holdsOf (s : State) (src : Nat) : Nat := SMap.get 0 s.sluice.holds src

/-- The PNs for which a source is masked (R359). -/
def maskOf (s : State) (src : Nat) : Nat := SMap.get 0 s.sluice.masks src

/-- Set the PNs that a source holds. -/
def setHolds (src m : Nat) (s : State) : State :=
  { s with sluice := { s.sluice with holds := SMap.set 0 s.sluice.holds src m } }

/-- Set the PNs for which a source is masked. -/
def setMask (src m : Nat) (s : State) : State :=
  { s with sluice := { s.sluice with masks := SMap.set 0 s.sluice.masks src m } }

/-- The sources that hold PN `p`. -/
def holders (s : State) (p : Nat) : List Nat := (s.sluice.holds.filter fun e => bit e.2 p).map (·.1)

/-- `m` without bit `p`. -/
def clearBit (m p : Nat) : Nat := if bit m p then m - 2 ^ p else m

/-- What Sluice drives at the pin of a gate line (R352): 0 high-impedance, 1 low, 2 high, 3 released to the board's pull-up. -/
def gatePin (s : State) (line : Nat) : Nat :=
  let c := sluiceObj s (O.gateLineConfig line)
  let level := SMap.get 0 s.sluice.gates line
  if level = 0 then 0 else if (level == 1) == bit c 0 then (if bit c 1 then 3 else 2) else 1

/-- Drive a gate line: 0 high-impedance, 1 awake level, 2 sleep level (R352). -/
def setGate (line level : Nat) (s : State) : State :=
  { s with sluice := { s.sluice with gates := SMap.set 0 s.sluice.gates line level } }

/-- Every defined PN is Asleep, and at least one is defined (R360). -/
def allAsleep (s : State) : Bool :=
  let ps := (List.range 64).filter (pnDefined s)
  !ps.isEmpty && ps.all fun p => (pnOf s p).state == 1

/-! ### PWR_HOLD (R360) -/

/-- A wake asserts PWR_HOLD, once it has been low for PwrHoldMinLow. -/
def assertPwrHold (s : State) : State :=
  if s.sluice.pwrHold then s
  else if s.clock.wall < s.sluice.pwrHoldFell + sluiceObj s O.pwrHoldMinLow * 1000000 then
    { s with sluice := { s.sluice with wakeWaits := true } }
  else
    { s with
      sluice := { s.sluice with pwrHold := true, wakeWaits := false }
      power := { s.power with wakeReassert := true } }

/-- A wake before step 3 of Table 16-6 cancels Sleep entry, and the core stays in its mode. -/
def cancelSleepEntry (s : State) : State :=
  { s with sluice := { s.sluice with entry := 0 }, power := { s.power with tamperWake := s.power.tamperWake && !s.power.core } }

/-! ### Transitions (Table 16-5) -/

/-- The lines of a PN that are not yet at a level, in ascending order. -/
def linesLeft (s : State) (p level : Nat) : List Nat := (linesOf (pnDef s p)).filter fun l => SMap.get 0 s.sluice.gates l != level

/-- The next line of a waking PN goes to its awake level, in ascending order. -/
def wakeLine (p : Nat) (s : State) : State :=
  match linesLeft s p 1 with
  | l :: _ => setGate l 1 s
  | [] => s

/-- Commit complete: Asleep, masks of the PN cleared, a latched wake due 1 ms later. -/
def finishCommit (p : Nat) (s : State) : State :=
  let r := pnOf s p
  let s := { s with sluice := { s.sluice with masks := SMap.mapListed 0 (fun _ m => clearBit m p) s.sluice.masks } }
  setPn p { r with state := 1, latched := false, rewake := r.latched } s

/-- The next line of a committing PN goes to its sleep level, in descending order; after the last the Commit is complete. -/
def sleepLine (p : Nat) (s : State) : State :=
  match (linesLeft s p 2).reverse with
  | l :: rest =>
    let s := setGate l 2 s
    if rest.isEmpty then finishCommit p s else s
  | [] => finishCommit p s

/-- Asleep to Waking: the first line changes at once, the wake is counted, its source shown, and PWR_HOLD asserted. -/
def enterWaking (p src : Nat) (s : State) : State :=
  let s := wakeLine p (setPn p { pnOf s p with state := 2, latched := false, rewake := false, waker := src } s)
  let s := (s.bump (O.pnWakeCount p)).setObj O.lastWakeSource src
  assertPwrHold (cancelSleepEntry s)

/-- A wake from an unmasked source reaches a defined PN. -/
def wakePn (src p : Nat) (s : State) : State :=
  let r := pnOf s p
  match r.state with
  | 1 => if r.rewake then s else enterWaking p src s
  | 4 => setPn p { r with state := 3 } s
  | 5 => setPn p { r with state := 3 } s
  | 6 => setPn p { r with latched := true, waker := src } s
  | _ => s

/-- An event of source `src` for PN `p`: ignored and counted where the source is masked, else the PN is held and woken. -/
def eventPn (src p : Nat) (s : State) : State :=
  if !pnDefined s p then s
  else if bit (maskOf s src) p then s.bump O.maskedWakes
  else wakePn src p (setHolds src (holdsOf s src ||| 2 ^ p) s)

/-- An event of a source for the PNs of a mask (R353). -/
def sourceEvent (src pns : Nat) (s : State) : State :=
  if sourceDefined s src then (bitList 64 pns).foldl (fun s p => eventPn src p s) s else s

/-- The last requester of a PN in Awake-Requested has gone: Awake-Hold, HoldTime started. -/
def checkHold (p : Nat) (s : State) : State :=
  let r := pnOf s p
  if r.state = 3 ∧ holders s p = [] ∧ pnAlwaysOn s p = false then setPn p { r with state := 4 } s else s

/-- A source releases the PNs of a mask. -/
def releasePns (src pns : Nat) (s : State) : State :=
  let held := bitList 64 (holdsOf s src &&& pns)
  let s := setHolds src (held.foldl clearBit (holdsOf s src)) s
  held.foldl (fun s p => checkHold p s) s

/-- Prepare to Commit: the first line changes at once, and a PN of at most one line completes its Commit with it (R358). -/
def enterCommit (p : Nat) (s : State) : State := sleepLine p (setPn p { pnOf s p with state := 6, latched := false } s)

/-- Awake-Hold to Prepare: vector 18 raised; in Halt the PN goes on to Commit (R361). -/
def enterPrepare (p : Nat) (s : State) : State :=
  let s := setPn p { pnOf s p with state := 5 } s
  let s := if s.power.core then vector 18 s else s
  if s.modes.halted then enterCommit p s else s

/-- The next gate line of a waking or committing PN changes. -/
def gateStep (p : Nat) (s : State) : State :=
  if (pnOf s p).state = 2 then wakeLine p s else if (pnOf s p).state = 6 then sleepLine p s else s

/-- Mask a source for a PN: the mask is set, journalled and counted, and the source holds the PN no more (R359). -/
def maskSource (src p : Nat) (s : State) : State :=
  let s := setMask src (maskOf s src ||| 2 ^ p) s
  let s := journal 0x0070 (beBytes 1 p ++ beBytes 1 src) (s.bump O.overruns)
  releasePns src (2 ^ p) s

/-- Halt: Sluice drops source 8 and commits each PN in Prepare (R361). -/
def sluiceHalt (s : State) : State :=
  let s := releasePns 8 (2 ^ 64 - 1) s
  (List.range 64).foldl (fun s p => if (pnOf s p).state = 5 then enterCommit p s else s) s

/-! ### Commits (R362–R364) -/

/-- The values of 0x2E00–0x2EFF that differ from their defaults. -/
def sluiceLive (s : State) : SMap Nat := SMap.filterKeys (fun k => 0x2E0000 ≤ k && k < 0x2F0000 && k ≠ O.hostRequest) s.dict.live

/-- The PNs that a level pin or the host holds under a configuration for as long as its input lasts (Table 16-2). -/
def standing (obj : Nat → Nat) (s : State) (src : Nat) : Nat :=
  let d := obj (O.sourceDefinition src)
  if !bit d 63 then 0
  else if src = 8 then s.val O.hostRequest
  else if src < 8 ∧ bit d 62 = false ∧ bit s.sluice.pins src = true then obj (O.sourcePns src)
  else 0

/-- The PNs that a source may hold under the configuration. -/
def mayHold (s : State) (src : Nat) : Nat :=
  if !sourceDefined s src then 0 else if src = 8 then 2 ^ 64 - 1 else sluiceObj s (O.sourcePns src)

/-- The level pins and the host that hold a newly defined PN. -/
def standingHolders (s : State) (p : Nat) : List Nat := (List.range 9).filter fun src => bit (standing (sluiceObj s) s src) p

/-- A newly defined PN enters Awake-Hold or Awake-Requested with its lines at the awake level. -/
def definePn (p : Nat) (s : State) : State :=
  let hs := standingHolders s p
  let s := hs.foldl (fun s src => setHolds src (holdsOf s src ||| 2 ^ p) s) s
  let s := (linesOf (pnDef s p)).foldl (fun s l => setGate l 1 s) s
  setPn p { Pn.undefined with state := if pnAlwaysOn s p || !hs.isEmpty then 3 else 4 } s

/-- The lines that a PN's new definition no longer names go high-impedance. -/
def freeLines (p oldDef : Nat) (s : State) : State :=
  let d := if pnDefined s p then pnDef s p else 0
  ((linesOf oldDef).filter fun l => !bit d l).foldl (fun s l => setGate l 0 s) s

/-- An undefined PN's state, requesters and masks are discarded. -/
def undefinePn (p : Nat) (s : State) : State :=
  let s := { s with sluice := { s.sluice with
    masks := SMap.mapListed 0 (fun _ m => clearBit m p) s.sluice.masks
    holds := SMap.mapListed 0 (fun _ m => clearBit m p) s.sluice.holds } }
  setPn p Pn.undefined s

/-- A PN that stays defined keeps its state; added lines take its level. -/
def redefinePn (p oldDef : Nat) (s : State) : State :=
  let d := pnDef s p
  let level := if (pnOf s p).state = 1 then 2 else 1
  ((linesOf d).filter fun l => !bit oldDef l).foldl (fun s l => setGate l level s) s

/-- A commit that contains a 0x2E object: the live values replace the held copy, and Sluice takes the changes; lines are given up before others
take them (R352, R364). A PN taken out of a source's mask is held by it no more, and an active level pin or the host holds the PNs that its source
newly names (R353). -/
def sluiceCommit (s : State) : State :=
  let old := s.sluice.held
  let timers := (List.range 4).foldl (fun m i =>
    let v := objIn 0 (sluiceLive s) (O.wakeTimer i)
    if v = objIn 0 old (O.wakeTimer i) then m
    else if bit v 31 then m ||| 2 ^ i else clearBit m i) s.sluice.timers
  let s := { s with sluice := { s.sluice with held := sluiceLive s, configured := true, heldConfig := false, timers } }
  let defBefore (p : Nat) : Nat := objIn 0 old (O.pnDefinition p)
  let s := (List.range 64).foldl (fun s p => if bit (defBefore p) 63 then freeLines p (defBefore p) s else s) s
  let s := (List.range 64).foldl (fun s p =>
    if bit (defBefore p) 63 then (if pnDefined s p then redefinePn p (defBefore p) s else undefinePn p s)
    else if pnDefined s p then definePn p s else s) s
  (List.range 128).foldl (fun s src =>
    let s := releasePns src ((2 ^ 64 - 1) ^^^ mayHold s src) s
    let was := standing (objIn 0 old) s src
    sourceEvent src (standing (sluiceObj s) s src &&& ((2 ^ 64 - 1) ^^^ was)) s) s

/-- A value of a 0x2E object is allowed by Tables 16-1 and 16-3, R352 and R362; reserved bits are ignored (R3). -/
def sluiceRangeOk (k v : Nat) : Bool :=
  if O.pnDefinition 0 ≤ k ∧ k ≤ O.pnDefinition 63 then (if bit v 63 then decide (1 ≤ bits v 55 48) else v == 0)
  else if O.sourceDefinition 0 ≤ k ∧ k ≤ O.sourceDefinition 127 then
    let src := k - O.sourceDefinition 0
    let level := src < 8 && !bit v 62
    !bit v 63 || (decide (1 ≤ bits v 16 0 ∧ bits v 16 0 ≤ 86400) &&
      (if level || src == 8 then bits v 47 32 == 0 else decide (1 ≤ bits v 47 32)))
  else if O.wakeTimer 0 ≤ k ∧ k ≤ O.wakeTimer 3 then !bit v 31 || decide (1 ≤ bits v 16 0 ∧ bits v 16 0 ≤ 86400)
  else true

/-- Commit check 1 fails with SLUICE_RANGE on this object of a configuration (R364). -/
def sluiceBadObject (obj : Nat → Nat) (k : Nat) : Bool :=
  let defined := (List.range 64).foldl (fun m p => if bit (obj (O.pnDefinition p)) 63 then m ||| 2 ^ p else m) 0
  if O.sourcePns 0 ≤ k ∧ k ≤ O.sourcePns 127 then
    let src := k - O.sourcePns 0
    let v := obj k
    (src == 8 && v != 0) || (v &&& defined) != v
  else if O.sourceDefinition 0 ≤ k ∧ k ≤ O.sourceDefinition 127 then
    let src := k - O.sourceDefinition 0
    let v := obj k
    (8 ≤ src && bits v 62 56 != 0) || (13 ≤ src && src ≤ 15 && bit v 63) ||
      (let m := obj (O.sourcePns src); (m &&& defined) != m)
  else if O.pnDefinition 0 ≤ k ∧ k ≤ O.pnDefinition 63 then
    let p := k - O.pnDefinition 0
    !bit (obj k) 63 && (List.range 128).any fun src => bit (obj (O.sourcePns src)) p
  else if O.wakeTimer 0 ≤ k ∧ k ≤ O.wakeTimer 3 then
    let m := obj (O.sourcePns (9 + (k - O.wakeTimer 0)))
    (m &&& defined) != m
  else false

/-- The first gate line that two defined PNs of a configuration both name, as the higher-numbered PN (R351). -/
def lineConflict (obj : Nat → Nat) (k : Nat) : Bool :=
  if O.pnDefinition 0 ≤ k ∧ k ≤ O.pnDefinition 63 then
    let p := k - O.pnDefinition 0
    let d := obj k
    bit d 63 && (List.range 64).any fun q => q != p && bit (obj (O.pnDefinition q)) 63 && (bits (obj (O.pnDefinition q)) 23 0 &&& bits d 23 0) != 0
  else false

/-! ### Requests of the core across the crossing (R16) -/

/-- Sluice runs: its crystal is there. -/
def sluiceRuns (s : State) : Bool := !bit s.modes.refLost 8

/-- A request of the core for Sluice, which its crossing holds while the crystal is lost. -/
def askSluice (k v : Nat) (act : State → State) (s : State) : State :=
  if sluiceRuns s then act s else { s with sluice := { s.sluice with waiting := s.sluice.waiting ++ [(k, v)] } }

/-- The pending wake hits are sampled. -/
def takeHits (s : State) : State :=
  (bitList 128 s.sluice.hits).foldl (fun s src => sourceEvent src (sluiceObj s (O.sourcePns src)) s) { s with sluice := { s.sluice with hits := 0 } }

/-- An event of Sluice's own blocks, which stand still while the crystal is lost. Wakes pending by then are sampled in its tick and stand first in
the order of Table 16-5 (R357, R358). -/
def inSluice (act : State → State) (s : State) : State := if sluiceRuns s then act (takeHits s) else s

/-! ### The commands -/

/-- WAKE_PIN_ACTIVE: an event of the pin's source; a level pin holds while it stays active (R354). -/
def execWakePinActive (pin : Nat) (s : State) : Result :=
  onUnit (pin < 8) (inSluice (fun s =>
    let s := { s with sluice := { s.sluice with pins := s.sluice.pins ||| 2 ^ pin } }
    sourceEvent pin (sluiceObj s (O.sourcePns pin)) s) s)

/-- WAKE_PIN_RELEASE: a level pin releases its PNs on its first inactive sample (R354). -/
def execWakePinRelease (pin : Nat) (s : State) : Result :=
  onUnit (pin < 8) (inSluice (fun s =>
    let s := { s with sluice := { s.sluice with pins := clearBit s.sluice.pins pin } }
    if levelMode s pin then releasePns pin (2 ^ 64 - 1) s else s) s)

/-- WAKE_HIT: Sluice takes the pending hit of a network-management source (R355). -/
def execWakeHit (source : Nat) (s : State) : Result :=
  onUnit (16 ≤ source && source < 128) (
    if sluiceRuns s && bit s.sluice.hits source then
      let s := { s with sluice := { s.sluice with hits := clearBit s.sluice.hits source } }
      sourceEvent source (sluiceObj s (O.sourcePns source)) s
    else s)

/-- HostRequest written: 1 bits are wake events from source 8, 0 bits release (R356). -/
def hostRequest (v : Nat) (s : State) : State :=
  askSluice O.hostRequest v (fun s => sourceEvent 8 v (releasePns 8 (2 ^ 64 - 1 - v) s)) (s.put O.hostRequest v)

/-- SleepAck written: 1 bits acknowledge PNs in Prepare; others are stale and counted (R356). -/
def sleepAck (v : Nat) (s : State) : State :=
  askSluice O.sleepAck v (fun s =>
    (bitList 64 v).foldl (fun s p => if (pnOf s p).state = 5 then enterCommit p s else s.bump O.staleAcks) (takeHits s)) s

/-- SourceMaskClear written: the masks of one source or of all (R359). -/
def sourceMaskClear (v : Nat) (s : State) : State :=
  askSluice O.sourceMaskClear v (fun s => if v = 0xFF then { s with sluice := { s.sluice with masks := [] } } else setMask v 0 s) s

/-- The crystal is back: what the crossing held is taken, in order. -/
def takeHeld (s : State) : State :=
  s.sluice.waiting.foldl (fun s r =>
    if r.1 = 0 then sluiceCommit s
    else if r.1 = 1 then sluiceHalt s
    else if r.1 = O.hostRequest then sourceEvent 8 r.2 (releasePns 8 (2 ^ 64 - 1 - r.2) s)
    else if r.1 = O.sleepAck then sleepAck r.2 s
    else sourceMaskClear r.2 s) { s with sluice := { s.sluice with waiting := [] } }

/-- SOURCE_HOLD_EXPIRED: the source releases its PNs; level pins and the host have no SourceHold (R353). -/
def execSourceHoldExpired (source : Nat) (s : State) : Result :=
  onUnit (source < 128) (inSluice (fun s => if levelMode s source || source == 8 then s else releasePns source (2 ^ 64 - 1) s) s)

/-- WAKE_SETTLE_EXPIRED: Waking ends in Awake-Requested or Awake-Hold, after the last line (R357). -/
def execWakeSettleExpired (pn : Nat) (s : State) : Result :=
  onUnit (pn < 64) (inSluice (fun s =>
    let r := pnOf s pn
    if r.state = 2 ∧ linesLeft s pn 1 = [] then setPn pn { r with state := if holders s pn = [] ∧ pnAlwaysOn s pn = false then 4 else 3 } s
    else s) s)

/-- HOLD_TIME_EXPIRED: Awake-Hold to Prepare (R357). -/
def execHoldTimeExpired (pn : Nat) (s : State) : Result :=
  onUnit (pn < 64) (inSluice (fun s => if (pnOf s pn).state = 4 then enterPrepare pn s else s) s)

/-- ACK_TIMEOUT_EXPIRED: Prepare to Commit, counted as fail-safe (R357). -/
def execAckTimeoutExpired (pn : Nat) (s : State) : Result :=
  onUnit (pn < 64) (inSluice (fun s => if (pnOf s pn).state = 5 then enterCommit pn (s.bump O.failSafeCommits) else s) s)

/-- GATE_STEP_EXPIRED: the next gate line of the PN changes level (R352). -/
def execGateStepExpired (pn : Nat) (s : State) : Result := onUnit (pn < 64) (inSluice (gateStep pn) s)

/-- LATCHED_REWAKE: 1 ms after a Commit with a latched wake the PN enters Waking (R358). -/
def execLatchedRewake (pn : Nat) (s : State) : Result :=
  onUnit (pn < 64) (
    let r := pnOf s pn
    if sluiceRuns s = true ∧ r.state = 1 ∧ r.rewake = true then enterWaking pn r.waker (s.bump O.latchedRewakes) else s)

/-- SOURCE_MAX_AWAKE: a source that holds a PN beyond its MaxAwake is masked for it (R359). -/
def execSourceMaxAwake (source pn : Nat) (s : State) : Result :=
  onUnit (source < 128 && pn < 64) (if sluiceRuns s && bit (holdsOf s source) pn && !pnAlwaysOn s pn then maskSource source pn s else s)

/-- PN_MAX_AWAKE: every source that holds the PN is masked for it (R359). -/
def execPnMaxAwake (pn : Nat) (s : State) : Result :=
  onUnit (pn < 64) (
    if sluiceRuns s && pnDefined s pn && (pnOf s pn).state != 1 && !pnAlwaysOn s pn then
      (holders s pn).foldl (fun s src => maskSource src pn s) s
    else s)

/-- WAKE_TIMER: an event of source 9 + i; a periodic timer restarts, another stops (R362). -/
def execWakeTimer (timer : Nat) (s : State) : Result :=
  onUnit (timer < 4) (
    if sluiceRuns s && bit s.sluice.timers timer then
      let s := if bit (sluiceObj s (O.wakeTimer timer)) 30 then s
        else { s with sluice := { s.sluice with timers := clearBit s.sluice.timers timer } }
      sourceEvent (9 + timer) (sluiceObj s (O.sourcePns (9 + timer))) s
    else s)

/-- PWR_HOLD_MIN_LOW: a wake that waits for PwrHoldMinLow reasserts PWR_HOLD (R360). -/
def execPwrHoldMinLow (s : State) : Result :=
  .next (if sluiceRuns s && s.sluice.wakeWaits then
    { s with
      sluice := { s.sluice with pwrHold := true, wakeWaits := false }
      power := { s.power with wakeReassert := true } }
    else s)

end Sys2Proof.Machine
end

