-- ==== Sys2Proof/Machine/Search.lean ====
section
/-! DEFINITION. Search programs, the sequencer, combination to a verdict, the MAC operation of a search, and what a chain-wide step waits for
(R112–R135, R224–R226, R244, R252, R383, R384). -/

namespace Sys2Proof.Machine

/-- The detail code of a descriptor that breaks Tables 5-2 to 5-5, in the order of Table 5-15 (R115). DESIGN CHOICE: a FloodDomain or
FallbackDestSet above 4,095, a TCAM TableId above 255, and Quarter or Wide nonzero on another kind, for which Table 5-15 names no code, give
DESC_FORMAT (0x2301). -/
def programDetail (p : Bytes) : Option Nat :=
  let steps := usedSteps p
  let nx := pgExtractors p
  let reserved := bits (le p 0 2) 3 0 == 0 && !bit (le p 0 2) 14 && bits (u8 p 2) 1 0 == 0 && u8 p 3 == 0 && allZero p 8 8 && allZero p 120 8 &&
    decide (pgFallback p ≤ 5) && decide (pgFlood p ≤ 4095) && decide (pgFallbackDest p ≤ 4095) &&
    ((List.range 8).all fun i => bits (pgExtractor p i) 6 0 == 0 && (decide (i < nx) || pgExtractor p i == 0)) &&
    ((List.range 6).all fun i => decide (i < pgSteps p) || pgStep p i == 0) &&
    steps.all fun t => bits t 41 0 == 0 && decide (stMiss t ≤ 5) &&
      (if kindTcam (stKind t) then decide (stTable t ≤ 255) else stQuarter t == 0 && !stWide t)
  if !reserved then some 0x2301
  else if 6 < pgSteps p ∨ steps.any (fun t => stKind t == 0 || decide (5 < stKind t)) = true then some 0x2302
  else if 8 < nx ∨ ((List.range nx).all fun i => extractorOk (pgExtractor p i)) = false ∨
    steps.any (fun t => decide (2 ^ nx ≤ stMask t)) = true then some 0x2303
  else if steps.any fun t => decide (keyLimit t < keyWidth p t) then some 0x2304
  else if (pgClass p 1 && (pgClass p 2 || pgClass p 3)) || ((pgClass p 1 || pgClass p 2) && steps.any fun t => stKind t == 5) then some 0x2305
  else none

/-! ### Class A rules and commit checks (R129, R130, R103) -/

/-- A class A program breaks rule 1. -/
def aStepsBad (new : SMap Nat) (p : Bytes) : Bool :=
  let steps := usedSteps p
  !(decide (1 ≤ pgSteps p) && decide (pgSteps p ≤ 2) &&
    steps.all fun t => kindTcam (stKind t) && flumeQuarter new (stQuarter t) && !stLearn t && (stMiss t != 1 || decide (stRecord t ≤ 16383)))

/-- Rules 1 to 3 for program `n`: they bind every program whose class mask names the class. -/
def programRule (new : SMap Nat) (n : Nat) : Option Nat :=
  let p := programIn new n
  if pgClass p 1 && aStepsBad new p then some 0x2310
  else if pgClass p 1 && decide (1 < ((usedSteps p).filter fun t => stKind t == 2).length) then some 0x2311
  else if (pgClass p 2 || pgClass p 3) && (usedSteps p).any fun t => kindTcam (stKind t) && flumeQuarter new (stQuarter t) then some 0x2312
  else none

/-- The program of an object key. -/
def programOfKey (k : Nat) : Option Nat :=
  if O.program 0 ≤ k ∧ k ≤ O.program 1023 ∧ (k - O.program 0) % 256 < 128 then
    some (128 * ((k - O.program 0) / 256) + (k - O.program 0) % 256)
  else none

/-- Sum of an object over the enabled links. -/
def linkSum (nodeId : Nat) (new : SMap Nat) (o : Nat → Nat) : Nat :=
  ((List.range 8).map fun m => if objIn nodeId new (O.linkEnable m) != 0 then objIn nodeId new (o m) else 0).sum

/-- Check 7 for snapshot object `k`: a program, FlumeQ1, a class A rate or burst, or LinkEnable. -/
def classACheck (s : State) (new : SMap Nat) (k : Nat) : Option Nat :=
  match programOfKey k with
  | some n => programRule new n
  | none =>
    if k = O.flumeQ1 then (List.range 1024).findSome? (programRule new)
    else if (List.range 8).any fun m => k == O.classARate m || k == O.classABurst m || k == O.linkEnable m then
      if 80 < linkSum s.can.nodeId new O.classARate then some 0x2313
      else if 8 < linkSum s.can.nodeId new O.classABurst then some 0x2314
      else none
    else none

/-! ### Field extraction (R116, R117) -/

/-- `w` bits of a snapshot from bit position `pos` on; bits at or beyond its end read as 0. -/
def snapBits (snap : Bytes) (pos w : Nat) : Nat := beNat snap * 2 ^ (pos + w) / 2 ^ (8 * snap.length) % 2 ^ w

/-- A big-endian field of a snapshot. -/
def snapField (snap : Bytes) (off n : Nat) : Nat := snapBits snap (8 * off) (8 * n)

/-- VLAN tags that the parser counts. DESIGN CHOICE: where the snapshot ends inside a tag's two bytes, the missing byte reads as 0. -/
def tagCount (snap : Bytes) : Nat :=
  let t := snapField snap 12 2
  if t = 0x8100 ∨ t = 0x88A8 then (if snapField snap 16 2 = 0x8100 then 2 else 1) else 0

/-- `v`, or the snapshot's length where the computation needs bytes up to `need` beyond it. -/
def baseOr (snap : Bytes) (need v : Nat) : Nat := if snap.length < need then snap.length else v

/-- L2 end of an Ethernet snapshot. -/
def etherL2 (snap : Bytes) : Nat := baseOr snap (if tagCount snap = 0 then 14 else 18) (12 + 4 * tagCount snap)

/-- The EtherType at L2 end. DESIGN CHOICE: where the snapshot ends inside its two bytes, the missing byte reads as 0. -/
def etherType (snap : Bytes) : Nat := snapField snap (etherL2 snap) 2

/-- L4 start of an Ethernet snapshot. -/
def etherL4 (snap : Bytes) : Nat :=
  let l3 := etherL2 snap + 2
  if snap.length < l3 then snap.length
  else if etherType snap = 0x0800 then baseOr snap (l3 + 1) (l3 + 4 * (snapField snap l3 1 % 16))
  else if etherType snap = 0x86DD then l3 + 40
  else l3

/-- L4 payload of an Ethernet snapshot. -/
def etherL4Payload (snap : Bytes) : Nat :=
  let l3 := etherL2 snap + 2
  let l4 := etherL4 snap
  let at_ := if etherType snap = 0x0800 then some (l3 + 9) else if etherType snap = 0x86DD then some (l3 + 6) else none
  match at_ with
  | none => l4
  | some o =>
    if snap.length < o + 1 then snap.length
    else
      let proto := snapField snap o 1
      if proto = 17 then l4 + 8
      else if proto = 6 then baseOr snap (l4 + 13) (l4 + 4 * (snapField snap (l4 + 12) 1 / 16))
      else l4

/-- A base of Table 5-4. -/
def baseOf (bus base : Nat) (snap : Bytes) : Nat :=
  if base = 0 then 0
  else if bus = 0 then
    match base with
    | 1 => etherL2 snap
    | 2 => if etherL2 snap = snap.length then snap.length else etherL2 snap + 2
    | 3 => etherL4 snap
    | _ => etherL4Payload snap
  else match bus with
    | 1 | 2 => 8
    | 3 => 16
    | 4 => 1
    | 5 => 4
    | _ => 0

/-- A metadata field of Table 5-4. -/
def metaOf (link h : Nat) (snap : Bytes) (m : Nat) : Nat :=
  let ether := ktBus h == 0
  match m with
  | 0 => ktChannel h
  | 1 => ktBus h
  | 2 => ktUser h
  | 3 => ktFrame h
  | 4 => ktPayload h
  | 5 => link
  | 6 => ktPreColour h
  | 7 => if ether then tagCount snap else 0
  | 8 => if ether && 0 < tagCount snap then snapField snap 14 2 else 0
  | 9 => if ether && 1 < tagCount snap then snapField snap 18 2 else 0
  | _ => if ether && etherType snap == 0x0800 then 1 else if ether && etherType snap == 0x86DD then 2 else 0

/-- The output of an extractor. -/
def extract (link h : Nat) (snap : Bytes) (e : Nat) : Nat :=
  let w := exWidth e
  if bit e 31 then metaOf link h snap (bits e 10 7) % 2 ^ w
  else snapBits snap (8 * baseOf (ktBus h) (bits e 30 28) snap + bits e 27 18) w

/-- The key of a step as (value, width): extractor outputs most significant first, then the chain value (R118). -/
def stepKey (p : Bytes) (link h : Nat) (snap : Bytes) (chain t : Nat) : Nat × Nat :=
  let k := (bitList 8 (stMask t)).foldl (fun (a : Nat × Nat) i =>
    let e := pgExtractor p i
    (a.1 * 2 ^ exWidth e + extract link h snap e, a.2 + exWidth e)) (0, 0)
  if stChainIn t then (k.1 * 2 ^ 18 + chain, k.2 + 18) else k

/-- A key left-aligned in `n` bits. -/
def leftAlign (n : Nat) (k : Nat × Nat) : Nat := k.1 * 2 ^ (n - k.2)

/-! ### Verdicts -/

/-- A verdict without a record (R226). -/
def Verdict.plain (status action dest priority : Nat) : Verdict :=
  ⟨status, action, dest, priority, 3, 0x3FFFF, 0, 0, false, false, false, 0, 0⟩

/-- A verdict that Headgate decides alone (R106). DESIGN CHOICE: its EgressPriority, which neither R106 nor R132 states, is 0. -/
def headgateVerdict (status action : Nat) : Verdict := .plain status action 0 0

/-- A search that ends by FallbackAction (R122). -/
def fallbackVerdict (status : Nat) (p : Bytes) : Verdict :=
  .plain status (pgFallback p) (if pgFallback p = 2 then pgFlood p else pgFallbackDest p) (pgPriority p)

/-- The status has rank 5 to 8 in Table 5-10. -/
def rankLearns (st : Nat) : Bool := st < 4 || st == 0x30 || st == 0x50

/-! ### Slots -/

/-- The slot with an id. -/
def slotById (s : State) (id : Nat) : Option Slot := s.headgate.slots.find? fun x => x.id == id

/-- Change Headgate. -/
def onHeadgate (f : Headgate → Headgate) (s : State) : State := { s with headgate := f s.headgate }

/-- Replace a slot. -/
def putSlot (x : Slot) (s : State) : State :=
  onHeadgate (fun h => { h with slots := h.slots.map fun y => if y.id = x.id then x else y }) s

/-- Configuration objects lie below 0x3000; counters and status at and above it. -/
def configPart (m : SMap Nat) : SMap Nat := m.filter fun e => e.1 < 0x300000

/-- The counters and status values. -/
def statusPart (m : SMap Nat) : SMap Nat := m.filter fun e => 0x300000 ≤ e.1

/-- Run a step of a search under the configuration of its slot (R39). -/
def underConfig (cfg : SMap Nat) (f : State → State) (s : State) : State :=
  let s' := f { s with dict := { s.dict with live := cfg ++ statusPart s.dict.live } }
  { s' with dict := { s'.dict with live := configPart s.dict.live ++ statusPart s'.dict.live } }

/-- Absorb the rest of a payload (R105): until 10 us after its Key Token. -/
def absorbRest (x : Slot) (s : State) : State :=
  onHeadgate (fun h => { h with links := h.links.modify x.link fun l =>
    { l with absorbed := l.absorbed ++ [(slotClass x, ktTag x.header, x.since + 10000)] } }) s

/-- Post the lookups of a finished search; true where a learn was predicted full (R204, R206). -/
def postReads (x : Slot) : List SourceRead → State → Bool × State
  | [], s => (false, s)
  | r :: rs, s =>
    let (a, s) := postLookup x.link (ktChannel x.header) r s
    let (b, s) := postReads x rs s
    (a || b, s)

/-- The search has its verdict: the payload it no longer needs is released, learns are posted, and the result waits in its reorder
buffer (R125, R204, R252). -/
def finishSearch (x : Slot) (v : Verdict) (s : State) : State :=
  let s := if x.payState = .awaited then absorbRest x s else s
  let (full, s) := if rankLearns v.status then postReads x x.reads s else (false, s)
  let v := { v with status := if full && v.status == 0 then 2 else v.status, time := timebase s % 2 ^ 32 }
  putSlot { x with verdict := v, phase := .done, units := 0, payload := [], mac := none, reads := [],
                   payState := if x.payState = .awaited then .none else x.payState } s

/-! ### The MAC operation (R244, R252) -/

/-- MAC operations in progress on an engine. -/
def engineLoad (s : State) (e : Nat) : Nat :=
  (s.headgate.slots.filter fun x => x.phase == .mac && (x.mac.map (·.engine)) == some e).length

/-- The engine that an operation of class `cls` takes under its slot's configuration: the fewest operations, the lower index winning a tie;
none where no context is free. -/
def pickEngine (cfg : SMap Nat) (s : State) (cls : Nat) : Option Nat :=
  let es := if cls = 1 then [0] else if SMap.get 0 cfg O.classAAuth != 0 then [1, 2, 3] else [0, 1, 2, 3]
  let free := es.filter fun e => decide (engineLoad s e < 8)
  free.find? fun e => free.all fun f => decide (engineLoad s e ≤ engineLoad s f)

/-- Apply a status of rank 4 with a failure action to a verdict: 0 DROP, 1 HOST, 2 PASS. -/
def authFail (v : Verdict) (st act : Nat) : Verdict :=
  { v with status := st, action := if act = 0 then 1 else if act = 1 then 3 else v.action }

/-- Start the MAC operation of a search: the key is granted in one arbitration at its slot (R254), a free context taken, or waited for. -/
def startMac (x : Slot) (w : MacWork) (waited : Bool) (s : State) : State :=
  let r := x.resultRecord
  match pickEngine x.config s (slotClass x) with
  | none =>
    let s := if waited then s else s.bump O.macContextWaits
    putSlot { x with phase := .contextWait, mac := some w } s
  | some e =>
    match keyFor s w.profile (recKey r) with
    | .inl st => finishSearch x (authFail x.verdict st (apFailAction w.profile)) s
    | .inr key =>
      let s := if slotClass x = 1 ∧ ktPayload x.header ≤ 64 then onLink x.link (fun l => { l with macA := true }) s else s
      putSlot { x with phase := .mac, mac := some { w with key, engine := e } } s

/-- Rows 4 to 8 for a search whose payload is complete, inconsistent or absent. DEDUCED: LEN_MISMATCH of a verdict without a record takes that
verdict's action, since it has neither a profile nor a record (R125). -/
def authPayload (x : Slot) (s : State) : State :=
  let r := x.resultRecord
  let n := recAuth r
  let v := x.verdict
  if !recValid r || n == 0 then
    if x.payState = .inconsistent then finishSearch x { v with status := 0x21 } s
    else finishSearch x v (if ktPayload x.header = 0 ∨ v.record = 0x3FFFF then s else s.bump O.unusedPayloads)
  else
    let p := authProfileIn x.config n
    if x.payState = .inconsistent then finishSearch x (authFail v 0x21 (apFailAction p)) s
    else match authRow5 x.config p x.payload with
      | none => finishSearch x (authFail v 0x14 (apFailAction p)) s
      | some (_, f) =>
        if readsCounter p && freshReadsPoison (apStore p) (freshnessId p v.record) x.lateral s then
          finishSearch x (fallbackVerdict 0x40 (slotProgram x)) (freshSeen (apStore p) (freshnessId p v.record) s)
        else match authRows67 p v.record x.payload f s with
          | (none, s) => finishSearch x (authFail v 0x11 (apReplayAction p)) s
          | (some c, s) => startMac x ⟨p, n, [], c, 9⟩ false s

/-- Rows 1 to 3 once the record is read, then the wait for the payload (R244). -/
def authBegin (x : Slot) (s : State) : State :=
  let r := x.resultRecord
  let early := if recValid r && recAuth r != 0 then
      match authRows13 x.config s (slotClass x) (recAuth r) (recKey r) with
      | .inl f => some f
      | .inr _ => none
    else none
  match early with
  | some (st, act) => finishSearch x (authFail x.verdict st act) s
  | none => if x.payState = .awaited then putSlot { x with phase := .payloadWait } s else authPayload x s

/-! ### Combination (R121, R224) -/

/-- A colour action of the meter's profile. -/
def colourAction (prof : Bytes) (colour : Nat) : Nat := u8 prof (1 + colour)

/-- The meter of a record, where it has one: the colour and the profile it runs under, or none where it met poison. -/
def recordMeter (x : Slot) (r : Nat) (s : State) : Option (Nat × Bytes) × State :=
  if recValid r && recMeterEnable r then
    let flume := slotClass x == 1
    if flume && SMap.get false s.results.bad (2 ^ 21 + recMeter r) then (none, s)
    else
      let s := reachMeter flume (recMeter r) s
      let prof := meterProfileIn x.config (meterProfileId (readMeter (b2n flume) (recMeter r) s))
      match meterUpdate x.config flume (recMeter r) (ktFrame x.header) (ktPreColour x.header) s with
      | (some c, s) => (some (c, prof), s)
      | (none, s) => (none, s)
  else (some (3, []), s)

/-- The verdict of R224 and R225 from a record, a colour and its profile. -/
def recordVerdict (cand r : Nat) (fromDefault : Bool) (colour : Nat) (prof : Bytes) : Verdict :=
  let act0 := if recValid r then recAction r else 1
  let st0 := if fromDefault then 1 else if act0 = 1 then 0x50 else 0
  let a := colourAction prof colour
  let code := if colour = 3 then 0 else bits a 7 6
  let act := if code = 1 then 1 else if code = 2 then 3 else act0
  let prio := if code = 3 then bits a 5 3 else recPriority r
  let st := if colour = 2 ∧ code ≠ 0 then 0x30 else st0
  ⟨st, act, recDest r, prio, colour, cand, recTransform r, recMirrorSet r, recMirror r == 1, recHost r == 1, false, 0, 0⟩

/-- combine(): read the record, run its meter, post its counter, and go on to authentication. -/
def combine (x : Slot) (cand : Nat) (fromDefault : Bool) (s : State) : State :=
  let store := b2n (slotClass x == 1)
  let bad := if store = 1 then SMap.get false s.results.bad (2 ^ 20 + cand) else readsPoison s x.lateral (2 * cand)
  if bad then finishSearch x (fallbackVerdict 0x40 (slotProgram x)) s
  else
    let r := readRecord store cand s
    let s := if recValid r then s else s.bump O.invalidRecordHits
    let (meter, s) := recordMeter x r s
    let s := if recValid r && recCountEnable r && store == 0 then postCount (recCounter r) (ktFrame x.header) s else s
    match meter with
    | none => finishSearch x (fallbackVerdict 0x40 (slotProgram x)) s
    | some (colour, prof) => authBegin { x with verdict := recordVerdict cand r fromDefault colour prof, resultRecord := r } s

/-! ### The sequencer (R121) -/

/-- What one lookup gives. -/
inductive Lookup where
  | hit (record : Nat)
  | miss
  | bad
  | timeout
  | chain (own : Option (Nat × Nat)) (word : Nat)
  deriving DecidableEq, Repr

/-- A hit of a Wake table posts a wake hit to Sluice, which maps it by its held copy (R355, R363). -/
def postWake (v : Nat) (s : State) : State :=
  let b := sluiceObj s O.wakeRecordBase
  if b + 16 ≤ v ∧ v ≤ b + 127 then
    { s with sluice := { s.sluice with hits := s.sluice.hits ||| 2 ^ (v - b) } }
  else s.bump O.wakeHitsUnmapped

/-- The RecordIndex field of a message whose lookup failed at a member: the manual's message has no place for ERR_DATA, and these bits
above RecordIndex carry it. DESIGN CHOICE. -/
def badRecord : Nat := 0xFFFFFF

/-- A TCAM lookup of this device, with its Wake hit (class A in Q0). -/
def tcamStep (x : Slot) (t key : Nat) (s : State) : Lookup × State :=
  let q := stQuarter t
  match tcamTable x.config q (stTable t) with
  | none => (.miss, s)
  | some i =>
    let d := tcamDef x.config q i
    let word := searchWord (stTable t) (stWide t) key
    -- a chain-wide step sends its LOOKUP whatever the own search meets (R383)
    let lost : Lookup := if stKind t = 2 then .chain (some (0, badRecord)) word else .bad
    if tdWide d != stWide t || (stKind t == 2 && !tdChain d) then (.miss, s)
    else if stKind t = 2 ∧ s.val O.chainState ≠ 2 then (.timeout, s)
    else if quarterOut s q then (lost, s)
    else
      match tcamLookup q (stTable t) (stWide t) word s with
      | (.mismatch, s) => (lost, s)
      | (.miss, s) => (if stKind t = 2 then .chain none word else .miss, s)
      | (.hit k h, s) =>
        if stKind t = 2 then (.chain (some (k % 8192, h.record)) word, s)
        else (.hit h.record, if tdWake d && q == 0 && slotClass x == 1 then postWake h.record s else s)

/-- An exact-match lookup: the outcome, and what it read. An uncorrectable word that it reads gives ERR_DATA, and its slice invalidates the
entry (R188, R280, Table 13-6). -/
def bucketStep (lateral t key : Nat) (s : State) : Lookup × Option SourceRead × State :=
  let n := stTable t
  let ext := stKind t == 5
  let d := tableDef s.dict.live n
  if 63 < n ∨ defDefined d = false ∨ defExt d ≠ ext then (.miss, none, s)
  else
    let k := trimKey d key
    let s := if ext then takeExtToken s else s
    let bad := badPlaces s n k
    if tagReadsPoison s lateral n k then (.bad, none, s)
    else if !bad.isEmpty then (.bad, none, invalidateBad bad s)
    else
      let e := (findPlace s n k).bind (entryAt? s)
      (match e with
       | some e => .hit e.record
       | none => .miss, some ⟨stLearn t, n, k, e, predictedFull s n k, (e.map fun e => e.timestamp != tickNow s n).getD false⟩, s)

/-- One lookup of a step. -/
def lookupStep (x : Slot) (t : Nat) (k : Nat × Nat) (s : State) : Lookup × Option SourceRead × State :=
  match stKind t with
  | 1 | 2 =>
    let (r, s) := tcamStep x t (leftAlign (if stWide t then 376 else 184) k) s
    (r, none, s)
  | 3 =>
    if 15 < stTable t ∨ trieDefined (trieDef x.config (stTable t)) = false then (.miss, none, s)
    else
      let (r, s) := trieLookup x.config x.lateral (stTable t) (leftAlign 320 k) s
      if trieWordLost s x.config (stTable t) (leftAlign 320 k) then (.bad, none, s.bump O.errDataLookups)
      else
        (match r with
         | some v => .hit v
         | none => .miss, none, s)
  | _ => bucketStep x.lateral t (leftAlign 320 k) s

/-- Send the LOOKUP of a chain-wide step (Table 17-9). -/
def sendLookup (x : Slot) (t word ticket : Nat) (s : State) : State :=
  let b := slotClass x * 64 + stQuarter t * 16 + b2n (stWide t) * 8
  emit (.domino 0x81 (beBytes 2 ticket ++ beBytes 1 b ++ beBytes 1 (stTable t) ++ zeros 2 ++ zeros 3 ++
    beBytes (if stWide t then 48 else 24) word ++ zeros 6)) s

/-- What follows a step: the sequencer goes on, or the search has an outcome. -/
inductive Flow where
  | next (x : Slot)
  | combine (x : Slot)
  | verdict (x : Slot) (v : Verdict)
  | wait (x : Slot)

/-- A step whose lookup gave a hit or a miss (R121). -/
def afterLookup (x : Slot) (t : Nat) (hit : Option Nat) : Flow :=
  let p := slotProgram x
  match hit with
  | some r =>
    let x := { x with cand := some r, chain := r, fromDefault := false, step := x.step + 1, ownHit := none }
    if stFinal t then .combine x else .next x
  | none =>
    let x := { x with chain := 0x3FFFF, step := x.step + 1, ownHit := none }
    match stMiss t with
    | 0 => .next x
    | 1 => .combine { x with cand := some (stRecord t), fromDefault := true }
    | 2 => .combine x
    | 3 => .verdict x (.plain 1 1 0 (pgPriority p))
    | 4 => .verdict x (.plain 3 2 (pgFlood p) (pgPriority p))
    | _ => .verdict x (.plain 1 3 0 (pgPriority p))

/-- A step of kind 3 or 5 of a class B or C search waits: for Furrow and the extended table while those blocks are down for Drowse (R399), and for
the extended table while the crossings of K5 hold (R16). -/
def stepHeld (x : Slot) (t : Nat) (s : State) : Bool :=
  slotClass x != 1 &&
    (((stKind t == 3 || stKind t == 5) && (s.modes.drowse == 2 || s.modes.drowse == 3)) ||
     (stKind t == 5 && !lpddrRuns s && s.val O.lpddrState != 4))

/-- Run one step of the sequencer. -/
def oneStep (x : Slot) (s : State) : Flow × State :=
  let p := slotProgram x
  if pgSteps p ≤ x.step then (.combine x, s)
  else if stepHeld x (pgStep p x.step) s then (.wait { x with phase := .stepWait }, s)
  else
    let t := pgStep p x.step
    let (r, read, s) := lookupStep x t (stepKey p x.link x.header x.snapshot x.chain t) s
    let x := { x with reads := x.reads ++ read.toList }
    match r with
    | .hit v => (afterLookup x t (some v), s)
    | .miss => (afterLookup x t none, s)
    | .bad => (.verdict x (fallbackVerdict 0x40 p), s)
    | .timeout => (.verdict x (fallbackVerdict 0x42 p), s.bump O.chainTimeouts)
    | .chain own word =>
      let ticket := s.headgate.nextTicket
      let s := onHeadgate (fun h => { h with nextTicket := (ticket + 1) % 65536 }) s
      (.wait { x with ownHit := own, ticket, phase := .chainWait }, sendLookup x t word ticket s)

/-- A verdict without a record. DESIGN CHOICE: one of rank 7 waits for a payload that is still awaited, since an inconsistent one outranks it (R125)
and only ranks 1 to 3 and rows of Table 11-3 end a search early (R252). -/
def flowVerdict (x : Slot) (v : Verdict) (s : State) : State :=
  if !rankLearns v.status then finishSearch x v s
  else
    let x := { x with verdict := v, resultRecord := 0 }
    if x.payState = .awaited then putSlot { x with phase := .payloadWait } s else authPayload x s

/-- Act on a flow; `next` continues while fuel lasts. -/
def runFlow : Nat → Flow × State → State
  | 0, (_, s) => s
  | n + 1, (f, s) =>
    match f with
    | .next x => runFlow n (oneStep x s)
    | .wait x => putSlot x s
    | .verdict x v => flowVerdict x v s
    | .combine x =>
      match x.cand with
      | none => flowVerdict x (.plain 1 1 0 (pgPriority (slotProgram x))) s
      | some c => combine x c x.fromDefault s

/-- A search goes on from its present step. -/
def runSearch (x : Slot) (s : State) : State := runFlow 9 (.next x, s)

/-! ### Laterals (R17, R399, R400) -/

/-- Searches running in a Lateral. -/
def lateralLoad (s : State) (n : Nat) : Nat :=
  (s.headgate.slots.filter fun x => x.lateral == n && x.phase != .done).length

/-- Laterals that may be chosen: not quarantined, and only Lateral 0 in Drowse and on its way in and out. With Lateral 0 quarantined, those that
step X2 releases serve during the exit (R399). DESIGN CHOICE: X2 has no command, and a search that runs during such an exit tells that it is past. -/
def laterals (s : State) : List Nat :=
  (List.range 8).filter fun n => !bit s.modes.quarantine n &&
    (n == 0 || s.modes.drowse == 0 || (bit s.modes.quarantine 0 && (s.modes.drowse == 3 || s.modes.drowse == 4)))

/-- The Lateral of R17: the fewest searches, the lower index winning a tie; 8 where none can be chosen. -/
def chooseLateral (s : State) : Nat :=
  let ls := laterals s
  (ls.find? fun n => ls.all fun m => decide (lateralLoad s n ≤ lateralLoad s m)).getD 8

/-- The trace record of a search (R347): its Key Token header, and keys, results and verdict in a layout that is not stated. -/
def traceRecord (x : Slot) (s : State) : State :=
  let c := s.val O.traceControl
  if s.jack.opened && bit c 31 && c % 8 == x.lateral && slotClass x != 1 &&
    decide ((s.jack.trace.length + 1) * 128 ≤ (s.val O.lpddrUserCapacity - 384) * 1048576) then
    let rest := (List.range 14).flatMap fun i => beBytes 8 (Config.freeValue (s.fresh + i)).toNat
    { s with fresh := s.fresh + 14, jack := { s.jack with trace := s.jack.trace ++ [beBytes 16 x.header ++ rest] } }
  else s

/-- SEARCH_RUN: an assigned search enters its Lateral or the Flume, or one that waited before a step goes on, and runs to a verdict, a MAC operation,
a chain-wide wait or a step that must wait (R121, R399). -/
def execSearchRun (slot : Nat) (s : State) : Result :=
  onUnit (slot < 256) (
    match slotById s slot with
    | none => s
    | some x =>
      let a := slotClass x == 1
      let lat := if a then 8 else if x.lateral < 8 then x.lateral else chooseLateral s
      if x.phase ≠ .assigned ∧ x.phase ≠ .stepWait then s
      else if a = false ∧ s.modes.quarantine % 256 = 255 then
        settleGrants (finishSearch x (fallbackVerdict 0x40 (slotProgram x)) s)
      else if a = false ∧ lat = 8 then s
      else
        settleGrants (underConfig x.config (fun s =>
          let first := x.phase == .assigned
          let x := { x with lateral := lat, phase := .assigned }
          runSearch x (if first then traceRecord x (putSlot x (s.bump (O.programSearches (ktProgram x.header)))) else putSlot x s)) s))

/-- The oldest search that waits for a MAC context of an engine that has one free. -/
def nextWaiter (s : State) : Option (Slot × MacWork) :=
  s.headgate.slots.findSome? fun x =>
    if x.phase = .contextWait ∧ (pickEngine x.config s (slotClass x)).isSome then x.mac.map fun w => (x, w) else none

/-- Searches that wait for a MAC context go on, oldest first, while a context is free (R252). -/
def takeContexts : Nat → State → State
  | 0, s => s
  | n + 1, s => match nextWaiter s with
    | some (x, w) => takeContexts n (underConfig x.config (startMac x w true) s)
    | none => s

/-- Contexts have come free. -/
def releaseContexts (s : State) : State := takeContexts s.headgate.slots.length s

/-- MAC_OPERATION_DONE: rows 9 to 11, and the verdict (R244, R251, R252). -/
def execMacOperationDone (slot : Nat) (s : State) : Result :=
  onUnit (slot < 256) (
    match slotById s slot with
    | none => s
    | some x =>
      match x.phase, x.mac with
      | .mac, some w =>
        let s := underConfig x.config (fun s =>
          match authEnd x.lateral x.config w x.verdict.record x.link x.payload s with
          | (.pass verified ext, s) => finishSearch x { x.verdict with verified, ext } s
          | (.fail st act verified, s) => finishSearch x (authFail { x.verdict with verified } st act) s
          | (.poisoned, s) => finishSearch x (fallbackVerdict 0x40 (slotProgram x)) s) s
        settleGrants (releaseContexts s)
      | _, _ => s)

/-! ### Chain-wide steps at the head (R383, R384) -/

/-- The head resolves a returned LOOKUP: its own hit, else the message's, or ERR_DATA where that lookup failed; a late one is counted. -/
def resolveLookup (m : LookupMsg) (s : State) : State :=
  match s.headgate.slots.find? fun x => x.phase == .chainWait && x.ticket == m.ticket with
  | none => s.bump O.chainLateAnswers
  | some x =>
    underConfig x.config (fun s =>
      let t := pgStep (slotProgram x) x.step
      let bad := match x.ownHit with
        | some (_, r) => decide (262144 ≤ r)
        | none => m.hit && decide (262144 ≤ m.record)
      let hit := match x.ownHit with
        | some (_, r) => some r
        | none => if m.hit then some (m.record % 262144) else none
      let wake := slotClass x == 1 && stQuarter t == 0 && ((tcamTable x.config 0 (stTable t)).map fun i => tdWake (tcamDef x.config 0 i)) == some true
      let s := match hit with
        | some r => if wake && !bad then postWake r s else s
        | none => s
      if bad then finishSearch x (fallbackVerdict 0x40 (slotProgram x)) s
      else runFlow 9 (afterLookup { x with phase := .assigned } t hit, s)) s

/-- A chain-wide lookup times out: CHAIN_TIMEOUT with FallbackAction. -/
def chainTimeout (a : Bool) (slot : Nat) (s : State) : State :=
  match slotById s slot with
  | none => s
  | some x =>
    if x.phase = .chainWait ∧ (slotClass x == 1) = a then
      underConfig x.config (fun s => finishSearch x (fallbackVerdict 0x42 (slotProgram x)) (s.bump O.chainTimeouts)) s
    else s

/-! ### Fallback (R6, R284) -/

/-- Every search in a shared slot, combined or not, receives FALLBACK in its place in order. -/
def fallbackSlots (s : State) : State :=
  let s := (s.headgate.slots.filter fun x => slotClass x != 1).foldl (fun s x => if x.payState = .awaited then absorbRest x s else s) s
  let stop (x : Slot) : Slot :=
    if slotClass x = 1 then x
    else { x with phase := .done, units := 0, payload := [], mac := none, reads := [],
                  payState := if x.payState = .awaited then .none else x.payState,
                  verdict := { fallbackVerdict 0x41 (slotProgram x) with time := timebase s % 2 ^ 32 } }
  onHeadgate (fun h => { h with slots := h.slots.map stop }) s

end Sys2Proof.Machine
end

