-- ==== Sys2Proof/Machine/Headgate.lean ====
section
/-! DEFINITION. The Headgate key links: parcels, replay, link-up, credits, acceptance of Key Tokens, payloads and Result Tokens
(R87–R111, R131, R132). -/

namespace Sys2Proof.Machine

/-! ### Link state (R91, R92, R16) -/

/-- A loss of a lane, a retrain or a link-down raises vector 24. -/
def linkEvent (s : State) : State := vector 24 s

/-- What the device's Training blocks of link `m` carry (Table 4-4). -/
def trainingOf (m : Nat) (s : State) : Training :=
  let l := linkAt s m
  ⟨1, s.obj (O.fecEnable m) != 0, s.obj (O.txDownSpread m) != 0, if l.lost = 0 then 2 else 1, l.fresh, m, ackSeq l, l.errWord⟩

/-- The device begins to train link `m`; while K1 has no reference the link is down (R16). -/
def startTraining (m : Nat) (s : State) : State :=
  if bit s.modes.refLost 0 then onLink m (fun l => { l with state := 4 }) s else emit (.training m (trainingOf m s)) s

/-- Retrain a link: it trains again on the lanes that `lost` leaves. -/
def retrain (m lost : Nat) (s : State) : State :=
  linkEvent (startTraining m ((onLink m (fun l => { l with state := 1, lost }) s).bump (O.retrains m)))

/-- The link is down: it tries to train from then on. -/
def linkDown (m : Nat) (s : State) : State := linkEvent (onLink m (fun l => { l with state := 4, lost := 0 }) s)

/-- LANE_LOST: the link retrains on one lane where AllowDegrade lets it and the other lane holds, else on two (R91). -/
def execLaneLost (link lane : Nat) (s : State) : Result :=
  onUnit (link < 8 && lane < 2) (
    let l := linkAt s link
    if !linkUp l || bit l.lost lane then s
    else retrain link (if s.obj (O.allowDegrade link) != 0 && !bit l.lost (1 - lane) then 2 ^ lane else 0) s)

/-- LinkAction 1 (R91, R111). DESIGN CHOICE: while K1 has no reference the write is accepted and has no effect: the link is down and trains when
the reference is back (R16). -/
def linkRetrain (m : Nat) (s : State) : Option (Nat × Nat) × State :=
  if (linkAt s m).state = 0 then (some (0x08000022, 0x2202), s)
  else if bit s.modes.refLost 0 then (none, s)
  else (none, retrain m 0 s)

/-- LinkAction 2 (R109, R111). -/
def linkDiscardHeld (m : Nat) (s : State) : Option (Nat × Nat) × State :=
  if (linkAt s m).state = 4 then (none, discardHeld m s) else (some (0x08000022, 0x2201), s)

/-- Full policing bucket of a link (R131). -/
def fillLinkBucket (m : Nat) (s : State) : State :=
  onLink m (fun l => { l with level := s.obj (O.classABurst m) * 65536, levelAt := elapsed s }) s

/-- Resend every unacknowledged parcel, in order (R98). -/
def resendAll (m : Nat) (s : State) : State :=
  let l := linkAt s m
  l.unacked.foldl (fun s p => emit (.parcel m 1 p.1 (ackSeq l) false p.2 true) s) s

/-- Drop what an AckSeq acknowledges; whether it advanced. -/
def acked (ack : Nat) (l : Link) : Bool × Link :=
  if l.unacked.any fun p => p.1 == ack then
    (true, { l with unacked := (l.unacked.dropWhile fun p => p.1 != ack).drop 1, resends := 0 })
  else (false, l)

/-- One more resend without an advance of AckSeq; the eighth is followed by a retrain. -/
def resend (m : Nat) (s : State) : State :=
  let l := linkAt s m
  if l.unacked.isEmpty then s
  else if 8 ≤ l.resends then retrain m 0 (onLink m (fun l => { l with resends := 0 }) s)
  else resendAll m ((onLink m (fun l => { l with resends := l.resends + 1 }) s).bump (O.resends m))

/-- REPLAY_TIMER: 4 us without an advance of AckSeq (R98). -/
def execReplayTimer (link : Nat) (s : State) : Result :=
  onUnit (link < 8) (if linkUp (linkAt s link) then resend link s else s)

/-- The link comes up: sequence state restarts on Fresh or replay resumes, and a new credit epoch begins with a Credit token (R90–R92,
R100, R131). DESIGN CHOICE: FecActive and PeerPort change here alone; while a link trains, is down or is disabled they keep the values of its
last link-up, since Table 4-16 states no other. -/
def comeUp (m : Nat) (t : Training) (s : State) : State :=
  let l := linkAt s m
  let fresh := t.fresh || l.fresh
  let lanes := min (if t.lanes = 1 then 1 else 2) (if l.lost = 0 then 2 else 1)
  let s := if fresh then discardHeld m s else s
  let s := onLink m (fun l =>
    let l := if fresh then { l with rxSeq := 0, txSeq := 0, unacked := [], resends := 0, nakked := (0, 0), absorbed := [] }
      else (acked t.lastRxSeq l).2
    { l with state := if lanes = 2 then 2 else 3, fresh := false, errWord := 0, used := [0, 0, 0], unitsUsed := [0, 0, 0],
             granted := [0, 0, 0], unitsGranted := [0, 0, 0], grantSent := [],
             spread := t.spread || s.obj (O.txDownSpread m) != 0 }) s
  let s := s.put (O.fecActive m) (b2n (t.fec || s.obj (O.fecEnable m) != 0))
  let s := s.put (O.peerPort m) (t.port % 256)
  let s := fillLinkBucket m s
  sendTokens m true [] (resendAll m s)

/-- LINK_UP: training completed; the link comes up only if the switch sent version 0x01 (Table 4-4). -/
def execLinkUp (link : Nat) (t : Training) (s : State) : Result :=
  onUnit (link < 8) (
    let l := linkAt s link
    if (l.state == 1 || l.state == 4) && t.version == 1 && !bit s.modes.refLost 0 && s.power.core && !s.modes.halted then
      comeUp link t s
    else s)

/-- CREDIT_TOKEN_TIMER: a Credit token at least every 1 us (R102). -/
def execCreditTokenTimer (link : Nat) (s : State) : Result :=
  onUnit (link < 8) (if linkUp (linkAt s link) then sendTokens link true [] s else s)

/-- UNDEFINED_CONTROL_BLOCK: ignored, and counted (R88). DESIGN CHOICE: R88 speaks of blocks between parcels, so a block on a link that is not
up is ignored uncounted. -/
def execUndefinedControlBlock (link : Nat) (s : State) : Result :=
  onUnit (link < 8) (if linkUp (linkAt s link) then s.bump (O.protocolErrors link) else s)

/-! ### Payloads (R105) -/

/-- A search that waits for its payload goes on once the payload is complete or inconsistent. -/
def payloadSettled (x : Slot) (s : State) : State :=
  if x.phase = .payloadWait then underConfig x.config (authPayload x) (putSlot x s) else putSlot x s

/-- The payload of a search is inconsistent: it is discarded. -/
def payloadBad (x : Slot) (absorb : Bool) (s : State) : State :=
  payloadSettled { x with payState := .inconsistent, payload := [], units := 0 } (if absorb then absorbRest x s else s)

/-- The search of a link and class that awaits a payload, of tag `tag` where one is named. -/
def awaiting (s : State) (m c : Nat) (tag : Option Nat) : Option Slot :=
  s.headgate.slots.find? fun x =>
    x.link == m && slotClass x == c && x.payState == .awaited && (tag.isNone || tag == some (ktTag x.header))

/-- One payload token (Table 4-11). -/
def takePayload (m h : Nat) (data : Bytes) (s : State) : State :=
  let c := bits h 55 54
  let tag := bits h 53 38
  let len := bits h 24 16
  let last := bit h 15
  match awaiting s m c (some tag) with
  | some x =>
    let total := x.payload.length + len
    if bits h 37 25 ≠ x.payload.length ∨ len = 0 ∨ (last = false ∧ len % 8 ≠ 0) ∨ ktPayload x.header < total ∨
      (last = true ∧ total ≠ ktPayload x.header) then payloadBad x (!last) s
    else
      let x := { x with payload := x.payload ++ fit len data }
      if last then payloadSettled { x with payState := .complete } s else putSlot x s
  | none =>
    let l := linkAt s m
    match l.absorbed.find? fun a => a.1 == c && a.2.1 == tag && decide (s.clock.wall < a.2.2) with
    | some a => if last then onLink m (fun l => { l with absorbed := l.absorbed.erase a }) s else s
    | none => s.bump (O.orphanPayloads m)

/-- PAYLOAD_TIMEOUT: the Last segment is missing 10 us after its Key Token (R105). -/
def execPayloadTimeout (link cls tag : Nat) (s : State) : Result :=
  onUnit (link < 8 && 1 ≤ cls && cls ≤ 3) (
    match awaiting s link cls (some tag) with
    | some x => settleGrants (payloadBad x false s)
    | none => onLink link (fun l => { l with absorbed := l.absorbed.filter fun a => !(a.1 == cls && a.2.1 == tag) }) s)

/-! ### Acceptance of Key Tokens (R106, R131, R132) -/

/-- A policing bucket refilled now (R131). -/
def refill (depth rate level dt : Nat) : Nat := min (depth * 65536) (level + rate * 65536 * dt / 1000)

/-- Police an accepted class A token; whether it conforms. A ClassARate of 0 polices every token (Table 5-16). DEDUCED: dt counts on the
Timebase's free-running elapsed count, which host time writes do not step (R230), and which stands still while K8 is lost. -/
def police (m : Nat) (paid : Bool) (s : State) : Bool × State :=
  let l := linkAt s m
  let rate := s.obj (O.classARate m)
  let level := refill (s.obj (O.classABurst m)) rate l.level (elapsed s - l.levelAt)
  let auth := refill 1 16 s.headgate.authLevel (elapsed s - s.headgate.authAt)
  let ok := decide (65536 ≤ level) && rate != 0 && (!paid || decide (65536 ≤ auth))
  let cost := if ok then 65536 else 0
  let now := elapsed s
  let s := onLink m (fun l => { l with level := level - cost, levelAt := now }) s
  let s := if paid then onHeadgate (fun h => { h with authLevel := auth - cost, authAt := now }) s else s
  let s := if ok then s.bump O.classASearches else s.bump (O.classAPoliced m)
  (ok, if paid && decide (auth < 65536) then s.bump O.authPoliced else s)

/-- The lowest free slot of the class's pool; class C holds at most 64 of the shared ones (R18). -/
def freeSlot (s : State) (c : Nat) : Option Nat :=
  if c = 3 ∧ 64 ≤ (s.headgate.slots.filter fun x => classOf x == 3).length then none
  else (if c = 1 then List.range 64 else (List.range 192).map (· + 64)).find? fun i => !(s.headgate.slots.any fun x => x.id == i)

/-- The verdict that Headgate decides alone, if any, in the order of R125. DESIGN CHOICE: R125 gives no order inside rank 2; where several of its
statuses apply, the first in the listing order of Table 5-10 stands. -/
def headgateDecides (h : Nat) (conforms : Bool) (m : Nat) (s : State) : Option Verdict :=
  let c := ktClass h
  let p := programIn s.dict.live (ktProgram h)
  if c ≠ 1 ∧ s.val O.domainState ≠ 0 then some (fallbackVerdict 0x41 p)
  else if !bit s.modes.classReady (c - 1) then some (headgateVerdict 0x43 1)
  else if !pgValid p || !pgClass p c then some (headgateVerdict 0x22 1)
  else if 128 < ktSnapshot h then some (headgateVerdict 0x23 1)
  else if 4096 < ktPayload h then some (headgateVerdict 0x20 1)
  else if !conforms then some (headgateVerdict 0x31 (s.obj (O.policedAction m)))
  else none

/-- Payload units of a payload length (R101). -/
def unitsOf (p : Nat) : Nat := if 4096 < p then 0 else cdiv p 64

/-- Accept a Key Token into slot `id`. -/
def acceptToken (m h id : Nat) (snap : Bytes) (s : State) : State :=
  let c := ktClass h
  let p := ktPayload h
  let s := if (slotsOf s m c).any fun x => ktTag x.header == ktTag h then s.bump (O.dupTags m) else s
  let s := if c = 1 then s else drowseTrigger s
  let (ok, s) := if c = 1 then police m (decide (0 < p) && decide (p ≤ 4096)) s else (true, s)
  let v := headgateDecides h ok m s
  let s := onLink m (fun l => { l with
    used := l.used.modify (c - 1) (· + 1), unitsUsed := l.unitsUsed.modify (c - 1) (· + unitsOf p) }) s
  let paid := decide (0 < p) && decide (p ≤ 4096)
  let x : Slot := {
    id, link := m, header := h, snapshot := if 128 < ktSnapshot h then [] else snap,
    config := configPart s.dict.live, payload := [],
    payState := if paid && v.isNone then .awaited else .none, units := if v.isNone then unitsOf p else 0,
    lateral := if c = 1 ∨ v.isSome = true then 8 else chooseLateral s, phase := if v.isSome then .done else .assigned, step := 0,
    cand := none, fromDefault := false, chain := 0x3FFFF, ownHit := none, ticket := 0,
    verdict := { (v.getD (headgateVerdict 0 0)) with time := timebase s % 2 ^ 32 },
    resultRecord := 0, reads := [], mac := none, transition := c == 1 && inTransition s, since := s.clock.wall, late := false }
  let kept (a : Nat × Nat × Nat) : Bool := !(paid && v.isNone && a.1 == c && a.2.1 == ktTag h)
  let s := onLink m (fun l => { l with absorbed := l.absorbed.filter kept }) s
  let s := if p ≠ 0 ∧ v.isSome = true then absorbRest x s else s
  let s := onHeadgate (fun g => { g with slots := g.slots ++ [x] }) s
  if c = 1 then s.peak O.flumeEntryPeak (s.headgate.slots.filter fun y => slotClass y == 1 && y.phase == .assigned).length
  else s.peak O.sharedSlotsPeak (s.headgate.slots.filter fun y => slotClass y != 1).length

/-- A Key Token: it ends the wait for an earlier payload of its class, and is accepted within the credits; one that is not is discarded with its
payload tokens (R101, R106). DESIGN CHOICE: a Key Token within its credits whose pool has no free slot, which the grants of `newGrants` do not
let a switch send, is treated as one without credit. -/
def takeKeyToken (m h : Nat) (snap : Bytes) (s : State) : State :=
  let c := ktClass h
  let s := match awaiting s m c none with
    | some x => payloadBad x true s
    | none => s
  let l := linkAt s m
  let fits := decide (l.used.getD (c - 1) 0 < l.granted.getD (c - 1) 0) &&
    decide (l.unitsUsed.getD (c - 1) 0 + unitsOf (ktPayload h) ≤ l.unitsGranted.getD (c - 1) 0)
  match if fits then freeSlot s c else none with
  | some id => acceptToken m h id snap s
  | none =>
    let s := s.bump (O.creditViolations m)
    if ktPayload h = 0 then s
    else onLink m (fun l => { l with absorbed := l.absorbed ++ [(c, ktTag h, s.clock.wall + 10000)] }) s

/-! ### Parcels (R93–R98) -/

/-- Parse the tokens of a body from byte `off` on; the offset of the first discarded byte where a protocol error occurred. -/
def parseTokens (m : Nat) (body : Bytes) : Nat → Nat → State → Option Nat × State
  | 0, _, s => (none, s)
  | n + 1, off, s =>
    if body.length ≤ off then (none, s)
    else if u8 body off = 0x10 ∧ off + 16 ≤ body.length then
      let h := be body off 16
      let len := ktSnapshot h
      let next := off + 16 + ceil8 len
      if ktClass h = 0 ∨ body.length < next then (some off, s)
      else parseTokens m body n next (takeKeyToken m h (slice body (off + 16) len) s)
    else if u8 body off = 0x11 ∧ off + 8 ≤ body.length then
      let h := be body off 8
      let next := off + 8 + ceil8 (bits h 24 16)
      if bits h 55 54 = 0 ∨ body.length < next then (some off, s)
      else parseTokens m body n next (takePayload m h (slice body (off + 8) (bits h 24 16)) s)
    else (some off, s)

/-- Header fields of a parcel (Table 4-5). -/
def phType (p : Parcel) : Nat := bits p.header 55 52

/-- Seq. -/
def phSeq (p : Parcel) : Nat := bits p.header 51 40

/-- AckSeq. -/
def phAck (p : Parcel) : Nat := bits p.header 39 28

/-- Nak. -/
def phNak (p : Parcel) : Bool := bit p.header 27

/-- BodyWords. -/
def phWords (p : Parcel) : Nat := bits p.header 26 20

/-- The parcel's CRC is good (R93). -/
def crcGood (p : Parcel) : Bool := (crc32c (beBytes 7 p.header ++ p.body ++ fit 3 p.endBytes)).toNat == p.crc

/-- The parcel is framed wrongly (R97). -/
def framedWrongly (p : Parcel) : Bool :=
  p.framing || decide (1 < phType p) || p.body.length != 8 * phWords p ||
  (if phType p = 1 then phWords p == 0 || decide (64 < phWords p) else phWords p != 0)

/-- Send a Nak: at most one per expected Seq in any 2 us. -/
def sendNak (m : Nat) (s : State) : State :=
  let l := linkAt s m
  if l.nakked.2 ≠ 0 ∧ l.nakked.1 = l.rxSeq ∧ s.clock.wall + 1 < l.nakked.2 + 2000 then s
  else emit (.parcel m 0 0 (ackSeq l) true [] false) (onLink m (fun l => { l with nakked := (l.rxSeq, s.clock.wall + 1) }) s)

/-- Send a Null parcel that acknowledges. -/
def sendAck (m : Nat) (s : State) : State := emit (.parcel m 0 0 (ackSeq (linkAt s m)) false [] false) s

/-- The other side's AckSeq and Nak (R96, R98). -/
def takeAck (m : Nat) (p : Parcel) (s : State) : State :=
  let s := onLink m (fun l => (acked (phAck p) l).2) s
  if phNak p then resend m s else s

/-- An expected Data parcel: its tokens up to a protocol error, which retrains the link (R95). -/
def takeData (m : Nat) (body : Bytes) (s : State) : State :=
  let s := onLink m (fun l => { l with rxSeq := (l.rxSeq + 1) % 4096 }) s
  match parseTokens m body 64 0 s with
  | (none, s) => sendAck m (settleGrants s)
  | (some off, s) =>
    retrain m 0 (onLink m (fun l => { l with errWord := off / 8 }) (s.bump (O.protocolErrors m)))

/-- A parcel on a link that is up. DESIGN CHOICE: a parcel with both a framing error and a bad CRC counts in FramingErrors alone, since Table 4-14
names the two counters without an order. -/
def receiveParcel (m : Nat) (p : Parcel) (s : State) : State :=
  if !linkUp (linkAt s m) then s
  else if framedWrongly p then sendNak m (s.bump (O.framingErrors m))
  else if !crcGood p then sendNak m (s.bump (O.crcErrors m))
  else
    let s := takeAck m p s
    let l := linkAt s m
    if !linkUp l || phType p == 0 then s
    else if phSeq p = l.rxSeq then takeData m p.body s
    else
      let behind := (l.rxSeq + 4096 - phSeq p) % 4096
      if 1 ≤ behind ∧ behind ≤ 2047 then sendAck m (s.bump (O.duplicateParcels m))
      else sendNak m (s.bump (O.framingErrors m))

/-- DATA_PARCEL_RECEIVED (R97). -/
def execDataParcelReceived (link : Nat) (p : Parcel) (s : State) : Result := onUnit (link < 8) (receiveParcel link p s)

/-- NULL_PARCEL_RECEIVED (R96). -/
def execNullParcelReceived (link : Nat) (p : Parcel) (s : State) : Result := onUnit (link < 8) (receiveParcel link p s)

/-! ### Result Tokens (R107, R133, R136) -/

/-- The Result Token of a slot (Table 4-12). -/
def resultToken (x : Slot) : Nat :=
  let v := x.verdict
  let f (value lo : Nat) : Nat := value * 2 ^ lo
  f (if v.ext = 0 then 0x20 else 0x21) 248 + f (slotClass x) 246 + f v.colour 244 + f (ktTag x.header) 228 + f v.status 220 +
  f v.action 217 + f v.priority 214 + f (b2n v.verified) 213 + f (b2n v.mirror) 212 + f (b2n v.host) 211 + f v.dest 192 +
  f v.transform 176 + f v.mirrorSet 160 + f v.time 128 + f v.record 110

/-- The class A bound of a search on its link (R133). -/
def classABound (x : Slot) (s : State) : Nat :=
  let l := linkAt s x.link
  let wide := (usedSteps (slotProgram x)).any fun t => stKind t == 2
  (if l.macA then 600 else 360) + (if wide then 90 * (s.obj O.chainMembers - 1) else 0) + (if l.state = 3 then 25 else 0) +
  (if s.flag (O.fecActive x.link) then 250 else 0)

/-- The search authenticates a payload of 65–4,096 B (R134). -/
def longAuth (x : Slot) : Bool :=
  recValid x.resultRecord && recAuth x.resultRecord != 0 && decide (64 < ktPayload x.header) && decide (ktPayload x.header ≤ 4096)

/-- The class A results of link `m` that an authenticated payload of 65–4,096 B leaves behind it. -/
def markLate (x : Slot) (s : State) : State :=
  if slotClass x = 1 ∧ longAuth x = true then
    onHeadgate (fun h => { h with slots := h.slots.map fun y =>
      if y.link = x.link ∧ slotClass y = 1 then { y with late := true } else y }) s
  else s

/-- Each class A search is measured (R136). The bound is that of a conforming search, and does not cover one with an authenticated payload of
65–4,096 B or behind such a one on its link (R133, R134). -/
def measureSpan (x : Slot) (span : Nat) (s : State) : State :=
  if slotClass x = 1 then
    let s := s.peak O.classAMaxLatency (min span 65535)
    if x.verdict.status ≠ 0x31 ∧ longAuth x = false ∧ x.late = false ∧ classABound x s < span then s.bump O.classAOverBound else s
  else s

/-- Count a result as it leaves. -/
def countResult (v : Verdict) (s : State) : State :=
  let s := match v.colour with
    | 0 => s.bump O.greenResults
    | 1 => s.bump O.yellowResults
    | 2 => s.bump O.redResults
    | _ => s
  let s := if v.status = 0x30 then s.bump O.meterRedResults else s
  let s := if v.status = 0x41 then s.bump O.fallbackResults else s
  let s := if v.status = 0x40 then s.bump O.errDataResults else s
  countAuth v.status v.verified s

/-- A class A result of link `m` is ready to leave. -/
def classAWaits (s : State) (m : Nat) : Bool := ((slotsOf s m 1).head?.map (·.phase)) == some .done

/-- RESULT_TOKEN_SEND: the oldest result of the link and class leaves, its slot is returned, and its credit rides in the parcel. A class B or
C result waits while a class A result is ready (R99). -/
def execResultTokenSend (link cls span : Nat) (s : State) : Result :=
  onUnit (link < 8 && 1 ≤ cls && cls ≤ 3) (
    match slotsOf s link cls with
    | x :: _ =>
      let token := resultToken x
      let body := beBytes 32 token ++ (if x.verdict.ext = 0 then [] else beBytes 32 x.verdict.ext)
      if x.phase ≠ .done ∨ linkUp (linkAt s link) = false ∨ replayRoom (linkAt s link) (16 + body.length) = false ∨
        (cls ≠ 1 ∧ classAWaits s link = true) then s
      else
        let s := countResult x.verdict (measureSpan x span s)
        let s := markLate x (onHeadgate (fun h => { h with slots := h.slots.filter fun y => y.id != x.id }) s)
        let s := if cls = 1 then shareResult x token s else s
        slotsReturned [x.id] (sendTokens link false body s)
    | [] => s)

/-! ### Commit and start -/

/-- Headgate takes up a commit: links enabled or disabled, retrained by a change of FecEnable, TxPreset or TxDownSpread, policing buckets
refilled where their rate or depth changed, and grants raised at once (R90, R92, R103, R109, R131, R417). FecActive and PeerPort stay as `comeUp` says.
DESIGN CHOICE: disabling a link by commit raises no vector 24, which R92 gives a link that goes down; and a search of it that ends later holds its
slot and result until the link is enabled and comes up Fresh. -/
def headgateCommitLink (old : SMap Nat) (m : Nat) (s : State) : State :=
  let was (k : Nat) : Nat := objIn s.can.nodeId old k
  let diff (k : Nat) : Bool := was k != s.obj k
  let s := if diff (O.classARate m) || diff (O.classABurst m) then fillLinkBucket m s else s
  let l := linkAt s m
  if s.obj (O.linkEnable m) = 0 then
    if l.state = 0 then s
    else discardHeld m (onLink m (fun l => { Link.off with level := l.level, levelAt := l.levelAt, macA := l.macA }) s)
  else if l.state = 0 then
    if diff (O.linkEnable m) then startTraining m (onLink m (fun l => { l with state := 1, lost := 0, fresh := true }) s) else s
  else if linkUp l && (diff (O.fecEnable m) || diff (O.txPreset m) || diff (O.txDownSpread m)) then retrain m 0 s
  else s

/-- Every link takes up a commit. -/
def headgateCommit (old : SMap Nat) (s : State) : State :=
  settleGrants ((List.range 8).foldl (fun s m => headgateCommitLink old m s) s)

/-- The credit objects of the enabled links in the pools that exceed their limits (Table 4-7). -/
def creditExcess (nodeId : Nat) (new : SMap Nat) : List Nat :=
  let sum := linkSum nodeId new
  let links := (List.range 8).filter fun m => objIn nodeId new (O.linkEnable m) != 0
  let of (exceeded : Bool) (os : List (Nat → Nat)) : List Nat := if exceeded then links.flatMap fun m => os.map fun o => o m else []
  of (decide (64 < sum O.tokenCreditsA)) [O.tokenCreditsA] ++
  of (decide (192 < sum O.tokenCreditsB + sum O.tokenCreditsC)) [O.tokenCreditsB, O.tokenCreditsC] ++
  of (decide (64 < sum O.tokenCreditsC)) [O.tokenCreditsC] ++
  of (decide (131072 < sum O.payloadUnitsA + sum O.payloadUnitsB + sum O.payloadUnitsC))
    [O.payloadUnitsA, O.payloadUnitsB, O.payloadUnitsC]

/-- An object whose commit can exceed a credit pool. -/
def creditKey (k : Nat) : Bool :=
  (List.range 8).any fun m => [O.linkEnable, O.tokenCreditsA, O.tokenCreditsB, O.tokenCreditsC, O.payloadUnitsA, O.payloadUnitsB,
    O.payloadUnitsC].any fun o => o m == k

/-- The lowest credit object of an excess, where the snapshot holds an object of the pools (R103). -/
def creditCheck (nodeId : Nat) (new : SMap Nat) (k : Nat) : Option Nat :=
  if creditKey k then (creditExcess nodeId new).min? else none

/-- The links of a start begin to train (Table 4-3). -/
def startLinks (s : State) : State :=
  (List.range 8).foldl (fun s m =>
    if s.obj (O.linkEnable m) != 0 then startTraining m (onLink m (fun _ => { Link.off with state := 1 }) s) else s) s

end Sys2Proof.Machine
end

