-- ==== Sys2Proof/Machine/Coherence.lean ====
section
/-! DEFINITION. The commands of the coherent domain, its failure and restart, and checkpoints (R262–R288). A request arrives at home as its
command; every other message waits in `coh.net` until the command that delivers it. -/

namespace Sys2Proof.Machine

/-- The domain runs, its memories filled (R293). -/
def domainRuns (s : State) : Bool := s.power.core && s.modes.fillDone && s.val O.domainState == 0

/-! ### Domain failure (R283, R284, R287) -/

/-- Tally loses what it had not numbered, and before ShadowReady what it had numbered into its staging area (R287). -/
def tallyLoses (s : State) : State :=
  { s with tally := { s.tally with
      waiting := []
      recs := if s.flag O.shadowReady then s.tally.recs else s.tally.recs.filter fun r => decide (r.seq < s.tally.inFlash) } }

/-- The domain stops: held in a restart, within 1 s of one, or before ShadowReady; else the restart begins (R284, R287, R296). -/
def domainFail (cause unit : Nat) (s : State) : State :=
  if s.val O.domainState = 2 ∨ s.power.core = false then s
  else
    let held := s.val O.domainState == 1 || !s.flag O.shadowReady ||
      (s.coh.restartEnd != 0 && decide (s.clock.wall + 1 < s.coh.restartEnd + 1000000000))
    let s := tallyLoses s
    let s := s.put O.domainState (if held then 2 else 1)
    let s := s.put O.lastFailureCause cause
    let s := s.setObj O.lastFailureUnit unit
    let s := s.put O.lastFailureTime (timebase s)
    let s := onCoh (fun c => { c with
      caches := [], dir := [], queues := [], open_ := [], net := [], nacked := [], crossing := [], failedAt := s.clock.wall, illegal := none }) s
    let s := restartFences (loseExtOps { s with results := { s.results with posted := [] } })
    let s := settleMode 0x0120 (settleGrants (releaseContexts (fallbackSlots s)))
    let s := raiseFault 0x0120 (cause * 256 + unit) s
    if held then raiseFault 0x0121 (cause * 256 + unit) s else s

/-- A command of the domain has done its part: an illegal message that it met fails the domain. -/
def judgeDomain (s : State) : State :=
  match s.coh.illegal with
  | some u => domainFail 5 u s
  | none => s

/-- An agent is powered down or quarantined (Table 12-5). -/
def agentLeaves (agent : Nat) (s : State) : State := if domainRuns s then judgeDomain (leaveDomain agent s) else s

/-! ### What a unit finds as it reads its arrays and messages (R280, R283) -/

/-- `found` of a row: bits 7 to 0 name the granules whose data is uncorrectable; bit 8 says that the unit's tag or state array is, or at home
its directory entry. -/
def arrayLost (found : Nat) : Bool := bit found 8

/-- A message with the granules of `found` poisoned, counted. -/
def poisonMessage (found : Nat) (m : Msg) (s : State) : Msg × State :=
  if m.data.isEmpty then (m, s)
  else ({ m with poison := m.poison ||| found % 2 ^ granuleCount m.line }, countPoison m.line m.poison found s)

/-- A cached copy with the granules of `found` poisoned, counted. -/
def poisonCopy (found agent line : Nat) (s : State) : State :=
  match cacheLine? s agent line with
  | some c =>
    if c.live then countPoison line c.poison found (putLine agent line { c with poison := c.poison ||| found % 2 ^ granuleCount line } s) else s
  | none => s

/-! ### Agents' rows -/

/-- A unit code of an agent and a line of the Reservoir. -/
def agentLine (agent line : Nat) (s : State) : Result := onUnit (agent < 15 && line < reservoirLines) s

/-- A row of an agent, in a running domain; an uncorrectable entry of its tag or state array fails the domain with cause 2. -/
def agentRow (agent line found : Nat) (f : State → State) (s : State) : Result :=
  agentLine agent line (
    if !domainRuns s then s
    else if arrayLost found then domainFail 2 agent s
    else judgeDomain (f s))

/-- The row of a snoop: delivered, or a snoop that was never sent and that Table 12-5 has no row for is a domain failure. -/
def snoopRow (agent line : Nat) (kind : MsgKind) (requester : Option Nat) (found : Nat) (s : State) : Result :=
  agentRow agent line found (fun s =>
    match arrived (fun m => m.dst == agent && m.line == line && m.kind == kind && (requester.isNone || requester == some m.req)) s with
    | some m => deliver m (poisonCopy found agent line s)
    | none =>
      match (cacheLine? s agent line).map (fun (c : CacheLine) => c.st), kind with
      | some .s, .snpData => illegalAt agent s
      | some .s, .snpOwn => illegalAt agent s
      | some .m, .snpInv => illegalAt agent s
      | _, _ => s) s

/-- The row of data or a Grant: delivered; one that was never sent to an agent that waits for none is a domain failure. -/
def arrivalRow (agent line : Nat) (p : MsgKind → Bool) (found : Nat) (s : State) : Result :=
  agentRow agent line found (fun s =>
    match arrived (fun m => m.dst == agent && m.line == line && p m.kind) s with
    | some m =>
      let s := onCoh (fun c => { c with net := c.net.erase m }) s
      let (m, s) := poisonMessage found m s
      takeMessage m s
    | none => if fetches s agent line then s else illegalAt agent s) s

/-- SNP_DATA. -/
def execSnpData (agent : Nat) (at_ : LineRead) (requester : Nat) (s : State) : Result :=
  snoopRow agent at_.line .snpData (some requester) at_.found s

/-- SNP_OWN. -/
def execSnpOwn (agent : Nat) (at_ : LineRead) (requester : Nat) (s : State) : Result :=
  snoopRow agent at_.line .snpOwn (some requester) at_.found s

/-- SNP_INV. -/
def execSnpInv (agent : Nat) (at_ : LineRead) (s : State) : Result := snoopRow agent at_.line .snpInv none at_.found s

/-- SNP_RECALL. -/
def execSnpRecall (agent : Nat) (at_ : LineRead) (backInv : Bool) (s : State) : Result :=
  snoopRow agent at_.line (.snpRecall backInv) none at_.found s

/-- DATA_FWD. -/
def execDataFwd (agent : Nat) (at_ : LineRead) (s : State) : Result := arrivalRow agent at_.line (fun k => k == .dataFwd) at_.found s

/-- DATA_H: data that finds the line already installed is discarded. -/
def execDataH (agent : Nat) (at_ : LineRead) (s : State) : Result := arrivalRow agent at_.line (fun k => k == .dataH) at_.found s

/-- GRANT. -/
def execGrant (agent line : Nat) (s : State) : Result := arrivalRow agent line (fun k => (grantOf k).isSome) 0 s

/-- HOLD_END: the hold of 20 ns ends, and a waiting snoop is answered (R273). -/
def execHoldEnd (agent line : Nat) (s : State) : Result := agentRow agent line 0 (endHold agent line) s

/-- CAPACITY_EVICTION: a line in its hold time is not yet evicted (R273). -/
def execCapacityEviction (agent : Nat) (at_ : LineRead) (s : State) : Result :=
  agentRow agent at_.line at_.found (fun s =>
    match cacheLine? s agent at_.line with
    | some c => if c.hold then s else evict agent at_.line (poisonCopy at_.found agent at_.line s)
    | none => s) s

/-- EV_ACK: the agent leaves IE. -/
def execEvAck (agent line : Nat) (s : State) : Result :=
  agentRow agent line 0 (fun s =>
    match arrived (fun m => m.dst == agent && m.line == line && m.kind == .evAck) s with
    | some m => deliver m s
    | none => if (cacheLine? s agent line).map (fun (c : CacheLine) => c.st) = some .ie then s else illegalAt agent s) s

/-! ### Requests (Table 12-4) -/

/-- A request of an agent for a line. -/
def agentReq (kind : ReqKind) (agent line : Nat) : Req := ⟨kind, agent, line, 0, [], 0, none, false, false⟩

/-- RDS. -/
def execRds (agent line : Nat) (s : State) : Result :=
  agentRow agent line 0 (fun s =>
    match startFetch agent line s with
    | some s => sendReq (agentReq .rds agent line) s
    | none => s) s

/-- RDO: only agents that may hold M write. A local write of a line in E needs no request: the line goes to M (Table 12-5). -/
def execRdo (agent line : Nat) (s : State) : Result :=
  agentRow agent line 0 (fun s =>
    if agent < 8 then s
    else match cacheLine? s agent line with
      | some c => if c.st = .e then putLine agent line { c with st := .m } s else s
      | none => match startFetch agent line s with
        | some s => sendReq (agentReq .rdo agent line) s
        | none => s) s

/-- UPG: an S copy wants M. -/
def execUpg (agent line : Nat) (s : State) : Result :=
  agentRow agent line 0 (fun s =>
    if agent < 8 then s
    else match cacheLine? s agent line with
      | some c => if c.st = .s ∧ agentUp s agent = true then
          sendReq (agentReq .upg agent line) (putLine agent line { c with st := .upgrading, gotData := false, granted := none } s)
        else s
      | none => s) s

/-- A home requester: a Marionette outside its own area, or a unit from code 0x10 on: table slices, Top, the checkpoint engine and the recovery
sequencer (R263). -/
def homeRequester (req line : Nat) : Bool :=
  (16 ≤ req && req < 64) || (8 ≤ req && req < 12 && !(0x34000 ≤ line && line < 0x38000))

/-- A requester of a line of the Reservoir: any agent or home requester. -/
def requesterLine (req line : Nat) (s : State) : Result := onUnit (req < 64 && req != 15 && line < reservoirLines) s

/-- RDH: only home requesters read uncached. -/
def execRdh (req line mask : Nat) (s : State) : Result :=
  onUnit (homeRequester req line && line < reservoirLines) (
    if domainRuns s then judgeDomain (sendReq ⟨.rdh, req, line, mask % 2 ^ granuleCount line, [], 0, none, false, false⟩ s) else s)

/-- WRH: only home requesters write uncached. -/
def execWrh (req line mask : Nat) (data : List Nat) (s : State) : Result :=
  onUnit (homeRequester req line && line < reservoirLines) (
    if domainRuns s then judgeDomain (sendReq ⟨.wrh, req, line, mask % 2 ^ granuleCount line, data, 0, none, false, false⟩ s) else s)

/-- ATM: on a granule of a line, from any unit. -/
def execAtm (req : Nat) (at_ : GranuleAt) (op : Atom) (s : State) : Result :=
  onUnit (req < 64 && req != 15 && at_.line < reservoirLines && at_.granule < granuleCount at_.line) (
    if domainRuns s then judgeDomain (sendReq ⟨.atm, req, at_.line, at_.granule, [], 0, some op.op, op.posted, false⟩ s) else s)

/-! ### Home's rows -/

/-- A row of the line's home slice, in a running domain; an uncorrectable directory entry fails the domain with cause 1. -/
def homeRow (agent line found : Nat) (f : State → State) (s : State) : Result :=
  agentLine agent line (
    if !domainRuns s then s
    else if arrayLost found then domainFail 1 (0x10 + sliceOf line) s
    else judgeDomain (f s))

/-- A message of an agent reaches home with what is found in it. -/
def homeTakes (agent line : Nat) (kind : MsgKind) (found : Nat) (none_ : State → State) (s : State) : State :=
  match arrived (fun m => m.src == agent && m.line == line && m.kind == kind) s with
  | some m =>
    let s := onCoh (fun c => { c with net := c.net.erase m }) s
    let (m, s) := poisonMessage found m s
    landMsg m s
  | none => none_ s

/-- An announced eviction arrives at home: it queues on its line; one of a line that its sender is not recorded to hold is illegal. -/
def evictionRow (kind : MsgKind) (agent line found : Nat) (s : State) : Result :=
  homeRow agent line found (homeTakes agent line kind found (fun s =>
    match dirOf s line with
    | some d => if d.dx ∧ d.owner = agent then s else illegalAt (0x10 + sliceOf line) s
    | none => illegalAt (0x10 + sliceOf line) s)) s

/-- WBD. -/
def execWbd (agent : Nat) (at_ : LineRead) (s : State) : Result := evictionRow .wbd agent at_.line at_.found s

/-- EVC. -/
def execEvc (agent line : Nat) (s : State) : Result := evictionRow .evc agent line 0 s

/-- CMP: the transaction closes. -/
def execCmp (agent line : Nat) (s : State) : Result :=
  homeRow agent line 0 (homeTakes agent line .cmp 0 (fun s =>
    if s.coh.open_.any fun t => t.req.line == line && t.req.src == agent then s else illegalAt (0x10 + sliceOf line) s)) s

/-- Somebody awaits an answer of the agent for the line. -/
def awaited (s : State) (agent line : Nat) : Bool :=
  s.coh.open_.any fun t => (t.req.line == line && t.await.contains agent) || (t.victim == some line && t.victimAwait.contains agent)

/-- A response reaches home. -/
def responseRow (kind : MsgKind) (agent line found : Nat) (s : State) : Result :=
  homeRow agent line found (homeTakes agent line kind found (fun s =>
    if awaited s agent line then s else illegalAt (0x10 + sliceOf line) s)) s

/-- RSP_I: home removes the pointer, and supplies the data where a forward was expected (R276). -/
def execRspI (agent line : Nat) (s : State) : Result := responseRow .rspI agent line 0 s

/-- RSP_FWD: the owner has forwarded the data. -/
def execRspFwd (agent line : Nat) (s : State) : Result := responseRow .rspFwd agent line 0 s

/-- RSP_FWD_DATA: the M data is written back. -/
def execRspFwdData (agent : Nat) (at_ : LineRead) (s : State) : Result := responseRow .rspFwdData agent at_.line at_.found s

/-- RSP_DATA: the M data is written, and the line is invalid. -/
def execRspData (agent : Nat) (at_ : LineRead) (s : State) : Result := responseRow .rspData agent at_.line at_.found s

/-- RSP_EV_IN_FLIGHT: home takes the eviction at once, from the line's queue or as it arrives, as the snoop response (R278). -/
def execRspEvInFlight (agent line : Nat) (s : State) : Result := responseRow .rspEvInFlight agent line 0 s

/-- A Nack for a requester. -/
def MsgKind.isNack : MsgKind → Bool
  | .nack _ => true
  | _ => false

/-- NACK: the requester receives its Nack, and its backoff runs. -/
def execNack (req line : Nat) (s : State) : Result :=
  requesterLine req line (
    if !domainRuns s then s
    else match arrived (fun m => m.dst == req && m.line == line && m.kind.isNack) s with
      | some m => deliver m s
      | none => s)

/-- NACK_RETRY: admitted where it holds the lowest outstanding ticket and an entry is free for it; else Nack again, its ticket kept. A retry that
an earlier message of its unit to the slice is before on the request channel has not arrived (R266): a later one does. -/
def execNackRetry (req line : Nat) (s : State) : Result :=
  requesterLine req line (
    let waits := s.coh.net.any fun m => m.dst == req && m.line == line && m.kind.isNack
    match s.coh.nacked.find? fun n => n.2.src == req && n.2.line == line with
    | none => s
    | some n =>
      if !domainRuns s || waits || (oldestOf s req (homeUnit line) 0).isSome then s
      else
        let slice := sliceOf line
        if (tickets s slice).all (fun x => decide (n.1 ≤ x.1)) ∧ admitted s slice < 8 then
          judgeDomain (admitReq n.2 (onCoh (fun c => { c with nacked := c.nacked.erase n }) s))
        else homeSend (.nack n.1) req line 0 (s.bump O.nacks))

/-- The outcome of an uncached operation reaches its requester, which keeps an atomic's result. -/
def uncachedRow (req line : Nat) (p : MsgKind → Bool) (s : State) : Result :=
  requesterLine req line (
    if !domainRuns s then s
    else match arrived (fun m => m.dst == req && m.line == line && p m.kind) s with
      | some m => deliver m s
      | none => s)

/-- The result of an atomic. -/
def MsgKind.isAtmRsp : MsgKind → Bool
  | .atmRsp _ => true
  | _ => false

/-- ATM_RSP. -/
def execAtmRsp (req line : Nat) (s : State) : Result := uncachedRow req line MsgKind.isAtmRsp s

/-- WR_ACK. -/
def execWrAck (req line : Nat) (s : State) : Result := uncachedRow req line (fun k => k == .wrAck) s

/-- RD_RSP. -/
def execRdRsp (req line : Nat) (s : State) : Result := uncachedRow req line (fun k => k == .rdRsp) s

/-- SNOOP_TIMEOUT: a snoop unanswered for 10 us (R283). -/
def execSnoopTimeout (agent line : Nat) (s : State) : Result :=
  agentLine agent line (if domainRuns s && awaited s agent line then domainFail 3 agent s else s)

/-- TRANSACTION_TIMEOUT: a transaction open for 10 us (R283). -/
def execTransactionTimeout (line : Nat) (s : State) : Result :=
  onUnit (line < reservoirLines) (if domainRuns s && s.coh.open_.any (fun t => t.req.line == line) then domainFail 4 (0x10 + sliceOf line) s else s)

/-! ### Checkpoints, poison repair and restart (R281, R285, R286, Table 12-10) -/

/-- A granule of the counter-pair or the freshness region. -/
def checkpointed (g : Nat) : Bool := (0x40000 ≤ g && g < 0x80000) || (0xA0000 ≤ g && g < 0xB0000)

/-- The newest committed checkpoint copy. -/
def newestCopy (s : State) : CheckCopy := if s.coh.copy0.marker < s.coh.copy1.marker then s.coh.copy1 else s.coh.copy0

/-- A line of those regions. -/
def checkpointedLine (line : Nat) : Bool := checkpointed (4 * line)

/-- The checkpoint engine reads its 81,920 lines by RdH: 5,120 at each slice, those that an agent owns or a transaction holds recalled first. -/
def readCheckpointLines (s : State) : State :=
  let lines := ((s.coh.dir.map (·.1) ++ s.coh.open_.map (·.req.line) ++ s.coh.queues.map (·.line)).filter checkpointedLine).eraseDups
  let s := lines.foldl (fun s l => readAtHome l s) s
  (List.range 16).foldl (fun s h => s.bumpBy (O.sliceOperations h) (5120 - (lines.filter fun l => sliceOf l == h).length)) s

/-- CHECKPOINT: the older copy takes the counter and freshness regions, line by line, then its commit marker. The crossings of K5 hold it while
the LPDDR5 reference is lost (R16). -/
def execCheckpoint (s : State) : Result :=
  .next (
    if !domainRuns s || !s.flag O.shadowReady || !lpddrRuns s then s
    else
      let s := readCheckpointLines s
      let copy : CheckCopy := ⟨s.coh.home.filter fun e => checkpointed e.1, s.clock.wall + 1⟩
      let s := onCoh (fun c => if c.copy0.marker ≤ c.copy1.marker then { c with copy0 := copy, freshSet := [] } else { c with copy1 := copy, freshSet := [] }) s
      (s.put O.lastCheckpointTime (Config.checkpointTime s.clock.wall).toNat).bump O.checkpointsCommitted)

/-- A Reservoir freshness counter after a restore (Table 12-10). -/
def restoredCounter (s : State) (i : Nat) : Nat :=
  let p? := (List.range 256).find? fun n => n != 0 && inRange (authProfileIn s.dict.live n) 0 i
  match p? with
  | none => mkCounter 0 false false false 0 0 (elapsedMs s)
  | some n =>
    let p := authProfileIn s.dict.live n
    let base := match SMap.find? s.coh.freshSet i with
      | some c => c
      | none => SMap.get 0 (newestCopy s).granules (freshGranule i)
    mkCounter (min (fcValue base + apJump p) (2 ^ apN p - 1)) true (fcUnsynced base) (bit base 61) 0 0 (elapsedMs s)

/-- What a granule of home memory holds after a restore (Table 12-10). -/
def restoredGranule (s : State) (g : Nat) : Nat :=
  if g < 0x40000 ∨ (0xB0000 ≤ g ∧ g < 0xE0000) then SMap.get 0 s.coh.shadow g
  else if g < 0x80000 then SMap.get 0 (newestCopy s).granules g
  else if g < 0xA0000 then
    let m := SMap.get 0 s.coh.shadow g
    freshMeter s (meterProfileId m) (meterValid m)
  else if g < 0xB0000 then restoredCounter s (g - 0xA0000)
  else 0

/-- The cells outside the meters and the freshness counters that a restore may leave other than zero. -/
def restoredKeys (s : State) : List Nat := s.coh.shadow.map (·.1) ++ (newestCopy s).granules.map (·.1)

/-- Home memory after a restore: every meter with full buckets and every freshness counter, and the other regions from their sources. -/
def restoredHome (s : State) : SMap Nat :=
  let meters := ((List.range 131072).map fun i => (meterGranule i, restoredGranule s (meterGranule i))).filter fun e => e.2 != 0
  let counters := ((List.range 65536).map fun i => (freshGranule i, restoredGranule s (freshGranule i))).filter fun e => e.2 != 0
  (restoredKeys s).foldl (fun m g => SMap.set 0 m g (restoredGranule s g)) (meters ++ counters)

/-- The counters that UnsyncedCounters counts in both stores. -/
def unsyncedNow (s : State) : Nat :=
  ((s.coh.home.filter fun e => 0xA0000 ≤ e.1 && e.1 < 0xB0000).map fun e => countsUnsynced e.2).sum +
  (s.headgate.flumeFresh.map fun e => countsUnsynced e.2).sum

/-- The regions are restored, fences that are met complete, and the domain leaves Fallback (R286). -/
def endRestart (s : State) : State :=
    if s.val O.domainState ≠ 1 ∨ s.power.core = false then s
    else
      let home := restoredHome s
      let us := (s.clock.wall - s.coh.failedAt) / 1000
      let s := onCoh (fun c => { c with home, poison := [], restartEnd := s.clock.wall + 1 }) s
      let s := (s.put O.counterLoss 1).put O.unsyncedCounters (unsyncedNow s)
      let s := s.put O.domainState 0
      let s := s.put O.lastRestartTime (us % 2 ^ 32)
      let s := s.bump O.domainRestarts
      let s := journalWaiting s
      let s := journal 0x0011 (beBytes 1 (s.val O.lastFailureCause) ++ beBytes 1 (s.obj O.lastFailureUnit) ++ beBytes 4 us) s
      let s := clearFault 0x0120 (settleMode 0 s)
      settleFences 8 s

end Sys2Proof.Machine
end

