-- ==== Sys2Proof/Machine/Recovery.lean ====
section
/-! DEFINITION. Halt and quarantine (R400, R401, R61). -/

namespace Sys2Proof.Machine

/-- Marionette `m` executes: it is not quarantined. -/
def marionetteUp (s : State) (m : Nat) : Bool := !bit s.modes.quarantine (8 + m)

/-- The Marionette that executes ring `r`: r mod 4, or the next in ascending order that is not quarantined (R61). -/
def executorOf (s : State) (r : Nat) : Nat :=
  (([0, 1, 2, 3].map fun i => (r + i) % 4).find? (marionetteUp s)).getD (r % 4)

/-- Rings move to the Marionettes that are left. -/
def moveRings (s : State) : State := (List.range 8).foldl (fun s r => s.setObj (O.ringExecutor r) (executorOf s r)) s

/-- A link's transmitter stops: the link is down at both ends. -/
def stopLink (m : Nat) (s : State) : State :=
  let off := (linkAt s m).state == 0
  let up := linkUp (linkAt s m)
  let s := discardAll m s
  if off then s else if up then linkDown m s else onLink m (fun l => { l with state := 4 }) s

/-- The ring is down at Halt: ChainState is broken, with vector 20 and CHAIN_FAULT (R382, R401). -/
def chainDown (s : State) : State :=
  if s.val O.chainState = 3 then s else raiseFault 0x0141 3 (vector 20 (s.put O.chainState 3))

/-- Entry to Halt with a fault of class H (R401): the links go down, searches and held results are discarded and counted, and Tally numbers
and commits the MODE_CHANGE record, from the chain head of R330 where the start had not reached it. -/
def enterHalt (code detail : Nat) (s : State) : State :=
  if s.modes.halted then raiseFault code detail s
  else
    let valid := s.keys.rootUp && s.keys.vault.mac == s.keys.vault.macOf
    let s := { s with modes := { s.modes with halted := true } }
    let s := journalWaiting (if s.modes.ready then s else reconcileChain valid s)
    let s := (List.range 8).foldl (fun s m => stopLink m s) s
    let s := if s.val O.culvertLinkState = 0 then s else s.put O.culvertLinkState 4
    let s := if s.val O.chainState = 0 ∧ s.chain.up = false then s else chainDown { s with chain := { s.chain with up := false } }
    let s := raiseFault code detail (settleMode code s)
    tallyCommit (askSluice 1 0 sluiceHalt s)

/-- A search that its unit cannot finish ends with ERR_DATA and its FallbackAction (R122, R400). -/
def endWithErrData (p : Slot → Bool) (s : State) : State :=
  releaseContexts ((s.headgate.slots.filter p).foldl (fun s x =>
    underConfig x.config (finishSearch x (fallbackVerdict 0x40 (slotProgram x))) s) s)

/-- A Lateral is quarantined: its running searches end, those not yet begun wait for another, and it leaves the coherent domain. -/
def quarantineLateral (n : Nat) (s : State) : State :=
  let s := endWithErrData (fun x => x.lateral == n && slotClass x != 1 && x.phase != .done && x.phase != .assigned) s
  let s := onHeadgate (fun h => { h with slots := h.slots.map fun x => if x.lateral = n then { x with lateral := 8 } else x }) s
  let s := agentLeaves n s
  let s := if n = 0 then drowseTrigger s else s
  if s.modes.quarantine % 256 = 255 then
    raiseFault 0x0132 0 (endWithErrData (fun x => slotClass x != 1 && x.phase != .done) s)
  else s

/-- The owner of a scratchpad bank is told of it (R308): vector 21 where the host owns it. -/
def noticeBank (b : Nat) (s : State) : State := if s.val (O.bankOwner b) = 0 then vector 21 s else s

/-- The unit codes of Table 18-6. -/
def quarantineUnits (u : Nat) : Bool := u < 12 || (0x10 ≤ u && u < 0x14) || (0x20 ≤ u && u < 0x40)

/-- A unit is quarantined until the next start (R400). -/
def quarantineUnit (u : Nat) (s : State) : State :=
  if bit s.modes.quarantine u then s
  else
    let s := quarantineMark u s
    let s :=
      if u < 8 then quarantineLateral u s
      else if u < 12 then moveRings (agentLeaves u s)
      else if 0x20 ≤ u then noticeBank (u - 0x20) s
      else s
    let s := if s.modes.quarantine / 256 % 16 = 15 ∧ u < 12 ∧ 8 ≤ u then enterHalt 0x0161 0 s else s
    settleGrants s

/-- QUARANTINE (R400). -/
def execQuarantine (unit : Nat) (s : State) : Result :=
  onUnit (quarantineUnits unit) (if s.power.core then quarantineUnit unit s else s)

/-- MARIONETTE_HEARTBEAT_TIMEOUT: no heartbeat for 10 ms (R400). -/
def execMarionetteHeartbeatTimeout (marionette : Nat) (s : State) : Result :=
  onUnit (marionette < 4) (if s.power.core && s.modes.ready then quarantineUnit (8 + marionette) s else s)

end Sys2Proof.Machine
end

