-- ==== Sys2Proof/Machine/Integrity.lean ====
section
/-! DEFINITION. Scrubbing, weak words, retests and the bring-up of LPDDR5 (R289–R310, R428, Table 13-6). What a scrub read finds comes with
the command. -/

namespace Sys2Proof.Machine

/-! ### Regions (Table 13-1) -/

/-- Units of each region; a TCAM quarter's units are its powered slots. -/
def regionUnits (s : State) (region : Nat) : Nat :=
  if 4 ≤ region ∧ region ≤ 7 then 1024 * popcount 8 (bits s.tcam.powered (8 * (region - 4) + 7) (8 * (region - 4)))
  else if region = 0x11 then s.val O.lpddrUserCapacity * 16384
  else [4096, 4096, 1024, 26624, 0, 0, 0, 0, 65536, 131072, 4096, 262144, 65536, 4096, 1024, 65536, 32768].getD region 0

/-- A region whose unit is a slot or an entry and not a line of eight words. -/
def unitIsEntry (region : Nat) : Bool := (4 ≤ region && region ≤ 7) || region == 0x0A || region == 0x0C

/-- The unit of a word. -/
def unitOf (region word : Nat) : Nat := if unitIsEntry region then word else word / 8

/-- The unit at a position of the lap: a TCAM quarter's slots are those of its powered blocks. -/
def unitAt (s : State) (region pos : Nat) : Nat :=
  if 4 ≤ region ∧ region ≤ 7 then
    1024 * (bitList 8 (bits s.tcam.powered (8 * (region - 4) + 7) (8 * (region - 4)))).getD (pos / 1024) 8 + pos % 1024
  else pos

/-- Yo-yo serves the region. -/
def yoyoAllowed (region : Nat) : Bool := region < 4 || (8 ≤ region && region ≤ 13) || region == 15 || region == 16

/-- The scrubber of a region. -/
def scrubOf (s : State) (region : Nat) : RegionScrub := s.integ.regions.getD region RegionScrub.off

/-- Change a region's scrubber. -/
def onScrub (region : Nat) (f : RegionScrub → RegionScrub) (s : State) : State :=
  onInteg (fun i => { i with regions := i.regions.modify region f }) s

/-- The region can be scrubbed now: filled, powered, and its domain running (R16, R284, R293, R296). -/
def scrubbable (s : State) (region : Nat) : Bool :=
  s.power.core && s.modes.fillDone &&
  !((region == 8 || region == 0x11) && (s.modes.drowse == 2 || s.modes.drowse == 3)) &&
  !((region == 0x0B || region == 0x0C) && s.val O.domainState == 2) &&
  (region != 0x11 || (s.val O.lpddrState == 3 && lpddrRuns s))

/-- The region lies on the Flume path, whose words are relocated without a retest (R304). -/
def flumePath (s : State) (region word : Nat) : Bool :=
  region < 3 || region == 0x0D ||
  (4 ≤ region && region ≤ 7 && flumeQuarter s.dict.live (region - 4)) ||
  (region == 3 && flumeQuarter s.dict.live (min 3 (word / 53248)))

/-- The TCAM slot of a word of the shadows, 6.5 words to a slot, or of the array. -/
def tcamSlotOf (region word : Nat) : Nat := if region = 3 then min 32767 (word * 2 / 13) else 8192 * (region - 4) + word % 8192

/-! ### Tally records of R306 -/

/-- Words whose losses and retirements are journalled: of tables, the extended flow table in LPDDR5 among them, key slots and vault. -/
def journalled (region word : Nat) : Bool := region ≤ 0x0A || region == 0x0D || region == 0x0E || (region == 0x11 && word < 0x800000)

/-- The table that a word belongs to, 0xFFFF where there is none. -/
def tableOf (s : State) (region word : Nat) : Nat :=
  let entry (p : Nat) : Nat := match SMap.find? s.buckets.entries p with
    | some e => e.table
    | none => 0xFFFF
  if region = 9 then entry (word / 4)
  else if region = 0x0A then entry (0x40000 + word % 4096)
  else if region = 0x11 then entry (0x100000 + word / 8)
  else if region = 8 then ((nodeAt s word).map (·.1)).getD 0xFFFF
  else if region = 3 ∨ (4 ≤ region ∧ region ≤ 7) then
    let k := tcamSlotOf region word
    match (List.range 32).find? fun i =>
      tdDefined (tcamDef s.dict.live (k / 8192) i) && (tablePlaces s (k / 8192) i).any fun p => p == k || p + 1 == k with
    | some i => tdId (tcamDef s.dict.live (k / 8192) i)
    | none => 0xFFFF
  else 0xFFFF

/-- Journal a lost or retired word. -/
def journalWord (type region word : Nat) (s : State) : State :=
  if journalled region word then journal type (beBytes 1 region ++ beBytes 4 word ++ beBytes 2 (tableOf s region word)) s else s

/-! ### Uncorrectable words -/

/-- The check bits that a word's code gives its data (R289): the manual states of the codes only that zero data has check bits that are not all
zero (R290). -/
def checkBits (code : Nat) (data : BitVec 64) : BitVec 16 :=
  if data = 0 ∧ Config.checkBits code data = 0 then 1 else Config.checkBits code data

/-- The code of a word: 0 DEC-TED, 1 SEC-DED (Table 13-1); of a scratchpad word, as its bank's BankCode says (R79). -/
def regionCode (s : State) (region word : Nat) : Nat :=
  if region = 0x10 ∨ region = 0x11 then 1 else if region = 0x0F then s.val (O.bankCode (word % 32)) else 0

/-- A word that reads as all zeros, check bits included, is not a code word: it is uncorrectable (R290). -/
def zeroReads (s : State) (region word : Nat) : Observation := if checkBits (regionCode s region word) 0 = 0 then .clean else .uncorrectable word

/-- A slot that disagrees with its shadow is rewritten from it (R157). -/
def rewriteSlot (k : Nat) (s : State) : State := ((writeSlot k (slotAt s k).shadow s).bump O.scrubMismatches).bump O.shadowRewrites

/-- The table slot and first place of the entry of this device that takes slot `k`. -/
def entryOfSlot (s : State) (k : Nat) : Option (Nat × Nat) :=
  let q := k / 8192
  (List.range 32).findSome? fun i =>
    let d := tcamDef s.dict.live q i
    if tdDefined d then
      ((tablePlaces s q i).find? fun p => (p == k || (tdWide d && p + 1 == k)) && (shadowAt s p).valid).map fun p => (i, p)
    else none

/-- An entry's slots are invalidated, first slot first (R144). -/
def clearPlace (wide : Bool) (p : Nat) (s : State) : State := (invalidateWrites s wide p).foldl (fun s w => writeSlot w.1 w.2 s) s

/-- A shadow word cannot be corrected: its slot is left invalid, and the entry is lost until it is inserted again from the group map (R157). -/
def loseShadow (k : Nat) (s : State) : State :=
  match entryOfSlot s k with
  | none => writeSlot k { (slotAt s k).shadow with valid := false } s
  | some (i, p) =>
    let wide := tdWide (tcamDef s.dict.live (k / 8192) i)
    let keep (c : Tcam) : Tcam :=
      let lost := SMap.insert c.lost p (shadowAt s p)
      { c with lost := if wide then SMap.insert lost (p + 1) (shadowAt s (p + 1)) else lost }
    clearPlace wide p (onTcam keep s)

/-- The lost entry whose first slot was `p` is inserted again into its table (R157). A member's chain-wide entries are the head's to insert. -/
def reinsert (p : Nat) (s : State) : State :=
  match SMap.find? s.tcam.lost p with
  | none => s
  | some a =>
    let q := p / 8192
    match tcamTable s.dict.live q (a.value / 2 ^ 184) with
    | none => s
    | some i =>
      let d := tcamDef s.dict.live q i
      let e := shadowEntry (tdWide d) a (SMap.get Shadow.zero s.tcam.lost (p + 1))
      if a.upper || quarterOut s q || (tdChain d && !isHead s) || tableBusy s q i || (findTcam s q i e.key e.mask).isSome then s
      else match planTcam q i e s with
        | .inr _ => s
        | .inl (_, ws, n) =>
          let lost := SMap.erase s.tcam.lost p
          let lost := if tdWide d then SMap.erase lost (p + 1) else lost
          queueWrites q i ws (onTcam (fun c => { c with lost }) (s.bumpBy O.moves n))

/-- The vault line of the entry of handle `h` (Table 14-4), or the line that it has been moved to. -/
def vaultLine (s : State) (h : Nat) : Nat := SMap.get (64 + h) s.integ.vaultMoves h

/-- The handle whose entry lies on a vault line. -/
def handleAt (s : State) (line : Nat) : Option Nat :=
  (List.range 256).find? fun h => (SMap.get VaultEntry.empty s.keys.vault.entries h).state != 0 && vaultLine s h == line

/-- A bank in which 8 distinct words have been found uncorrectable within a lap, and none rewritten, is quarantined (R400). -/
def judgeBank (b : Nat) (s : State) : State :=
  let lost := s.scratch.lapLost.filter fun w => w % 32 == b && wordBad s w
  if 8 ≤ lost.length ∧ bit s.modes.quarantine (0x20 + b) = false then quarantineUnit (0x20 + b) s else s

/-- Handle an uncorrectable word as Table 13-6 states. What a Marionette restores from a source that still holds the content is restored by
POISON_REPAIR; a key slot's restoration by the key engine is complete when the command ends. -/
def loseWord (region word : Nat) (s : State) : State :=
  let s := journalWord 0x0060 region word (s.bump (O.uncorrectables region))
  if region = 0 then { s with results := { s.results with bad := SMap.insert s.results.bad (2 ^ 20 + word / 2) true } }
  else if region = 1 then { s with results := { s.results with bad := SMap.insert s.results.bad (2 ^ 21 + word / 2) true } }
  else if region = 2 then
    let s := setFresh 1 (word / 2) (fun c => if fcValid c && !fcUnsynced c then c + 2 ^ 62 else c) s
    { s with results := { s.results with bad := SMap.insert s.results.bad (2 ^ 22 + word / 2) true } }
  else if region = 3 then loseShadow (tcamSlotOf region word) s
  else if 4 ≤ region ∧ region ≤ 7 then rewriteSlot (tcamSlotOf region word) s
  else if region = 8 then { s with furrow := { s.furrow with bad := SMap.insert s.furrow.bad word true } }
  else if region = 9 ∨ region = 0x0A ∨ region = 0x11 then
    let p := if region = 9 then word / 4 else if region = 0x0A then 0x40000 + word % 4096 else 0x100000 + word / 8
    if region = 0x11 ∧ 0x800000 ≤ word then s else onBuckets (fun b => { b with bad := SMap.insert b.bad p true }) s
  else if region = 0x0B then
    if wordPoisoned s word then s else (setPoison (word / 8) (granuleIndex word) true s).bump O.poisonedGranules
  else if region = 0x0C then domainFail 1 (0x10 + word / 4096 % 16) s
  else if region = 0x0D then
    let h := word / 8
    let k := SMap.get KeySlot.empty s.keys.slots h
    if s.keys.lost.contains k.parent then { s with keys := { s.keys with slots := SMap.erase s.keys.slots h } } else s
  else if region = 0x0E then
    match handleAt s (word / 8) with
    | some h =>
      if (SMap.get VaultEntry.empty s.keys.vault.entries h).state = 1 ∧ s.keys.lost.contains h = false then
        { s with keys := { s.keys with lost := h :: s.keys.lost } }
      else s
    | none => s
  else if region = 0x0F then
    judgeBank (word % 32) (onScratch (fun x => { x with
      bad := SMap.insert x.bad word true, lapLost := if x.lapLost.contains word then x.lapLost else word :: x.lapLost }) s)
  else if region = 0x10 then quarantineUnit (8 + word / 65536 % 4) s
  else s

/-! ### Weak words (R302–R308) -/

/-- Vacate and retire a TCAM slot: its entry moves to another place of its table, if there is one, make-before-break (R144, R149). -/
def retireSlot (k : Nat) (s : State) : Option State :=
  let out (s : State) : State := onTcam (fun t => { t with retired := k :: t.retired }) s
  let q := k / 8192
  if !(slotAt s k).shadow.valid then some (out s)
  else match entryOfSlot s k with
    | none => none
    | some (i, p) =>
      let d := tcamDef s.dict.live q i
      let e := shadowEntry (tdWide d) (shadowAt s p) (shadowAt s (p + 1))
      if (tdChain d && !isHead s) || tableBusy s q i then none
      else match planTcam q i e (out (clearPlace (tdWide d) p s)) with
        | .inl (_, ws, n) => some (queueWrites q i (ws ++ invalidateWrites s (tdWide d) p) (out (s.bumpBy O.moves n)))
        | .inr _ => none

/-- Retire a bucket way or overflow slot: its entry moves as R191 says, if another place takes it. -/
def retirePlace (p : Nat) (s : State) : Option State :=
  let out (s : State) : State := onBuckets (fun b => { b with retired := p :: b.retired }) s
  match SMap.find? s.buckets.entries p with
  | none => some (out s)
  | some e =>
    let s' := out (dropEntry p s)
    match planInsert s' e.table e.key with
    | .inl p' => some (notePeak (putEntry p' e s'))
    | .inr _ => none

/-- Redirect a Reservoir line to a free-pool line of its slice, which takes its content, as one home operation at its turn on the line; cached copies
stay, and each slice redirects at most 16 (R281). -/
def redirectLine (line : Nat) (s : State) : Option State :=
  let s := settleFree line s
  let slice := sliceOf line
  let used := s.coh.redirects.filter fun r => sliceOf r.1 == slice
  if used.length < 16 then
    let to_ := 0x38000 + 16 * used.length + slice
    let home := (List.range 4).foldl (fun h i => SMap.set 0 h (4 * to_ + i) (SMap.get 0 s.coh.home (4 * line + i))) s.coh.home
    some ((onCoh (fun c => { c with home, redirects := c.redirects ++ [(line, to_)] }) s).bump O.retiredLines)
  else none

/-- Disable a directory way: its entry is evicted (R277). -/
def disableWay (entry : Nat) (s : State) : State :=
  let slice := entry / 4096 % 16
  let set := entry % 4096 / 16
  let s := onInteg (fun i => { i with retired := (0x0C, entry) :: i.retired }) s
  let es := s.coh.dir.filter fun e => sliceOf e.1 == slice && e.1 / 16 % 256 == set
  let off := (s.integ.retired.filter fun r => r.1 == 0x0C && r.2 / 16 == entry / 16).length
  if 16 < es.length + off then
    match es.find? fun e => !lineOpen s e.1 && es.all fun f => decide (e.2.used ≤ f.2.used) with
    | some e => (writeTurn homeUser e.1 s).bump O.directoryEvictions
    | none => s
  else s

/-- Copy a unit to a spare line and write its remap entry, while one of `n` spares is left (R305). -/
def relocate (region unit n : Nat) (s : State) : Option State :=
  if (scrubOf s region).remap.length < n then some (onScrub region (fun r => { r with remap := r.remap ++ [unit] }) s) else none

/-- Add a weak word to its region's list with a State of R307, or give a listed one its new State in its place. -/
def listWeak (region word st : Nat) (s : State) : State :=
  onScrub region (fun r => { r with weak :=
    if (r.weak.any fun w => w.1 == word) = true then r.weak.map fun w => if w.1 = word then (word, st) else w else r.weak ++ [(word, st)] }) s

/-- A word is out of use for good. -/
def countRetired (region : Nat) (s : State) : State := s.bump (O.retiredWords region)

/-- The lost entry with a slot at `k` is inserted again, now that its shadow word is relocated or found sound (R157). -/
def reinsertAt (k : Nat) (s : State) : State :=
  match List.find? (fun e => e.1 == k || (e.1 + 1 == k && e.2.wide && !e.2.upper)) s.tcam.lost with
  | some e => reinsert e.1 s
  | none => s

/-- A word has become weak: it is listed, counted, and relocated or left for its retest (Table 13-6). -/
def weakWord (region word : Nat) (s : State) : State :=
  let s := s.bump (O.weakWordCount region)
  let s := if 16 < s.val (O.weakWordCount region) then raiseFault 0x0131 region (settleMode 0x0131 s) else s
  let relocated (s? : Option State) (retest : Bool) : State := match s? with
    | some s => if retest then listWeak region word 1 s else countRetired region (listWeak region word 4 s)
    | none => listWeak region word 5 s
  if region < 3 ∨ region = 0x0D then
    relocated (relocate region (unitOf region word) 16 s) false
  else if 4 ≤ region ∧ region ≤ 7 then relocated (retireSlot (tcamSlotOf region word) s) (!flumePath s region word)
  else if region = 3 ∧ flumePath s region word = true then
    relocated ((retireSlot (tcamSlotOf region word) s).map (reinsertAt (tcamSlotOf region word))) false
  else if region = 0x0B then relocated (redirectLine (word / 8) s) true
  else if region = 0x0C then listWeak region word 1 (disableWay word s)
  else
    let s := listWeak region word 1 s
    if region = 0x0F then noticeBank (word % 32) s else s

/-- An on-chip entry as the 32 bytes of Table 8-2, as a number; 0 where place `p` holds none. -/
def onChipImage (s : State) (p : Nat) : Nat :=
  match SMap.find? s.buckets.entries p with
  | some e => e.key / 2 ^ 192 * 2 ^ 128 + e.record * 2 ^ 110 + e.timestamp * 2 ^ 94 + 2 ^ 93 + b2n e.static * 2 ^ 92 + b2n e.sealed * 2 ^ 91 +
      b2n e.learned * 2 ^ 90 + b2n e.moveLocked * 2 ^ 89 + b2n e.gen * 2 ^ 88 + e.table * 2 ^ 82 + e.flap * 2 ^ 78 + e.flapStart * 2 ^ 62 +
      e.channel * 2 ^ 50
  | none => 0

/-- An extended entry as the 64 bytes of Table 8-3, as a number. -/
def extendedImage (s : State) (p : Nat) : Nat :=
  match SMap.find? s.buckets.entries p with
  | some e => e.key * 2 ^ 192 + e.record * 2 ^ 174 + e.timestamp * 2 ^ 158 + 2 ^ 157 + b2n e.static * 2 ^ 156 + b2n e.sealed * 2 ^ 155 +
      b2n e.learned * 2 ^ 154 + b2n e.moveLocked * 2 ^ 153 + b2n e.gen * 2 ^ 152 + e.table * 2 ^ 146 + e.flap * 2 ^ 142 +
      e.flapStart * 2 ^ 126 + e.channel * 2 ^ 114 + e.hostState * 2 ^ 64 + e.created
  | none => 0

/-- A byte of LPDDR5 user space (Table 13-3): the extended flow table, the Reservoir shadow, the Tally ring and the trace records at the base of
staging (R347). DESIGN CHOICE: the shadow keeps the Reservoir's offsets, and the record of a Sequence lies in the ring at 64 times it; the
checkpoint copies, the table shadows and the rest of staging are laid out nowhere. -/
def lpddrByte (s : State) (a : Nat) : Option Byte :=
  let num (v i : Nat) : Option Byte := some (BitVec.ofNat 8 (v / 256 ^ i))
  if a < 0x4000000 then num (extendedImage s (0x100000 + a / 64)) (a % 64)
  else if a < 0x5000000 then num (SMap.get 0 s.coh.shadow ((a - 0x4000000) / 16)) (a % 16)
  else if 0x8000000 ≤ a ∧ a < 0x18000000 then
    match s.tally.recs.find? fun r => r.seq * 64 % 0x10000000 == (a - 0x8000000) / 64 * 64 with
    | some r => some (r.bytes.getD (a % 64) 0)
    | none => none
  else if 0x18000000 ≤ a then (s.jack.trace[(a - 0x18000000) / 128]?).map fun r => r.getD (a % 128) 0
  else none

/-- What a word of a region holds, as a candidate keeps it to see that it has been written (R302): a slot's, an entry's and a set's fields where the
unit is one of these; a word of the Marionettes' private memories, and one of LPDDR5 whose contents are not stated, holds nothing that State keeps. A
write that leaves a word as it was is seen in the scratchpad only. DESIGN CHOICE. -/
def wordHeld (s : State) (region word : Nat) : List Nat :=
  let part (v n : Nat) : List Nat := [bits v (64 * (word % n) + 63) (64 * (word % n))]
  if region = 0 then part (SMap.get 0 s.results.verdict (word / 2)) 2
  else if region = 1 then part (SMap.get 0 s.results.flumeMeters (word / 2)) 2
  else if region = 2 then part (SMap.get 0 s.headgate.flumeFresh (word / 2)) 2
  else if region = 3 then (List.range 8).map fun i => (slotAt s ((8 * word + i) / 52)).shadow.toNat / 256 ^ (51 - (8 * word + i) % 52) % 256
  else if 4 ≤ region ∧ region ≤ 7 then [(slotAt s (tcamSlotOf region word)).shadow.toNat]
  else if region = 8 then [furrowWord s word]
  else if region = 9 then part (onChipImage s (word / 4)) 4
  else if region = 0x0A then [onChipImage s (0x40000 + word % 4096)]
  else if region = 0x0B then part (SMap.get 0 s.coh.home (word / 2)) 2
  else if region = 0x0C then
    (s.coh.dir.filter fun e => sliceOf e.1 == word / 4096 && e.1 / 16 % 256 == word / 16 % 256).flatMap fun e =>
      [e.1, b2n e.2.dx, e.2.owner, b2n e.2.bcast] ++ e.2.sharers
  else if region = 0x0D then
    let k := SMap.get KeySlot.empty s.keys.slots (word / 8)
    [k.state, k.type, k.usage, k.parent, k.origin, leNat k.key]
  else if region = 0x0E then
    let e := SMap.get VaultEntry.empty s.keys.vault.entries ((handleAt s (word / 8)).getD 256)
    [e.type, e.usage, e.state, e.counter, leNat e.wrapped]
  else if region = 0x0F then [leNat (Memory.readBytes s.scratch.mem (8 * word) 8)]
  else if region = 0x11 then (List.range 8).filterMap fun i => (lpddrByte s (8 * word + i)).map (·.toNat)
  else []

/-- The candidates of a region that nothing has written since they last corrected: a write removes a candidate (R302). -/
def candidatesOf (s : State) (region : Nat) : List Candidate :=
  (scrubOf s region).candidates.filter fun c => c.held == wordHeld s region c.word

/-- A scrub read corrected a word: it is a candidate, and weak at its third lap in a row (R302). -/
def correctWord (region word : Nat) (s : State) : State :=
  let r := scrubOf s region
  let n := match (candidatesOf s region).find? fun c => c.word == word with
    | some c => if c.lap + 1 = r.lap then c.laps + 1 else if c.lap = r.lap then c.laps else 1
    | none => 1
  let rest := (candidatesOf s region).filter fun c => c.word != word
  let full := decide (64 ≤ rest.length)
  let rest := if full then
      match rest.find? fun c => rest.all fun d => decide (c.laps ≤ d.laps) with
      | some c => rest.erase c
      | none => rest
    else rest
  let s := if full then s.bump O.candidateOverflows else s
  let s := onScrub region (fun r => { r with candidates := rest ++ [⟨word, n, r.lap, wordHeld s region word⟩] }) s
  let listed : Option Nat := (r.weak.find? fun w => w.1 == word).map (·.2)
  if n = 3 ∧ (listed = none ∨ listed = some 2) then weakWord region word s else s

/-! ### Scrub visits -/

/-- What the code says of an observation: a word of zeros is judged by its check bits (R290). -/
def judge (s : State) (region : Nat) (obs : Observation) : Observation :=
  match obs with
  | .zeros w => zeroReads s region w
  | o => o

/-- What a scrub read of a word finds, whichever scrubber reads it. A lost shadow word is weak (R157). -/
def observe (region : Nat) (obs : Observation) (lapVisit : Bool) (s : State) : State :=
  match judge s region obs with
  | .clean | .zeros _ => s
  | .corrected word =>
    let s := s.bump (O.corrections region)
    let s := if 4 ≤ region ∧ region ≤ 7 then rewriteSlot (tcamSlotOf region word) s else s
    if lapVisit then correctWord region word s else s
  | .uncorrectable word =>
    let listed := (scrubOf s region).weak.any fun w => w.1 == word && w.2 != 2
    let s := loseWord region word s
    if region = 3 ∧ listed = false then weakWord 3 word s else s

/-- The word that an observation names, where it names one. -/
def obsWord : Observation → Option Nat
  | .clean => none
  | .corrected w => some w
  | .uncorrectable w => some w
  | .zeros w => some w

/-- A scrubber or a retest is about to access a unit: the merge entries of its words retire (R297), in a scratchpad bank, or in the bank of a
bucket's table slice. -/
def flushUnit (region unit : Nat) (s : State) : State :=
  if region = 0x0F then (List.range 8).foldl (fun s i => mergeFlush ((8 * unit + i) % 32) (8 * unit + i) s) s
  else if region = 9 then (List.range 8).foldl (fun s i => mergeFlush (32 + (8 * unit + i) / 16 % 16) (8 * unit + i) s) s
  else s

/-- What is counted within a lap starts anew (R400). -/
def endLap (region : Nat) (s : State) : State :=
  if region = 0x0F then onScratch (fun x => { x with lapLost := [] }) s
  else if 4 ≤ region ∧ region ≤ 7 then onTcam (fun c => { c with mismatched := c.mismatched.filter fun k => k / 8192 != region - 4 }) s
  else s

/-- A scrubber visits the next unit of its lap (R299, R300). An observation names a word of that unit; the first lap starts with its first visit.
DESIGN CHOICE. -/
def visit (region : Nat) (obs : Observation) (s : State) : State :=
  let r := scrubOf s region
  let n := regionUnits s region
  let unit := unitAt s region r.pos
  let fits := match obsWord obs with
    | some w => unitOf region w == unit
    | none => true
  if n = 0 ∨ scrubbable s region = false ∨ fits = false then s
  else
    let s := flushUnit region unit s
    let s := if r.lap = 0 ∧ r.pos = 0 then onScrub region (fun r => { r with lapStart := elapsed s }) s else s
    let keep (c : Candidate) : Bool := unitOf region c.word != unit || some c.word == obsWord obs
    let s := onScrub region (fun r => { r with candidates := (candidatesOf s region).filter keep }) s
    let s := observe region obs true s
    if n ≤ r.pos + 1 then
      let s := if r.interrupted then s else s.put (O.lapTime region) ((elapsed s - (scrubOf s region).lapStart) / 1000000 % 2 ^ 32)
      let s := endLap region s
      onScrub region (fun r => { r with pos := 0, lap := r.lap + 1, lapStart := elapsed s, topFinishes := false, interrupted := false }) s
    else onScrub region (fun r => { r with pos := r.pos + 1 }) s

/-- TOP_SCRUB_VISIT: regions whose ScrubMode is 0, and laps that Top finishes for Yo-yo. -/
def execTopScrubVisit (region : Nat) (obs : Observation) (s : State) : Result :=
  onUnit (region < 18) (if s.obj (O.scrubMode region) = 0 ∨ (scrubOf s region).topFinishes = true then visit region obs s else s)

/-- YOYO_SCRUB: a bank of the region has been idle for 32 ns. -/
def execYoyoScrub (region : Nat) (obs : Observation) (s : State) : Result :=
  onUnit (region < 18) (if s.obj (O.scrubMode region) = 1 ∧ yoyoAllowed region = true ∧ (scrubOf s region).topFinishes = false then visit region obs s else s)

/-- YOYO_LAP_TIMEOUT: Top finishes the lap. -/
def execYoyoLapTimeout (region : Nat) (s : State) : Result :=
  onUnit (region < 18) (
    if s.obj (O.scrubMode region) = 1 ∧ (scrubOf s region).topFinishes = false ∧ scrubbable s region = true then
      (onScrub region (fun r => { r with topFinishes := true }) s).bump (O.yoyoFallbacks region)
    else s)

/-- OUT_OF_TURN_SCRUB: a foreground read corrected the word, which is counted, and Top scrubs it; no lap observation. An uncorrectable word is what
the foreground read itself found: nothing was corrected, and it is handled where it was found (R291). -/
def execOutOfTurnScrub (region word : Nat) (obs : Observation) (s : State) : Result :=
  onUnit (region < 18) (
    if scrubbable s region && (obsWord obs == none || obsWord obs == some word) && unitOf region word < max (regionUnits s region) 8192 then
      let lost := match judge s region obs with
        | .uncorrectable _ => true
        | _ => false
      observe region obs false (flushUnit region (unitOf region word) (if lost then s else s.bump (O.corrections region)))
    else s)

/-! ### Retests (R303, R304) -/

/-- The line stays where it is for the retest, borrowed, and accesses to it wait (R303, R304): it has not been vacated before. -/
def borrows (s : State) (region word : Nat) : Bool :=
  !flumePath s region word && !(4 ≤ region && region ≤ 7) && region != 0x0B && region != 0x0C

/-- A retest passed: the word is out of suspicion, and a vacated slot or way returns to use. A vacated Reservoir line joins the free pool, whose
2,048 lines of a slice outlast the slice's 16 redirections (R281), so that State need not list the pool. -/
def retestPassed (region word : Nat) (s : State) : State :=
  let s := onScrub region (fun r => { r with candidates := r.candidates.filter fun c => c.word != word }) (listWeak region word 2 s)
  if 4 ≤ region ∧ region ≤ 7 then onTcam (fun t => { t with retired := t.retired.erase (tcamSlotOf region word) }) s
  else if region = 3 then reinsertAt (tcamSlotOf region word) s
  else if region = 0x0C then onInteg (fun i => { i with retired := i.retired.erase (0x0C, word) }) s
  else s

/-- A word that stays weak is listed as retired once what it held is relocated, and as not retired where no place is left. -/
def retestEnds (region word : Nat) (s : State) : Option State → State
  | some s => countRetired region (listWeak region word 3 s)
  | none => listWeak region word 5 s

/-- A hard word of the vault is retired, and the secret whose entry lies on its line moves to a line that no secret and no field of Table 14-4 takes,
where there is one (Table 13-6). -/
def moveSecret (word : Nat) (s : State) : Option State :=
  let out (s : State) : State := onInteg (fun i => { i with retired := (0x0E, word) :: i.retired }) s
  match handleAt s (word / 8) with
  | none => some (out s)
  | some h =>
    let bad (l : Nat) : Bool := s.integ.retired.any fun r => r.1 == 0x0E && r.2 / 8 == l
    match ((List.range 1024).find? fun l => 320 ≤ l && !bad l && (handleAt s l).isNone) with
    | some l => some (out (onInteg (fun i => { i with vaultMoves := SMap.insert i.vaultMoves h l }) s))
    | none => none

/-- A retest found a hard fault (Table 13-6). -/
def retestHard (region word : Nat) (s : State) : State :=
  let s := journalWord 0x0061 region word s
  let table := retestEnds region word s
  if region = 3 then table ((retireSlot (tcamSlotOf 3 word) s).map (reinsertAt (tcamSlotOf 3 word)))
  else if region = 9 then table (retirePlace (word / 4) (drainOps (fun _ => true) s))
  else if region = 0x0A then table (retirePlace (0x40000 + word % 4096) (drainOps (fun _ => true) s))
  else if region = 0x0E then table (moveSecret word s)
  else if region = 0x11 then
    table ((relocate region (unitOf region word) 64 s).map fun s => s.bump O.lpddrSparesUsed)
  else if region = 0x0F then noticeBank (word % 32) (listWeak region word 3 s)
  else if region = 8 then table (some (rebuildWord word (onInteg (fun i => { i with retired := (8, word) :: i.retired }) s)))
  else table (some s)

/-- A weak word of what has become the Flume path since it was listed is never retested: its slot, vacated or vacated now, is retired without a retest
(R304). -/
def retireUntested (region word : Nat) (s : State) : State :=
  if region = 3 then
    match retireSlot (tcamSlotOf region word) s with
    | some s => countRetired region (listWeak region word 4 (reinsertAt (tcamSlotOf region word) s))
    | none => listWeak region word 5 s
  else countRetired region (listWeak region word 4 s)

/-- WEAK_WORD_RETEST: a weak word whose retest is pending is pattern-tested on its borrowed or vacated line. How many foreground accesses wait for
a borrowed line is free. A hard word of Furrow whose table a search marks waits for the mark, as its publishing write does (R174). -/
def execWeakWordRetest (region word : Nat) (hard : Bool) (s : State) : Result :=
  onUnit (region < 18) (
    if scrubbable s region && (scrubOf s region).weak.contains (word, 1) && !(region == 8 && hard && wordMarked s word) then
      if flumePath s region word then retireUntested region word s
      else
        let s := flushUnit region (unitOf region word) s
        let s := if borrows s region word then
            let (free, s) := drawFresh s
            s.bumpBy O.borrowWaits (Config.freeValue free).toNat
          else s
        if hard then retestHard region word s else retestPassed region word s
    else s)

/-! ### LPDDR5 (R294, R296, R428) -/

/-- User capacity of a part by its density in Gbit (Table 13-4). -/
def lpddrCapacity (density : Nat) : Option Nat :=
  match density with
  | 8 => some 896
  | 12 => some 1344
  | 16 => some 1792
  | _ => none

/-- LPDDR_TRAINED: the density is read from the part, and the fill begins. -/
def execLpddrTrained (density : Nat) (s : State) : Result :=
  .next (match lpddrCapacity density with
    | some c => if s.power.core && lpddrRuns s && s.val O.lpddrState == 1 then (s.put O.lpddrUserCapacity c).put O.lpddrState 2 else s
    | none => s)

/-- Training fails (R428). -/
def trainingFailed (s : State) : State :=
  if s.power.core && s.val O.lpddrState == 1 then raiseFault 0x0140 0 (s.put O.lpddrState 4) else s

/-- The shadow is ready: the written-through regions are copied in. -/
def shadowFilled (s : State) : State :=
    if s.power.core && s.val O.lpddrState == 2 && !s.flag O.shadowReady then
      let shadow := s.coh.home.filterMap fun e => (shadowOf e.1 e.2).bind fun v => if v = 0 then none else some (e.1, v)
      let cfg (m : Nat) : Nat := m / 2 ^ 117 * 2 ^ 117
      let s := onCoh (fun c => { c with shadow }) s
      let s := { s with results := { s.results with
        verdictShadow := s.results.verdict, flumeShadow := SMap.mapListed 0 (fun _ m => cfg m) s.results.flumeMeters } }
      s.put O.shadowReady 1
    else s

/-- The extended flow table is filled; class C becomes ready (R200, R395). -/
def extFilled (s : State) : State :=
    if s.power.core && s.val O.lpddrState == 2 && s.flag O.shadowReady && !s.flag O.extReady then
      let s := drowseBusy { s with modes := { s.modes with classReady := s.modes.classReady ||| 4 } }
      (s.put O.extReady 1).put O.classCReadyTime (elapsed s / 1000)
    else s

/-- LPDDR_FILL_DONE. -/
def execLpddrFillDone (s : State) : Result :=
  .next (if s.power.core && lpddrRuns s && s.val O.lpddrState == 2 && s.flag O.extReady then s.put O.lpddrState 3 else s)

/-! ### Commit checks (R301) -/

/-- Check 1 for ScrubMode and TopRate. -/
def scrubCheck (s : State) (new : SMap Nat) (k : Nat) : Option Nat :=
  (List.range 18).findSome? fun g =>
    if k = O.scrubMode g ∧ SMap.get 0 new k = 1 ∧ yoyoAllowed g = false then some 0x2B10
    else if k = O.topRate g then
      let rate := objIn s.can.nodeId new k
      if 3600 * rate < regionUnits s g then some 0x2B11 else none
    else none

/-- A region's WeakWordList: its first 16 weak words (R307). -/
def weakList (s : State) (region : Nat) : Bytes :=
  fit 128 (((scrubOf s region).weak.take 16).flatMap fun w => leBytes 4 w.1 ++ leBytes 1 w.2 ++ zeros 3)

/-! ### Repair (R281, Table 13-6) -/

/-- Home repairs the granule of an 8-byte word, as a WrH of its own: a copy that an agent holds M is written back first; a granule still poisoned
takes what a restore would give it (Table 12-10). -/
def repairGranule (word : Nat) (s : State) : State :=
  let line := word / 8
  let i := granuleIndex word
  let s := writeTurn homeUser line s
  if !wordPoisoned s word then s
  else
    let restored : State := onCoh (fun c => { c with home := [(4 * line, restoredGranule s (4 * line)), (4 * line + 1, restoredGranule s (4 * line + 1)),
      (4 * line + 2, restoredGranule s (4 * line + 2)), (4 * line + 3, restoredGranule s (4 * line + 3))] }) s
    let v := homeGranule restored line i
    let s := if 0x28000 ≤ line ∧ line < 0x2C000 then storeFresh 0 (4 * line + i - 0xA0000) v s else storeGranule line i v s
    let s := if 0x10000 ≤ line ∧ line < 0x20000 then s.put O.counterLoss 1 else s
    s.bump O.poisonRepairs

/-- The words that a store's repair names: of the Reservoir, records, Flume meters, Furrow, TCAM slots, and places of the bucket tables. -/
def repairCount (store : Nat) : Nat :=
  match store with
  | 0 => 2 ^ 21
  | 3 => 524288
  | 4 => 32768
  | 5 => 2 ^ 21
  | _ => 16384

/-- A record or a Flume meter is rewritten from its table shadow, a meter with full buckets. -/
def repairShadowed (store i : Nat) (s : State) : State :=
  if !SMap.get false s.results.bad ((if store = 1 then 2 ^ 20 else 2 ^ 21) + i) then s
  else if store = 1 then
    { s with results := { s.results with
        bad := SMap.erase s.results.bad (2 ^ 20 + i)
        verdict := SMap.set 0 s.results.verdict i (SMap.get 0 s.results.verdictShadow i) } }
  else
    let m := SMap.get 0 s.results.flumeShadow i
    { s with results := { s.results with
        bad := SMap.erase s.results.bad (2 ^ 21 + i)
        flumeMeters := SMap.set 0 s.results.flumeMeters i (freshMeter s (meterProfileId m) (meterValid m)) } }

/-- POISON_REPAIR: what was found uncorrectable is restored from its source: by home a poisoned granule, named by its 8-byte word (R281); by a
Marionette a record or a Flume meter from its table shadow, a Furrow node from its prefix list once no search marks its table (R174), a lost TCAM
entry that found no place as its word was relocated, at its group, a bucket entry
from its bundle or not at all (Table 13-6). The sources lie in LPDDR5, whose crossings hold while K5 is lost (R16). -/
def execPoisonRepair (store granule : Nat) (s : State) : Result :=
  onUnit (store < 6 && granule < repairCount store) (
    if !s.power.core || !s.flag O.shadowReady || !lpddrRuns s then s
    else match store with
      | 0 => if !domainRuns s || s.obj O.poisonRepair == 0 || !wordPoisoned s granule then s else repairGranule granule s
      | 3 => if (SMap.find? s.furrow.bad granule).isSome && !wordMarked s granule then rebuildWord granule s else s
      | 4 => reinsert granule s
      | 5 => repairPlace granule s
      | _ => repairShadowed store granule s)

end Sys2Proof.Machine
end

