-- ==== Sys2Proof/Machine/Tamper.lean ====
section
/-! DEFINITION. Tin Soldier's sources, response and latched causes, and Jack's opening (R335–R350). -/

namespace Sys2Proof.Machine

/-! ### Arming (R335, Table 15-1) -/

/-- A source is armed, by the battery island's copy of the arming objects; the core voltage detectors only while PWR_GOOD. -/
def armed (s : State) (source : Nat) : Bool :=
  if source < 4 then bit s.tamper.enable source
  else if source < 6 then bit s.tamper.mesh (source - 4)
  else if source < 8 then bit s.tamper.env 0
  else if source < 10 then bit s.tamper.env 1
  else if source < 12 then bit s.tamper.env 2
  else bit s.tamper.env 3 && s.power.core

/-- Some armed source is in alarm now. -/
def alarmNow (s : State) : Bool := (List.range 13).any fun i => bit s.tamper.active i && armed s i

/-- The battery island takes a copy of the live arming values (R336). DESIGN CHOICE: a source that is in alarm already as it is armed declares no
alarm by that (R337). -/
def takeArming (s : State) : State :=
  { s with tamper := { s.tamper with
    enable := s.obj O.tampEnable, polarity := s.obj O.tampPolarity, debounce := s.obj O.tampDebounce,
    mesh := s.obj O.meshEnable, env := s.obj O.envEnable, wake := s.obj O.wakeOnTamper != 0 } }

/-! ### The mesh driver (R335) -/

/-- The driver's LFSR is seeded from the battery island's entropy cell: at a start, and on entry to Battery or Sleep. -/
def seedMesh (s : State) : State :=
  let (n, s) := drawFresh s
  { s with tamper := { s.tamper with meshSeed := (Config.freeValue n).toNat % 2 ^ 31, meshAt := s.clock.wall } }

/-- The bit on MESHn_OUT: the next one of the sequence with each period of the crystal. -/
def meshOut (s : State) : Bool := Config.meshBit s.tamper.meshSeed ((s.clock.wall - s.tamper.meshAt) * 32768 / 1000000000)

/-! ### Zeroization (Table 15-2) -/

/-- Steps 2 and 3: the key-slot arbiter closes, the vault and the key slots are cleared. -/
def zeroizeStores (s : State) : State :=
  { s with keys := { s.keys with closed := true, vault := Vault.zero, slots := [], lost := [] } }

/-- Step 4: the root and every key derived from it are cleared; RootState 2. -/
def disposeRoot (s : State) : State := { s with keys := { s.keys with root := 2, rootUp := false } }

/-- Journal the latched causes not yet numbered: the mask and the RTC time of the first (Table 14-14). -/
def journalTamper (s : State) : State :=
  if (s.tamper.cause &&& s.tamper.numbered) = s.tamper.cause then s
  else
    let s := journal 0x0020 (beBytes 2 s.tamper.cause ++ beBytes 8 s.tamper.rtcTime) s
    { s with tamper := { s.tamper with numbered := s.tamper.cause } }

/-- Step 1: the cause bit is latched, with the first cause and its RTC time. -/
def latchCause (source : Nat) (s : State) : State :=
  let t := s.tamper
  { s with tamper := { t with
    cause := t.cause ||| 2 ^ source
    active := t.active ||| 2 ^ source
    first := if t.cause = 0 then source else t.first
    rtcTime := if t.cause = 0 then rtcNow s else t.rtcTime } }

/-- The response with the core powered: keys destroyed, Locked entered after Drowse ends, TAMPER raised and numbered. A wake by WakeOnTamper is not
lost to a Sleep entry in progress: it is latched, and PWR_HOLD is asserted again after the entry (R340). -/
def respondPowered (s : State) : State :=
  let s := disposeRoot (zeroizeStores (s.bump O.tamperEvents))
  let s := { s with
    keys := { s.keys with barred := true }
    power := { s.power with tamperWake := s.power.tamperWake || (s.tamper.wake && s.sluice.entry != 0) }
    tamper := { s.tamper with early := s.tamper.early || !s.modes.fillEnded, alarmAt := s.clock.wall + 1 } }
  let s := setLocked (s.modes.locked ||| 1) (drowseTrigger s)
  journalTamper (raiseFault 0x0151 s.tamper.cause s)

/-- The response in Battery and Sleep: the vault is cleared on VBAT; in Sleep with WakeOnTamper, PWR_HOLD is asked for (R340). -/
def respondUnpowered (s : State) : State :=
  let s := { s with keys := { s.keys with vault := Vault.zero, slots := [], lost := [] } }
  if s.power.vaux && s.tamper.wake && s.modes.mode == 0x08 then
    assertPwrHold { s with power := { s.power with tamperWake := true } }
  else s

/-- TAMPER_ALARM: the filter of a source shows its alarm condition; an armed source declares an alarm (R337, R338). -/
def execTamperAlarm (source : Nat) (s : State) : Result :=
  onUnit (source < 13) (
    if armed s source then
      let s := latchCause source s
      if s.power.core then respondPowered s else respondUnpowered s
    else { s with tamper := { s.tamper with active := s.tamper.active ||| 2 ^ source } })

/-- TAMPER_SOURCE_CLEARED: the source leaves alarm (R337). -/
def execTamperSourceCleared (source : Nat) (s : State) : Result :=
  onUnit (source < 13) (
    { s with tamper := { s.tamper with active := if bit s.tamper.active source then s.tamper.active - 2 ^ source else s.tamper.active } })

/-- A TamperClear write may act: every latched bit's record is numbered, and no latched source is in alarm (R342). -/
def tamperClearable (s : State) : Bool :=
  (s.tamper.cause &&& s.tamper.numbered) == s.tamper.cause && !(s.tally.waiting.any fun w => w.1 == 0x0020) &&
    (s.tamper.cause &&& s.tamper.active) == 0

/-- TamperClear: the latched causes are cleared; Locked stays (R342). -/
def tamperClear (s : State) : Option (Nat × Nat) × State :=
  if tamperClearable s then
    (none, clearFault 0x0151 { s with tamper := { s.tamper with cause := 0, first := 0xFF, rtcTime := 0, numbered := 0 } })
  else (some (0x08000022, 0x2D01), s)

/-! ### Jack (R345–R348) -/

/-- A new challenge nonce. -/
def drawNonce (s : State) : State :=
  let (n, s) := drbg16 s
  { s with jack := { s.jack with nonce := n, drawn := s.clock.wall } }

/-- JACK_NONCE_REDRAW: 60 s after the nonce was drawn, once the device has started (R345). -/
def execJackNonceRedraw (s : State) : Result :=
  .next (if s.power.core && s.modes.rootDone && s.jack.drawn + 60000000000 ≤ s.clock.wall then drawNonce s else s)

/-- The signer of a JackResponse may open Jack: the Nymmecy root, or the authority of a commissioned device (R345). -/
def jackSigner (b : Bytes) (s : State) : Bool :=
  let key := slice b 4 64
  match u8 b 0 with
  | 1 => key == beBytes 64 Config.nymmecyRootKey.toNat
  | 2 => match authorityHash? s with
    | some h => sha256 key == h
    | none => false
  | _ => false

/-- The response verifies against the present nonce (R345); the write brings no nonce, so it is the present one that is signed. -/
def jackAuth (b : Bytes) (s : State) : Bool :=
  jackSigner b s && ecdsaVerify (slice b 4 64) (ascii "KY88 JACK" ++ uidBytes ++ fit 16 s.jack.nonce ++ beBytes 1 (epochNow s)) (slice b 68 64)

/-- Steps 3 to 6 of Table 15-6: zeroize, dispose of the root, burn the next epoch fuse, open. -/
def jackBurn (fuseOk : Bool) (s : State) : State :=
  let s := setLocked (s.modes.locked ||| 0x10) (zeroizeStores s)
  let s := disposeRoot s
  if fuseOk then
    settleMode 0 { s with keys := { s.keys with fuses := s.keys.fuses + 1 }, jack := { s.jack with opened := true } }
  else
    let n := (s.val O.jackFuseFailures + 1) % 256
    raiseFault 0x0152 n (s.put O.jackFuseFailures n)

/-- Table 15-6: journal and seal, then the rest. A record or seal that does not reach flash leaves Jack closed before anything is cleared. DESIGN
CHOICE: the write is answered as accepted then too, since R345 names no code for a failure after the signature. -/
def jackOpen (b : Bytes) (fuseOk : Bool) (s : State) : State :=
  let s := journal 0x0021 (beBytes 1 (u8 b 0) ++ beBytes 1 (epochNow s + 1)) (drowseTrigger s)
  match commitAndSeal s with
  | (true, s) => jackBurn fuseOk s
  | (false, s) => s

/-- A JackResponse write past the checks of mode and channel (R345, R346). -/
def jackResponse (b : Bytes) (fuseOk : Bool) (s : State) : Option (Nat × Nat) × State :=
  if 16 ≤ epochNow s then (some (0x08000022, 0x2D04), s)
  else if jackAuth b s then (none, jackOpen b fuseOk s)
  else (some (0x08000020, 0x2D03), s)

/-- JackState (Table 15-3). -/
def jackState (s : State) : Nat := if s.jack.opened then 1 else if 16 ≤ epochNow s then 2 else 0

end Sys2Proof.Machine
end

