-- ==== Sys2Proof/Machine/Dictionary.lean ====
section
/-! DEFINITION. The values of the object dictionary's objects, their ranges, and the configuration digests (R20–R23, R42, R369). -/

namespace Sys2Proof.Machine

/-- The status and counter objects of Sluice, kept in the always-on island (Table 16-6). -/
def sluiceStatus (s : State) (idx sub : Nat) : Option Nat :=
  let pns := (List.range 64)
  if idx = 0x3E00 then match sub with
    | 1 => some (pns.foldl (fun m p => if 2 ≤ (pnOf s p).state then m ||| 2 ^ p else m) 0)
    | 2 => some (pns.foldl (fun m p => if (pnOf s p).state = 5 then m ||| 2 ^ p else m) 0)
    | 3 => some (b2n s.sluice.pwrHold)
    | 4 => some (b2n s.sluice.heldConfig)
    | _ => none
  else if idx = 0x3E10 then (if 1 ≤ sub ∧ sub ≤ 64 then some (pnOf s (sub - 1)).state else none)
  else if idx = 0x3E20 then (if 1 ≤ sub ∧ sub ≤ 128 then some (maskOf s (sub - 1)) else none)
  else none

/-- Headgate's occupancy and link objects (Table 4-15). -/
def headgateStatus (s : State) (idx sub : Nat) : Option Nat :=
  let slots := s.headgate.slots
  if idx = 0x3200 then match sub with
    | 1 => some (slots.filter fun x => x.id < 64).length
    | 2 => some (slots.filter fun x => 64 ≤ x.id).length
    | 3 => some (slots.filter fun x => slotClass x == 3).length
    | 5 => some ((slots.map (·.units)).sum)
    | _ => none
  else if 0x3210 ≤ idx ∧ idx ≤ 0x3217 then
    let m := idx - 0x3210
    if sub = 1 then some (linkAt s m).state
    else if sub = 12 then some (if linkUp (linkAt s m) then 0 else (slots.filter fun x => x.link == m && x.phase == .done).length)
    else none
  else none

/-- Table occupancy objects (Tables 6-10, 7-9, 8-6, 9-7). -/
def tableStatus (s : State) (idx sub : Nat) : Option Nat :=
  let t := sub - 1
  if idx = 0x3400 then (if sub = 6 then some (popcount 32 s.tcam.powered) else none)
  else if idx = 0x3410 then some (quarterFree s t)
  else if 0x3420 ≤ idx ∧ idx ≤ 0x3423 then
    let q := idx - 0x3420
    some (SMap.get 0 s.tcam.regions (32 * q + t) * 65536 + (tcamEntries s q t).length)
  else if idx = 0x3500 then (if sub = 1 then some (wordsInUse s) else none)
  else if idx = 0x3510 then some (tableWords s t)
  else if idx = 0x3520 then some (triePrefixes s.furrow.prefixes t).length
  else if idx = 0x3530 then some (tableNodes s t)
  else if idx = 0x3540 then some (stageWords s t)
  else if idx = 0x3600 then (if sub = 2 then some (overflowInUse s) else none)
  else if idx = 0x3610 then some (tableEntries t s).length
  else if idx = 0x3620 then some (overflowOf t s)
  else if idx = 0x3710 then some (learnedOf t s)
  else if idx = 0x3720 then some (tickNow s t)
  else none

/-- Coherence and key objects (Tables 12-10, 14-16). -/
def keyStatus (s : State) (idx sub : Nat) : Option Nat :=
  let v := s.keys.vault
  let slots (n : Nat) : Nat := SMap.count (fun _ k => k.state == n) s.keys.slots
  if idx = 0x3A00 then
    (if sub = 8 then (let m := (newestCopy s).marker; some (if m = 0 then 0 else (s.clock.wall + 1 - m) / 1000000 % 2 ^ 32)) else none)
  else if idx = 0x3A20 then some (s.coh.dir.filter fun e => sliceOf e.1 == sub - 1).length
  else if idx = 0x2C00 then match sub with
    | 1 => some (epochNow s)
    | 2 => some (b2n (commissioned s))
    | 3 => some v.counter
    | 4 => some v.recovery
    | 5 => some (leNat (fit 16 v.nonce))
    | 6 => some (leNat (fit 32 v.manifestDigest))
    | 7 => some v.manifestSeq
    | 8 => some s.keys.root
    | 9 => some (b2n (s.keys.rootUp && identityPublic == beBytes 64 Config.certificateKey.toNat))
    | _ => none
  else if idx = 0x2C01 then some (if s.keys.rootUp then leNat identityPublic else 0)
  else if idx = 0x2C03 then some (if s.keys.rootUp then leNat (ecPublic agreePrivate) else 0)
  else if idx = 0x3C00 then match sub with
    | 5 => some (SMap.count (fun _ e => e.state == 1) v.entries)
    | 6 => some (slots 1)
    | 7 => some (slots 2)
    | 8 => some (s.tally.next - 1)
    | 9 => some (s.tally.inFlash - 1)
    | 11 => some segmentsTotal
    | 12 => some s.flash.retired
    | 13 => some s.flash.maxErase
    | 14 => some (min 100 (s.flash.maxErase / 1000))
    | _ => none
  else if idx = 0x5000 then (if sub = 1 then some (cursorNow s) else if sub = 2 then some (oldestPresent s) else none)
  else none

/-- Tamper and Jack objects (Table 15-3). -/
def tamperStatus (s : State) (idx sub : Nat) : Option Nat :=
  if idx = 0x2D10 then some (leNat (fit 16 s.jack.nonce))
  else if idx = 0x3D00 then match sub with
    | 1 => some s.tamper.cause
    | 2 => some s.tamper.first
    | 3 => some s.tamper.rtcTime
    | 4 => some s.tamper.active
    | 6 => some (jackState s)
    | 7 => some (epochNow s)
    | 10 => some (rtcNow s)
    | _ => none
  else none

/-- The 84 bytes of ActiveFaults. -/
def activeFaults (s : State) : Bytes := fit 84 (s.modes.active.flatMap fun f => leBytes 2 f.1 ++ leBytes 2 f.2)

/-- Mode, fault, pair and chain objects (Tables 17-10, 18-9, 18-10). -/
def modeStatus (s : State) (idx sub : Nat) : Option Nat :=
  if idx = 0x3040 then match sub with
    | 1 => some s.modes.mode
    | 2 => some s.modes.classReady
    | 3 => some s.modes.startCause
    | 4 => some s.modes.locked
    | 8 => some s.modes.fwSlot
    | 9 => some s.modes.fwStage
    | 10 => some s.modes.quarantine
    | 13 => some s.power.losses
    | _ => none
  else if idx = 0x3050 then match sub with
    | 1 => some (leNat (activeFaults s))
    | 2 => some s.modes.active.length
    | 7 => some (b2n (faultN s))
    | _ => none
  else if idx = 0x3F00 then (if sub = 4 then some s.pair.epoch else if sub = 16 then some s.pair.resyncs.length else none)
  else if idx = 0x3F10 then (if sub = 1 then some s.power.strapChain else if sub = 2 then some s.tcam.members else none)
  else if idx = 0x3B60 then some (leNat (weakList s (sub - 1)))
  else none

/-- Device objects (Tables 2-11, 2-12). CanTec and CanRec, the bus controller's counters of ISO 11898-1, are free values once the port has been
part of bus traffic; a port without a node-ID never is, and they stay 0 (R23). -/
def deviceStatus (s : State) (idx sub : Nat) : Option Nat :=
  if idx = 0x1001 then some (errorRegister s)
  else if idx = 0x1018 then (if sub = 4 then some Config.serialNumber.toNat else none)
  else if idx = 0x2000 then match sub with
    | 1 => some (leNat (fit 32 s.modes.fwBuild))
    | 2 => some s.modes.fwVersion
    | 3 => some (leNat uidBytes)
    | _ => none
  else if idx = 0x2001 then (if sub = 5 then some s.dict.staging.length else none)
  else if idx = 0x2010 then (if sub = 1 then some s.can.nodeSource else if sub = 2 then some s.can.nodeId else none)
  else if idx = 0x3002 ∧ s.can.up = true ∧ s.can.nodeSource ≠ 2 then
    (if sub = 9 then some ((Config.canErrors s.clock.wall).toNat % 256)
     else if sub = 10 then some ((Config.canErrors s.clock.wall).toNat / 256) else none)
  else none

/-- The value of an object that follows from other state. -/
def derived (s : State) (k : Nat) : Option Nat :=
  let idx := k / 256
  let sub := k % 256
  if sub = 0 ∧ (objRow? idx 1).isSome = true then none
  else
    (deviceStatus s idx sub).or ((headgateStatus s idx sub).or ((tableStatus s idx sub).or ((keyStatus s idx sub).or
      ((tamperStatus s idx sub).or ((sluiceStatus s idx sub).or (modeStatus s idx sub))))))

/-- Staged and sealed objects make up the configuration digests (R42). -/
def inConfig (r : ObjRow) : Bool := r.access == .staged || r.access == .stagedSealable || r.access == .sealed

/-- The keys of the configuration objects of one row, ascending. -/
def rowKeys (r : ObjRow) : List Nat :=
  (List.range r.idxN).flatMap fun i => ((List.range r.subN).map fun j => objKey (r.idx + i) (r.sub + j)).filter fun k => k != 0x294001

/-- Put a key and its size in ascending order. -/
def insertKey (k : Nat × Nat) : List (Nat × Nat) → List (Nat × Nat)
  | [] => [k]
  | x :: xs => if k.1 < x.1 then k :: x :: xs else x :: insertKey k xs

/-- Every configuration object's key and size, ascending. -/
def configKeys : List (Nat × Nat) :=
  ((objectTable.filter inConfig).flatMap fun r => (rowKeys r).map fun k => (k, r.size)).foldr insertKey []

/-- A configuration object's value as it reads: Sealed shows in a sealed program (Table 5-2). -/
def shownValue (s : State) (k : Nat) : Nat :=
  if (programOfKey k).isSome && (SMap.find? s.dict.sealedBy k).isSome then s.obj k ||| 2 ^ 14 else s.obj k

/-- One object as the digests take it. -/
def digestItem (s : State) (k : Nat × Nat) : Bytes :=
  leBytes 2 (k.1 / 256) ++ leBytes 1 (k.1 % 256) ++ leBytes 2 k.2 ++ leBytes k.2 (shownValue s k.1)

/-- LiveConfigDigest (R42). -/
def liveConfigDigest (s : State) : Bytes := sha256 (configKeys.flatMap (digestItem s))

/-- Objects that may differ between the devices of a pair (R369). -/
def pairExempt (k : Nat) : Bool :=
  let idx := k / 256
  let sub := k % 256
  (decide (0x1000 ≤ idx) && decide (idx ≤ 0x1FFF)) || idx == 0x2010 || (decide (0x2110 ≤ idx) && decide (idx ≤ 0x2114)) ||
  (decide (0x2210 ≤ idx) && decide (idx ≤ 0x2217) && (sub == 0x0A || sub == 0x0B)) ||
  (decide (0x2B00 ≤ idx) && decide (idx ≤ 0x2BFF)) || (decide (0x2E00 ≤ idx) && decide (idx ≤ 0x2EFF)) ||
  (idx == 0x2F00 && (sub == 1 || sub == 6 || sub == 7 || sub == 9))

/-- PairConfigDigest (R369). -/
def pairConfigDigest (s : State) : Bytes := sha256 ((configKeys.filter fun k => !pairExempt k.1).flatMap (digestItem s))

/-- The bytes that a read of an object returns. -/
def objBytes (s : State) (k : Nat) (r : ObjRow) : Bytes :=
  if k = O.liveConfigDigest then liveConfigDigest s
  else if k = O.identityCertificate then Config.identityCertificate
  else if k = O.window then journalWindow s
  else if k = O.jackMemoryData then s.jack.memory
  else leBytes r.size ((derived s k).getD (shownValue s k))

/-- The size of an object's value, which a response reports; 0 for an absent object. -/
def totalSize (s : State) (k : Nat) : Nat :=
  match objRow? (k / 256) (k % 256) with
  | none => 0
  | some r => if r.kind = .domain then (objBytes s k r).length else r.size

/-! ### Ranges (R21, R423 check 8) -/

/-- The sizes of the memory spaces of Table 15-7. -/
def jackSpaceSize (s : State) (space : Nat) : Nat :=
  match space with
  | 1 => 0x1000000
  | 2 => 0x820000
  | 3 => 0x400000
  | 4 => 0x1A0000
  | 5 => 0x90000
  | 6 => 0x200000
  | 7 => scratchBytes
  | 8 => s.val O.lpddrUserCapacity * 0x100000
  | 9 => 0x800000
  | _ => 0

/-- A TPDO mapping entry names a whole object that may be mapped (R31); 0 is an unused entry. -/
def mappingOk (v : Nat) : Bool :=
  v == 0 || (match objRow? (v / 65536) (v / 256 % 256) with
    | some r => decide (0x3000 ≤ v / 65536) && decide (v / 65536 ≤ 0x4FFF) && r.access == .ro && (r.kind == .int || r.kind == .bool) &&
        v % 256 == 8 * r.size
    | none => false)

/-- The detail of a value outside its object's range. DESIGN CHOICE: a COB-ID whose bit 29 is clear may hold a CAN-ID above 0x7FF; `canSend`
sends its low 11 bits. -/
def rangeDetail (s : State) (k : Nat) (r : ObjRow) (b : Bytes) : Option Nat :=
  let v := leNat b
  if (programOfKey k).isSome then programDetail b
  else if O.meterProfile 0 ≤ k ∧ k / 256 ≤ 0x2847 then (if meterProfileOk b then none else some 0x2801)
  else if (profileOfKey k).isSome then (if authProfileOk b then none else some 0x2901)
  else if O.tpdoMapping 0 0 ≤ k ∧ k / 256 ≤ 0x1A0F ∧ 1 ≤ k % 256 then (if mappingOk v then none else some 0x2006)
  else if O.tableDefinition 0 0 ≤ k ∧ k ≤ O.tableDefinition 3 31 then (if tcamDefOk v then none else some 0x2006)
  else if O.trieDefinition 0 ≤ k ∧ k ≤ O.trieDefinition 15 then (if trieDefOk v then none else some 0x2006)
  else if O.bucketTableDefinition 0 ≤ k ∧ k ≤ O.bucketTableDefinition 63 then (if tableFieldsOk v then none else some 0x2006)
  else if k = O.bankHandover then (if bits v 39 32 ≤ 4 then none else some 0x2006)
  else if O.topRate 0 ≤ k ∧ k ≤ O.topRate 17 then
    (if 1 ≤ v ∧ v ≤ topRateMaxima.getD (k - O.topRate 0) 0 then none else some 0x2006)
  else if k = O.jackMemoryRequest then
    (if 1 ≤ le b 12 4 ∧ le b 12 4 ≤ 4096 ∧ le b 4 8 + le b 12 4 ≤ jackSpaceSize s (u8 b 0) then none else some 0x2D05)
  else if k = O.firmwareStage then
    (if le b 4 4 ≤ 0x800000 ∧ le b 4 4 ≤ imageLimit (le b 0 4) then none else some 0x2041)
  else if 0x2E00 ≤ k / 256 ∧ k / 256 < 0x2F00 ∧ sluiceRangeOk k v = false then some 0x2006
  else if r.range.isEmpty || r.range.any fun i => decide (i.1 ≤ v) && decide (v ≤ i.2) then none
  else some 0x2006

end Sys2Proof.Machine
end

