-- ==== Sys2Proof/Machine/PairCore.lean ====
section
/-! DEFINITION. The pair's states and digests, and the chain's digest, as a commit and the links see them (R367–R370, R385). -/

namespace Sys2Proof.Machine

/-- The pair state of Table 17-2: 0 Unpaired, 1 Pairing, 2 Paired, 3 Solo, 4 Split, 5 Standby. -/
def pairState (s : State) : Nat := s.val O.pairState

/-- The role that this device claims: the one set by Promote, else the strap's (R368). -/
def claimedRole (s : State) : Nat := if s.pair.role ≠ 0 then s.pair.role else if s.power.strapSecondary then 2 else 1

/-- The Culvert link can carry messages. -/
def culvertUp (s : State) : Bool := s.val O.culvertLinkState == 2 || s.val O.culvertLinkState == 3

/-- Send a Culvert message; while the link is enabled and not up it waits for it (R367). -/
def sendCulvert (type : Nat) (body : Bytes) (s : State) : State :=
  if culvertUp s then emit (.culvert type body) s
  else if s.val O.culvertLinkState = 0 then s
  else onPair (fun p => { p with waiting := p.waiting ++ [(type, body)] }) s

/-- The priority of a Culvert message (R367): command, TIME and role messages, then RESULT_DIGEST, then everything else. -/
def culvertRank (type : Nat) : Nat :=
  if type = 0x01 ∨ (0x10 ≤ type ∧ type ≤ 0x14) ∨ type = 0x30 then 0 else if type = 0x20 then 1 else 2

/-- The link has come up: the messages that waited go out in priority order, each kind in the order of its arrival. -/
def sendWaiting (s : State) : State :=
  let ws := [0, 1, 2].flatMap fun n => s.pair.waiting.filter fun w => culvertRank w.1 == n
  ws.foldl (fun s w => emit (.culvert w.1 w.2) s) (onPair (fun p => { p with waiting := [] }) s)

/-- The secondary's reservations for its primary end with the pair. -/
def dropReservations (s : State) : State :=
  onBuckets (fun b => { b with reserved := [] }) (onTcam (fun c => { c with reserved := [] }) (onPair (fun p => { p with held := [], images := [] }) s))

/-- Send a Domino message. -/
def sendDomino (type : Nat) (body : Bytes) (s : State) : State := if s.chain.up then emit (.domino type body) s else s

/-- The pair state changes: vector 20, PAIR_DEGRADED, the mode, and the credits that Standby withholds (R370, Table 18-7). -/
def setPairState (new : Nat) (s : State) : State :=
  let old := pairState s
  if old = new then s
  else
    let s := if old = 2 then
        onPair (fun p => { p with resyncs := [], owed := [], incoming := [], ownResults := [], peerResults := [] }) (s.put O.timeUnsynced 0)
      else s
    let s := onPair (fun p => { p with grace := 0 }) s
    let s := if new = 0 ∧ s.val O.pairRole = 2 then dropReservations s else s
    let s := s.put O.pairState new
    let s := if new = 0 then s.put O.pairRole 0 else if old = 0 then s.put O.pairRole (claimedRole s) else s
    let s := if new = 5 then drowseTrigger s else s
    let s := settleMode (if old = 5 ∨ new = 5 then 0x0142 else 0) s
    let s := if 3 ≤ new then raiseFault 0x0142 new s else if new = 2 ∨ new = 0 then clearFault 0x0142 s else s
    settleGrants (vector 20 s)

/-- The Training blocks of Culvert and Domino begin a new sequence: Fresh is set, and byte 3 carries `code` (R367, R382). -/
def freshTraining (fec : Bool) (code : Nat) : Training := ⟨1, fec, false, 2, true, code, 0xFFF, 0⟩

/-- Culvert trains, unless its reference is lost (R16): with Fresh it begins a new sequence, in which nothing of the old one waits. -/
def trainCulvert (fresh : Bool) (s : State) : State :=
  let s := if fresh then onPair (fun p => { p with waiting := [] }) s else s
  if bit s.modes.refLost 1 then s else emit (.training 8 { freshTraining (s.obj O.culvertFecEnable != 0) 0xC0 with fresh }) s

/-- Culvert is enabled and trains with Fresh set. -/
def enableCulvert (s : State) : State := trainCulvert true (s.put O.culvertLinkState (if bit s.modes.refLost 1 then 4 else 1))

/-- A commit that changes CulvertTxPreset or CulvertFecEnable retrains Culvert where it is up, its sequence kept, and one that changes
DominoTxPreset retrains Domino (R417, Table 17-1). -/
def presetCommit (old : SMap Nat) (s : State) : State :=
  let diff (k : Nat) : Bool := objIn s.can.nodeId old k != s.obj k
  let s := if (diff O.culvertTxPreset || diff O.culvertFecEnable) && culvertUp s then trainCulvert false (s.put O.culvertLinkState 1) else s
  if diff O.dominoTxPreset && s.chain.up then emit (.training 9 (freshTraining false (0xD0 + s.power.strapChain))) s else s

/-- Culvert is disabled. -/
def disableCulvert (s : State) : State := onPair (fun p => { p with waiting := [] }) (s.put O.culvertLinkState 0)

/-- Enter Pairing from Unpaired or Solo, whose link has just been trained with Fresh set. -/
def enterPairing (s : State) : State := setPairState 1 s

/-- Enter Pairing from Split or Standby, over a link that is up: it is trained again with Fresh set (R367). -/
def pairAgain (s : State) : State := enterPairing (enableCulvert s)

/-- A failed pairing: the primary goes to Split and the secondary to Standby, with a PAIR_DISAGREE record. -/
def splitPair (kind : Nat) (s : State) : State :=
  setPairState (if s.val O.pairRole = 2 then 5 else 4) (pairDisagree kind 0 0 s)

/-- ConfigGrace starts, unless it already runs. -/
def startGrace (s : State) : State := if s.pair.grace ≠ 0 then s else onPair (fun p => { p with grace := s.clock.wall + 1 }) s

/-- The own and the peer's PairConfigDigest have been compared anew: what follows in the present pair state (Table 17-2). -/
def compareDigests (s : State) : State :=
  match s.pair.peerDigest with
  | none => s
  | some d =>
    let agree := d == beNat (pairConfigDigest s)
    let st := pairState s
    if st = 2 then (if agree then onPair (fun p => { p with grace := 0 }) s else startGrace s)
    else if (st = 4 ∨ st = 5) ∧ agree = true then pairAgain s
    else s

/-- Send CONFIG_DIGEST (R369). -/
def sendConfigDigest (s : State) : State :=
  if pairState s = 0 then s else sendCulvert 0x02 (zeros 3 ++ beBytes 4 (s.val O.commitCount) ++ pairConfigDigest s) s

/-- What a successful commit does to the pair (Table 17-2, R369); chain members take no part in pairing (R387). -/
def pairCommit (s : State) : State :=
  let id := if s.power.strapChain = 0 then s.val O.pairId else 0
  if id = 0 then (if pairState s = 0 then s else disableCulvert (setPairState 0 s))
  else if pairState s = 0 then sendConfigDigest (enterPairing (enableCulvert s))
  else compareDigests (sendConfigDigest s)

/-! ### The chain's digest (R385) -/

/-- The device belongs to a chain: a member, or a head whose ring has come up. -/
def inChain (s : State) : Bool := s.power.strapChain != 0 || s.chain.up || s.val O.chainState != 0

/-- The definitions with ChainWide set, as the digest takes them. -/
def chainDefinitions (s : State) : List Bytes :=
  (List.range 4).flatMap fun q => (List.range 32).filterMap fun i =>
    let d := tcamDef s.dict.live q i
    if tdDefined d && tdChain d then some (digestItem s (O.tableDefinition q i, 8)) else none

/-- The chain digest: SHA-256 over those definitions and FlumeQ1. -/
def chainDigest (s : State) : Bytes := sha256 ((chainDefinitions s).flatMap id ++ digestItem s (O.flumeQ1, 1))

/-- ChainState changes, with vector 20 and CHAIN_FAULT (Table 18-7). -/
def setChainState (new : Nat) (s : State) : State :=
  if s.val O.chainState = new then s
  else
    let s := vector 20 (s.put O.chainState new)
    if new = 3 ∨ new = 4 then raiseFault 0x0141 new s else if new = 2 then clearFault 0x0141 s else s

/-- Send the own CHAIN_DIGEST onward around the ring. -/
def sendChainDigest (s : State) : State :=
  sendDomino 0x84 (beBytes 1 s.power.strapChain ++ zeros 6 ++ chainDigest s) s

/-- The head compares the digests that have arrived with its own: InconsistentMembers, PAIR_DISAGREE kind 6, and ChainState. -/
def judgeMembers (s : State) : State :=
  let own := beNat (chainDigest s)
  let bad := s.chain.digests.foldl (fun m d => if d.2 = own then m else m ||| 2 ^ d.1) 0
  let fresh := bad &&& (255 - s.val O.inconsistentMembers % 256)
  let s := (bitList 8 fresh).foldl (fun s p => pairDisagree 6 p 0 s) (s.put O.inconsistentMembers bad)
  let st := s.val O.chainState
  if st = 2 ∧ bad ≠ 0 then setChainState 4 s
  else if st = 4 ∧ bad = 0 then setChainState 2 s
  else s

/-- What a successful commit does to the chain: the digest is sent, and the head compares. -/
def chainCommit (s : State) : State :=
  if !inChain s then s
  else
    let s := sendChainDigest s
    if s.power.strapChain = 0 then judgeMembers s else s

end Sys2Proof.Machine
end

