-- ==== Sys2Proof/Machine/Commit.lean ====
section
/-! DEFINITION. Commit: its checks in their order, and what happens at its instant (R39–R42, Table 2-7). -/

namespace Sys2Proof.Machine

/-- A set of new values merged over the live ones. -/
def mergedLive (s : State) (snap : SMap Nat) : SMap Nat :=
  snap.foldl (fun m e => if e.2 = objDefault s.can.nodeId e.1 then SMap.erase m e.1 else SMap.insert m e.1 e.2) s.dict.live

/-! ### The checks of this chapter's own objects -/

/-- The TPDO that an object of 0x1800–0x180F or 0x1A00–0x1A0F belongs to. -/
def mappingTpdo (k : Nat) : Option Nat := if 0x1A00 ≤ k / 256 ∧ k / 256 ≤ 0x1A0F then some (k / 256 - 0x1A00) else none

/-- The size of the object that a mapping entry names. -/
def mappedSize (v : Nat) : Nat := v % 256 / 8

/-- The mapping entries in use of a TPDO. -/
def mappingIn (obj : Nat → Nat) (m : Nat) : List Nat := (List.range (obj (O.tpdoMappingCount m))).map fun i => obj (O.tpdoMapping m i)

/-- A mapping breaks the limits of R31: an unused entry among those in use, or more than 64 bytes. -/
def mappingBad (obj : Nat → Nat) (m : Nat) : Bool :=
  let es := mappingIn obj m
  es.any (fun v => v == 0 || !mappingOk v) || decide (64 < (es.map mappedSize).sum)

/-- The CAN-ID that a COB-ID sends under: bit 29 with 29 bits of it, else 11 bits. -/
def frameId (cob : Nat) : Nat := if bit cob 29 then bits cob 29 0 else bits cob 10 0

/-- The CAN-IDs in use by TPDOs and EMCY, by object, where bit 31 is clear (R40). -/
def cobIds (obj : Nat → Nat) : List (Nat × Nat) :=
  ((O.cobIdEmcy :: (List.range 16).map O.tpdoCobId).filter fun k => !bit (obj k) 31).map fun k => (k, frameId (obj k))

/-- An object's CAN-ID is claimed twice, or is the heartbeat's. -/
def cobConflict (nodeId : Nat) (obj : Nat → Nat) (k : Nat) : Bool :=
  let ids := cobIds obj
  match ids.find? fun e => e.1 == k with
  | some e => (ids.any fun f => f.1 != k && f.2 == e.2) || (e.2 == 0x700 + nodeId && nodeId != 0)
  | none => false

/-- Check 1 of an object whose chapter has no check of its own. -/
def rangeCheck (nodeId : Nat) (new : SMap Nat) (k : Nat) : Option Nat :=
  let obj := objIn nodeId new
  if (k = O.arbitrationBitRate ∨ k = O.dataBitRate) ∧ obj O.dataBitRate < obj O.arbitrationBitRate then some 0x2020
  else if (mappingTpdo k).any (mappingBad obj) then some 0x2020
  else if (k = O.pairId ∨ k = O.culvertBanks) ∧ obj O.pairId ≠ 0 ∧ popcount 32 (obj O.culvertBanks) < 2 then some 0x2F20
  else if sluiceBadObject obj k then some 0x2E10
  else none

/-- The value of a sealable object is sealed: a program, an authentication profile, or a meter profile that a sealed meter uses. -/
def sealedObject (k : Nat) (s : State) : Bool :=
  (SMap.find? s.dict.sealedBy k).isSome ||
    (O.meterProfile 0 ≤ k && k / 256 ≤ 0x2847 && meterProfileSealed ((k / 256 - 0x2840) * 128 + (k % 256 - 1)) s)

/-- ClassAAuth would take MAC engine 0 for the Flume while a search of a shared slot has its operation there (R40, Table 5-16). -/
def engineConflict (s : State) (new : SMap Nat) (k : Nat) : Bool :=
  k == O.classAAuth && SMap.get 0 new k != 0 &&
    s.headgate.slots.any fun x => slotClass x != 1 && x.phase == .mac && (x.mac.map (·.engine)) == some 0

/-- The detail with which snapshot object `k` fails check `n`, and the object that is reported (Table 2-7). -/
def checkObject (n : Nat) (s : State) (new : SMap Nat) (k : Nat) : Option (Nat × Nat) :=
  let here (d : Option Nat) : Option (Nat × Nat) := d.map fun d => (d, k)
  match n with
  | 1 => here ((rangeCheck s.can.nodeId new k).or ((tcamCheck 1 s new k).or ((trieCheck 1 s new k).or ((bucketCheck 1 s new k).or
      ((learnCheck 1 s new k).or ((authCheck 1 new k).or (scrubCheck s new k)))))))
  | 3 => here (if lineConflict (objIn s.can.nodeId new) k then some 0x2022 else none)
  | 5 => here (if bankCheck s new k then some 0x2024 else none)
  | 6 =>
    let own := (tcamCheck 6 s new k).or ((trieCheck 6 s new k).or ((bucketCheck 6 s new k).or ((authCheck 6 new k).or
      (if cobConflict s.can.nodeId (objIn s.can.nodeId new) k || engineConflict s new k then some 0x2025 else none))))
    (here own).or ((creditCheck s.can.nodeId new k).map fun o => (0x2025, o))
  | 7 => here (classACheck s new k)
  | 8 => here (if sealedObject k s && objIn s.can.nodeId new k != s.obj k then some 0x2027 else none)
  | _ => none

/-- The first check that fails, as (check, detail, object). -/
def commitFailure (s : State) (new : SMap Nat) (keys : List Nat) : Option (Nat × Nat × Nat) :=
  [1, 2, 3, 4, 5, 6, 7, 8].findSome? fun n => keys.findSome? fun k => (checkObject n s new k).map fun f => (n, f.1, f.2)

/-- The abort code of a failed check. -/
def checkAbort (n : Nat) : Nat := if n = 1 then 0x06090030 else 0x08000022

/-! ### The commit instant -/

/-- The management port takes up a commit: silenced, brought back, or rejoining under a new bit timing (R28, R38, R50). -/
def canCommit (old : SMap Nat) (s : State) : State :=
  let was (k : Nat) : Nat := objIn s.can.nodeId old k
  let on := s.obj O.canChannelEnable != 0
  let timing := [O.arbitrationBitRate, O.dataBitRate, O.arbitrationSamplePoint, O.dataSamplePoint].any fun k => was k != s.obj k
  if !on then
    let s := { s with can := { s.can with rejoining := false } }
    if s.val O.stagingLock = 2 then s.put O.stagingLock 0 else s
  else if was O.canChannelEnable = 0 then { s with can := { s.can with rejoining := true, bootOnRejoin := true } }
  else if timing then { s with can := { s.can with rejoining := true } }
  else s

/-- Every block takes up new configuration values at one instant; `old` holds the live values before it. -/
def takeConfig (old : SMap Nat) (s : State) : State :=
  let s := freshCommit old (bucketCommit old (tcamCommit old s))
  let s := headgateCommit old (bankCommit old s)
  let s := takeArming (canCommit old s)
  let s := if SMap.filterKeys (fun k => 0x2E0000 ≤ k && k < 0x2F0000) old = SMap.filterKeys (fun k => 0x2E0000 ≤ k && k < 0x2F0000) s.dict.live
    then s else askSluice 0 0 sluiceCommit s
  if s.obj O.drowseEnable = objIn s.can.nodeId old O.drowseEnable then s
  else if s.obj O.drowseEnable = 0 then drowseTrigger s else drowseBusy s

/-- Make the values of a snapshot live, at one instant. -/
def applyConfig (snap : SMap Nat) (s : State) : State :=
  takeConfig s.dict.live { s with dict := { s.dict with live := mergedLive s snap } }

/-- Commit 0x01: the snapshot is validated and made live, or it returns to the staging set (R39, R41). A commit that stages a 0x2E object
makes the held copy Sluice's, even where its value is the same (R363). -/
def commitNow (s : State) : Option (Nat × Nat) × State :=
  let snap := s.dict.staging
  let new := mergedLive s snap
  let old := s.dict.live
  match commitFailure s new (snap.map (·.1)) with
  | some (n, d, k) => (some (checkAbort n, d), (s.put O.commitDetail d).put O.commitConflict k)
  | none =>
    let s := applyConfig snap { s with dict := { s.dict with staging := [] } }
    let s := if snap.any fun e => 0x2E0000 ≤ e.1 && e.1 < 0x2F0000 then askSluice 0 0 sluiceCommit s else s
    let s := ((s.put O.commitDetail 0).put O.commitConflict 0).bump O.commitCount
    (none, chainCommit (pairCommit (presetCommit old s)))

end Sys2Proof.Machine
end

