-- ==== Sys2Proof/Machine/Keys.lean ====
section
/-! DEFINITION. The vault, the working key slots, Brynvon bundles, the manifest and attestation (R311–R326). -/

namespace Sys2Proof.Machine

/-! ### Bundles (Table 14-6) -/

/-- Type of a bundle. -/
def buType (b : Bytes) : Nat := u8 b 5

/-- Epoch of a bundle. -/
def buEpoch (b : Bytes) : Nat := u8 b 6

/-- Counter of a bundle. -/
def buCounter (b : Bytes) : Nat := be b 24 8

/-- SignerKey of a bundle. -/
def buKey (b : Bytes) : Bytes := slice b 40 64

/-- Payload of a bundle. -/
def buPayload (b : Bytes) : Bytes := slice b 104 (be b 32 4)

/-- Scope of a bundle. -/
def buScope (b : Bytes) : Nat := be (buPayload b) 0 2

/-- ItemCount of a bundle. -/
def buCount (b : Bytes) : Nat := be (buPayload b) 2 2

/-- The items of a bundle, behind the payload header. -/
def buItems (b : Bytes) : Bytes := (buPayload b).drop 8

/-- Check 1 of Table 14-8 passes. -/
def bundleFormatOk (b : Bytes) : Bool :=
  decide (176 ≤ b.length) && be b 0 4 == 0x42525956 && u8 b 4 == 1 && u8 b 7 == 0 && be b 36 4 == 0 && b.length == 168 + be b 32 4 &&
  be b 108 4 == 0 && [0x01, 0x02, 0x10, 0x11, 0x12, 0x20, 0x21, 0x30].contains (buType b)

/-- Checks 2 to 5 of Table 14-8: the detail of the first that fails. -/
def bundleOrigin (b : Bytes) (s : State) : Option Nat :=
  let signer := if buType b = 1 then buKey b == beBytes 64 Config.nymmecyRootKey.toNat
    else (match authorityHash? s with
      | some h => sha256 (buKey b) == h
      | none => false)
  if slice b 8 16 ≠ uidBytes then some 0x2C02
  else if buEpoch b ≠ epochNow s then some 0x2C03
  else if !signer then some 0x2C04
  else if !ecdsaVerify (buKey b) (b.take (b.length - 64)) (b.drop (b.length - 64)) then some 0x2C05
  else none

/-- Check 8 of Table 14-8: the mode gate, closed also after an alarm or without the root (R313, R322, Table 15-4). -/
def bundleGate (b : Bytes) (s : State) : Bool :=
  let rec_ := s.keys.vault.recovery == 1
  s.keys.barred || s.jack.opened || !s.keys.rootUp || (rec_ && buType b != 2) || (!commissioned s && buType b != 1) || (commissioned s && buType b == 1)

/-- What applying a payload answers: the new state, the slot writes that apply it, a detail of checks 9 and 10, a wait (for ExtReady, ShadowReady,
a search's mark or other slot writes of its table), or that it needs LPDDR5, whose training failed (R428). -/
inductive Applied where
  | ok (s : State)
  | job (j : ChainJob) (s : State)
  | bad (detail : Nat)
  | wait
  | absent

/-! ### Keys -/

/-- The key-encryption key of a KEY_LOAD bundle (Table 14-2). -/
def bundleKek (b : Bytes) : Bytes :=
  kdf (ecdhX agreePrivate (slice (buItems b) 0 64)) "KY88 BUNDLE KEK" (beBytes 8 (buCounter b) ++ uidBytes) 256

/-- Change the key engine. -/
def onKeys (f : Keys → Keys) (s : State) : State := { s with keys := f s.keys }

/-- A vault entry by handle. -/
def vaultEntry (s : State) (h : Nat) : VaultEntry := SMap.get VaultEntry.empty s.keys.vault.entries h

/-- Write a vault entry. -/
def setEntry (h : Nat) (e : VaultEntry) (s : State) : State :=
  onKeys (fun k => { k with vault := { k.vault with entries := SMap.set VaultEntry.empty k.vault.entries h e }, lost := k.lost.filter (· != h) }) s

/-- Write a key slot. -/
def setKeySlot (n : Nat) (v : KeySlot) (s : State) : State := onKeys (fun k => { k with slots := SMap.set KeySlot.empty k.slots n v }) s

/-- The secret of a live level-1 entry that is not lost. -/
def vaultSecret (s : State) (h : Nat) : Option Bytes :=
  let e := vaultEntry s h
  if e.state = 1 ∧ s.keys.lost.contains h = false ∧ s.keys.rootUp = true then keyUnwrap vaultKey e.wrapped else none

/-- One KEY_LOAD item: checked, and its entry. -/
def loadItem (kek : Bytes) (counter : Nat) (i : Bytes) : Option (Nat × VaultEntry) :=
  let type := u8 i 1
  let usage := u8 i 2
  if u8 i 3 = 0 ∧ ((type = 4 ∧ usage = 4) ∨ (type = 5 ∧ usage = 8)) then
    match keyUnwrap kek (slice i 4 40) with
    | some k => if k.length = 32 then some (u8 i 0, ⟨type, usage, 1, counter, keyWrap vaultKey k⟩) else none
    | none => none
  else none

/-- KEY_LOAD: every entry, or none. -/
def applyKeyLoad (b : Bytes) (s : State) : Applied :=
  let items := chunks 44 (buCount b) ((buItems b).drop 64)
  if buScope b > 255 ∨ (buItems b).length ≠ 64 + 44 * buCount b then .bad 0x2C08
  else match items.mapM (loadItem (bundleKek b) (buCounter b)) with
    | none => .bad 0x2C08
    | some es => .ok (es.foldl (fun s e => setEntry e.1 e.2 s) s)

/-- The bytes of a level-2 key of a type. -/
def keyLength (type : Nat) : Nat := if type = 1 then 16 else 32

/-- One WORKING_KEYS item under its parent: unwrapped or derived, checked, and its slot. -/
def workingItem (s : State) (parent : Nat) (i : Bytes) : Option (Nat × KeySlot) :=
  let type := u8 i 2
  let usage := u8 i 3
  let method := u8 i 4
  let e := vaultEntry s parent
  let n := keyLength type
  if be i 0 2 < 4096 ∧ 1 ≤ type ∧ type ≤ 3 ∧ 1 ≤ usage ∧ usage ≤ 3 ∧ allZero i 5 3 = true then
    match vaultSecret s parent with
    | none => none
    | some secret =>
      if method = 0 ∧ e.type = 4 then
        match keyUnwrap secret (slice i 8 (n + 8)) with
        | some k => if k.length = n ∧ allZero i (16 + n) (32 - n) = true then some (be i 0 2, ⟨1, type, usage, parent, 0, k⟩) else none
        | none => none
      else if method = 1 ∧ e.type = 5 ∧ allZero i 40 8 = true then
        some (be i 0 2, ⟨1, type, usage, parent, 1, kdf secret "KY88 WORKING" (slice i 8 32) (8 * n)⟩)
      else none
  else none

/-- The slots that a WORKING_KEYS bundle names. -/
def workingSlots (b : Bytes) : List Nat := (chunks 48 (buCount b) (buItems b)).map fun i => be i 0 2

/-- WORKING_KEYS: every slot, or none; slots that only the superseded bundle carried become empty. -/
def applyWorking (b : Bytes) (old : Option Bytes) (s : State) : Applied :=
  if buScope b > 255 ∨ (buItems b).length ≠ 48 * buCount b then .bad 0x2C08
  else match (chunks 48 (buCount b) (buItems b)).mapM (workingItem s (buScope b)) with
    | none => .bad 0x2C08
    | some ks =>
      let gone := (match old with | some o => workingSlots o | none => []).filter fun n =>
        !ks.any (fun k => k.1 == n) && (SMap.get KeySlot.empty s.keys.slots n).parent == buScope b
      .ok (ks.foldl (fun s k => setKeySlot k.1 k.2 s) (gone.foldl (fun s n => setKeySlot n KeySlot.empty s) s))

/-- A slot is revoked and its key zeroized (R321). -/
def revokeSlot (n : Nat) (s : State) : State :=
  let k := SMap.get KeySlot.empty s.keys.slots n
  if k.state = 0 then s else setKeySlot n { k with state := 2, key := [] } s

/-- Revoke a level-1 entry and every slot whose parent it is. -/
def revokeEntry (h : Nat) (counter : Nat) (s : State) : State :=
  let e := vaultEntry s h
  let s := if e.state = 0 then s else setEntry h { e with state := 2, counter, wrapped := [] } s
  (s.keys.slots.filter fun k => k.2.parent == h).foldl (fun s k => revokeSlot k.1 s) s

/-- A level-1 item at a start: the slots that the manifest has given the parent so far are revoked again, and its vault entry where no later bundle
loaded it (R323). -/
def revokeAgain (h counter : Nat) (s : State) : State :=
  if (vaultEntry s h).counter < counter then revokeEntry h counter s
  else (s.keys.slots.filter fun k => k.2.parent == h).foldl (fun s k => revokeSlot k.1 s) s

/-- KEY_REVOKE: the marks are set at once, and operations granted before them run on with their copies of the keys: the bundle goes on once the last
of those has finished (R321). -/
def applyRevoke (start : Bool) (b : Bytes) (s : State) : Applied :=
  let items := chunks 4 (buCount b) (buItems b)
  let ok (i : Bytes) : Bool := u8 i 1 == 0 && ((u8 i 0 == 1 && decide (be i 2 2 < 256)) || (u8 i 0 == 2 && decide (be i 2 2 < 4096)))
  if buScope b ≠ 0 ∨ (buItems b).length ≠ 4 * buCount b ∨ items.all ok = false then .bad 0x2C08
  else
    let one (s : State) (i : Bytes) : State :=
      if u8 i 0 = 2 then revokeSlot (be i 2 2) s
      else if start then revokeAgain (be i 2 2) (buCounter b) s
      else revokeEntry (be i 2 2) (buCounter b) s
    let t := items.foldl one s
    let marked := (s.keys.slots.filter fun k => k.2.state == 1 && (SMap.get KeySlot.empty t.keys.slots k.1).state == 2).map (·.2.key)
    if fenceHeld marked t then .job { ChainJob.none with fence := marked } t else .ok t

/-! ### Sealed tables and configuration -/

/-- The image of a SEALED_TABLE bundle. -/
def sealedImage (b : Bytes) : Bytes := (buItems b).drop 8

/-- SEALED_TABLE: the sealed contents of its scope become those of its image (R318, R319), at the slices behind what waits there (R190). -/
def applyTable (b : Bytes) (old : Option Bytes) (s : State) : Applied :=
  let kind := u8 (buItems b) 0
  let t := buScope b % 256
  let img := sealedImage b
  let room (r : Nat ⊕ State) : Applied := match r with
    | .inr s => .ok s
    | .inl n => .bad (if n = 1 then 0x2C08 else 0x2C09)
  let sound (r : Option State) : Applied := match r with
    | some s => .ok s
    | none => .bad 0x2C08
  if (buItems b).length < 8 ∨ buScope b / 256 ≠ kind ∨ allZero (buItems b) 1 7 = false then .bad 0x2C08
  else match kind with
    | 1 =>
      let here := (List.range 4).filterMap fun q => (tcamTable s.dict.live q t).map fun i => (q, i)
      if here.any fun x => tableBusy s x.1 x.2 then .wait
      else (match sealTcam t img s with
        | .inr (j, s) => .job j s
        | .inl n => .bad (if n = 1 then 0x2C08 else 0x2C09))
    | 3 => if tableMarked s (0x3000 + t) then .wait else room (sealBuckets false t img (drainOps (fun _ => true) s))
    | 4 =>
      if s.val O.lpddrState = 4 then .absent
      else if s.val O.extReady = 0 ∨ bit s.modes.refLost 4 = true ∨ tableMarked s (0x3000 + t) = true then .wait
      else room (sealBuckets true t img (drainOps (fun _ => true) s))
    | 5 =>
      if s.modes.fillEnded = true ∧ t = 0 ∧ s.val O.shadowReady = 0 ∧ s.val O.lpddrState ≠ 4 then .wait
      else sound (sealRecords t img s)
    | 6 => sound (sealMeters t img (match old with | some o => sealedImage o | none => []) s)
    | _ => .bad 0x2C08

/-- The items of a SEALED_CONFIG payload as (key, value bytes); none where one runs beyond its end or has a reserved byte set. -/
def configItems : Nat → Bytes → Option (List (Nat × Bytes))
  | 0, bs => if bs.isEmpty then some [] else none
  | n + 1, bs =>
    let len := be bs 3 2
    let size := 8 + ceil8 len
    if bs.length < size ∨ allZero bs 5 3 = false then none
    else (configItems n (bs.drop size)).map fun r => (objKey (be bs 0 2) (u8 bs 2), slice bs 8 len) :: r

/-- A sealed item names a configuration object, with a value of its size and range. -/
def sealedItemOk (s : State) (i : Nat × Bytes) : Bool :=
  match objRow? (i.1 / 256) (i.1 % 256) with
  | none => false
  | some r => inConfig r && i.2.length == r.size && (rangeDetail s i.1 r i.2).isNone

/-- SEALED_CONFIG: the set replaces the earlier set of its number, past the commit checks of R40. -/
def applyConfigSet (b : Bytes) (s : State) : Applied :=
  match configItems (buCount b) (buItems b) with
  | none => .bad 0x2C08
  | some items =>
    if buScope b > 15 ∨ items.all (sealedItemOk s) = false then .bad 0x2C08
    else
      let gone := s.dict.sealedBy.filter fun e => e.2 == buScope b
      let snap : SMap Nat := (gone.map fun e => (e.1, objDefault s.can.nodeId e.1)) ++ items.map fun i => (i.1, leNat i.2)
      let free := { s with dict := { s.dict with sealedBy := s.dict.sealedBy.filter fun e => e.2 != buScope b } }
      let keys := ((items.map fun i => (i.1, 0)).foldr insertKey []).map (·.1)
      match commitFailure free (mergedLive free snap) keys with
      | some (_, d, _) => .bad d
      | none =>
        let s := applyConfig snap free
        let s := { s with dict := { s.dict with sealedBy := items.foldl (fun m i => SMap.insert m i.1 (buScope b)) s.dict.sealedBy } }
        .ok ((snap.filterMap fun e => profileOfKey e.1).foldl (fun s p => sealFresh p s) s)

/-- FRESHNESS_SET: counters of one defined profile take their values (R258). -/
def applyFreshness (b : Bytes) (s : State) : Applied :=
  let p := authProfileIn s.dict.live (buScope b)
  let items := chunks 16 (buCount b) (buItems b)
  let ok (i : Bytes) : Bool := u8 i 1 == 0 && allZero i 4 4 && u8 i 0 == apStore p && inRange p (u8 i 0) (be i 2 2) && decide (be i 8 8 < 2 ^ apN p)
  if buScope b = 0 ∨ buScope b > 255 ∨ apDefined p = false ∨ (buItems b).length ≠ 16 * buCount b ∨ items.all ok = false then .bad 0x2C08
  else .ok (items.foldl (fun s i =>
    setFresh (apStore p) (be i 2 2) (fun c => mkCounter (be i 8 8) true false (bit c 61) 0 0 (fcWindow c)) s) s)

/-- COMMISSION: AuthorityKeyHash of the current epoch is programmed, and a fresh vault header written (R313, R348). -/
def applyCommission (b : Bytes) (s : State) : Applied :=
  if buScope b ≠ 0 ∨ buCount b ≠ 1 ∨ (buItems b).length ≠ 32 ∨ 16 ≤ epochNow s then .bad 0x2C08
  else
    let s := onKeys (fun k => { k with hashes := k.hashes ++ [(epochNow s, buItems b)] }) s
    .ok (onVault (fun v => { v with magic := 0x5641554C, epoch := epochNow s, recovery := 0, nonce := [] }) s)

/-- RECOVER: the present nonce ends RecoveryRequired (R322). -/
def applyRecover (b : Bytes) (s : State) : Applied :=
  if buScope b ≠ 0 ∨ buCount b ≠ 1 ∨ (buItems b).length ≠ 24 ∨ s.keys.vault.recovery ≠ 1 ∨ slice (buItems b) 0 16 ≠ fit 16 s.keys.vault.nonce then
    .bad 0x2C08
  else .ok (onVault (fun v => { v with recovery := 0, nonce := [] }) s)

/-! ### The manifest (R323) -/

/-- The manifest's bytes before its signature. -/
def manifestBody (seq epoch : Nat) (es : List ManifestEntry) : Bytes :=
  beBytes 8 seq ++ beBytes 1 epoch ++ es.flatMap fun e => beBytes 1 e.type ++ beBytes 2 e.scope ++ beBytes 8 e.counter ++ beBytes 4 e.addr ++ fit 32 e.digest ++ zeros 1

/-- A manifest's bytes. -/
def Manifest.bytes (m : Manifest) : Bytes := manifestBody m.seq m.epoch m.entries ++ m.signature

/-- The live manifest: the one that the vault names, else the newest. -/
def liveManifest (s : State) : Option Manifest :=
  match s.flash.manifests.find? fun m => sha256 m.bytes == s.keys.vault.manifestDigest with
  | some m => some m
  | none => s.flash.manifests.head?

/-- Its entries. -/
def manifestEntries (s : State) : List ManifestEntry := match liveManifest s with | some m => m.entries | none => []

/-- A stored bundle by its flash address. -/
def storedAt (s : State) (addr : Nat) : Option Bytes := (s.flash.store.find? fun e => e.1 == addr).map (·.2)

/-- The stored bundle that a bundle of a type and scope supersedes. -/
def supersededBy (type scope : Nat) (s : State) : Option Bytes :=
  ((manifestEntries s).find? fun e => e.type == type && e.scope == scope).bind fun e => storedAt s e.addr

/-- Bytes that bundles take in the bundle store, whole words each. -/
def storeBytes (bs : List Bytes) : Nat := (bs.map fun b => ceil8 b.length).sum

/-- The bundle store packed from its first address on. -/
def packStore : Nat → List (ManifestEntry × Bytes) → List (ManifestEntry × Bytes)
  | _, [] => []
  | a, (e, b) :: r => ({ e with addr := a }, b) :: packStore (a + ceil8 b.length) r

/-- The manifest's entries with their bundles after a bundle is added: the one that it supersedes leaves. -/
def manifestWith (b : Bytes) (s : State) : List (ManifestEntry × Bytes) :=
  let kept := ((manifestEntries s).filter fun e => !(e.type == buType b && e.scope == buScope b)).filterMap fun e => (storedAt s e.addr).map fun x => (e, x)
  packStore 0x01020000 (kept ++ [(⟨buType b, buScope b, buCounter b, 0, sha256 b⟩, b)])

/-- Check 10: the flash and the manifest have room. -/
def manifestFits (b : Bytes) (s : State) : Bool :=
  let es := manifestWith b s
  decide (es.length ≤ 1024) && decide (storeBytes (es.map (·.2)) ≤ 16256 * 1024)

/-- Steps 2 and 3 of R318: the bundle stored, a new manifest written, the vault committed. -/
def storeBundle (b : Bytes) (counter : Nat) (s : State) : State :=
  let es := manifestWith b s
  let seq := s.keys.vault.manifestSeq + 1
  let body := manifestBody seq (epochNow s) (es.map (·.1))
  let (sig, s) := sign body s
  let m : Manifest := ⟨seq, epochNow s, es.map (·.1), sig⟩
  let s := { s with flash := { s.flash with manifests := (m :: s.flash.manifests).take 2, store := es.map fun e => (e.1.addr, e.2) } }
  onVault (fun v => { v with counter, manifestSeq := seq, manifestDigest := sha256 m.bytes }) s

/-! ### Acceptance (R317, R318) -/

/-- Step 1 of R318, and checks 9 and 10. -/
def applyPayload (start : Bool) (b : Bytes) (s : State) : Applied :=
  let old := if start then none else supersededBy (buType b) (buScope b) s
  match buType b with
  | 0x01 => applyCommission b s
  | 0x02 => applyRecover b s
  | 0x10 => applyKeyLoad b s
  | 0x11 => applyWorking b old s
  | 0x12 => applyRevoke start b s
  | 0x20 => applyTable b old s
  | 0x21 => applyConfigSet b s
  | _ => applyFreshness b s

/-- The Receipt of Table 14-9. -/
def receiptOf (b : Bytes) (tally time : Nat) (s : State) : Bytes × State :=
  let body := beBytes 4 0x42524350 ++ beBytes 1 1 ++ beBytes 1 (buType b) ++ beBytes 1 (buEpoch b) ++ zeros 1 ++ uidBytes ++ sha256 b ++
    beBytes 8 (buCounter b) ++ beBytes 8 tally ++ beBytes 8 time ++ fit 32 s.keys.vault.manifestDigest ++ zeros 4
  let (sig, s) := sign body s
  (body ++ sig, s)

/-- What a submitted bundle meets: rejected with a detail, delivered before with its Receipt, accepted with its Receipt, slot writes that must end
first, a wait, or MODE where it needs an LPDDR5 that failed. -/
inductive BundleEnd where
  | job (j : ChainJob) (s : State)
  | rejected (detail : Nat) (s : State)
  | already (receipt : Bytes) (s : State)
  | accepted (receipt : Bytes) (s : State)
  | wait
  | absent

/-- A key or bundle event: its vector follows the Receipt and the record (R55). -/
def keyEvent (s : State) : State := onKeys (fun k => { k with event := true }) s

/-- A rejected bundle: counted, its detail kept, and journalled. -/
def rejectBundle (b : Bytes) (detail : Nat) (s : State) : BundleEnd :=
  let s := (s.bump O.rejectedBundles).put O.lastBundleDetail detail
  .rejected detail (keyEvent (journal 0x0031 (beBytes 1 (buType b) ++ beBytes 2 detail ++ beBytes 8 (buCounter b)) s))

/-- Steps 2 to 5 of R318, after the payload has been applied. -/
def acceptBundle (b : Bytes) (s : State) : Bytes × State :=
  let counter := if buType b = 2 then max (buCounter b) (be (buItems b) 16 8) else buCounter b
  let s := storeBundle b counter s
  let time := timebase s
  let seq := s.tally.next
  let s := journal 0x0030 (beBytes 1 (buType b) ++ beBytes 2 (buScope b) ++ beBytes 8 (buCounter b) ++ zeros 1 ++ sha256 b) s
  let (receipt, s) := receiptOf b seq time s
  let s := onKeys (fun k => { k with vault := { k.vault with delivered := ((sha256 b, receipt) :: k.vault.delivered).take 8 } }) s
  let s := (s.bump O.bundlesApplied).put O.lastReceipt (leNat receipt)
  let s := if buType b = 2 then setLocked (s.modes.locked &&& 0x13) s else if buType b = 1 then settleMode 0 s else s
  (receipt, keyEvent s)

/-- A sealed bundle's slot writes are under way: it has passed its checks and not reached its commit point. -/
def bundleWaits (s : State) : Bool := (jobsOf s).any fun j => !j.bundle.isEmpty

/-- A bundle that its payload's effect makes accepted. -/
def accepted (b : Bytes) (s : State) : BundleEnd := let (r, s) := acceptBundle b s; .accepted r s

/-- A bundle whose payload is slot writes: accepted once they are made (R318, R386). -/
def sealJob (b : Bytes) (j : ChainJob) (s : State) : BundleEnd :=
  let (j, s) := runJob { j with bundle := b } s
  if j.over then accepted b s else .job j s

/-- The checks of Table 14-8 in order, and the acceptance. -/
def submitBundle (b : Bytes) (s : State) : BundleEnd :=
  if !bundleFormatOk b then rejectBundle b 0x2C01 s
  else match bundleOrigin b s with
    | some d => rejectBundle b d s
    | none =>
      match s.keys.vault.delivered.find? fun d => d.1 == sha256 b with
      | some d => .already d.2 (keyEvent ((s.bump O.alreadyApplied).put O.lastReceipt (leNat d.2)))
      | none =>
        if buCounter b ≤ s.keys.vault.counter then rejectBundle b 0x2C06 s
        else if bundleGate b s then rejectBundle b 0x2C07 s
        else match applyPayload false b s with
          | .bad d => rejectBundle b d s
          | .wait => .wait
          | .absent => .absent
          | .ok s' => if manifestFits b s then accepted b s' else rejectBundle b 0x2C09 s
          | .job j s' => if manifestFits b s then sealJob b j s' else rejectBundle b 0x2C09 s

/-- The Receipt goes into the banks of the descriptor's BankMask, from the image word behind the bundle on (R320). -/
def writeReceipt (d receipt : Bytes) (s : State) : State :=
  let length := le d 16 4
  let ws := (imageWords (le d 12 4) (8 * (cdiv length 8 + 23))).drop (cdiv length 8)
  (ws.zip (chunks 8 23 receipt)).foldl (fun s p => scratchWrite (8 * p.1) p.2 s) s

/-- BUNDLE_SUBMIT on the banks of a ring whose Marionette is `m` (R320). -/
def opBundleSubmit (m : Nat) (d : Bytes) (s : State) : OpRes :=
  let mask := le d 12 4
  let length := le d 16 4
  if allZero d 8 4 = false ∨ allZero d 20 44 = false then .fail 0x14 0x2112 s
  else
    let no := refusedBanks s (1 + m) (bitList 32 mask)
    if !no.isEmpty then .fail 0x16 0x2113 (countRefusals no s)
    else if 1048576 < length ∨ imageLimit mask < length + 184 then .fail 0x14 0x2114 s
    else match readImage s mask (ceil8 length) with
      | none => failUnreadable s
      | some img =>
        let s := contend (3 + m) (bitList 32 mask) true s
        let b := img.take length
        if bundleWaits s then .wait
        else match submitBundle b s with
        | .rejected detail s => .fail 0x1A detail s
        | .already r s => .done 1 (buCounter b % 2 ^ 32) (writeReceipt d r s)
        | .accepted r s => .done 0 (buCounter b % 2 ^ 32) (writeReceipt d r s)
        | .job j s => .chain j (buCounter b % 2 ^ 32) s
        | .wait => .wait
        | .absent => .fail 0x19 0x2B01 s

/-! ### The start (R323–R325) -/

/-- A listed bundle is missing, altered or fails: SEALED_MISSING. -/
def sealedMissing (type scope counter : Nat) (s : State) : State := journal 0x0032 (beBytes 1 type ++ beBytes 2 scope ++ beBytes 8 counter) s

/-- Types that a start applies again; the others act on fuses and the vault, which keep what they did, and are only checked. -/
def startType (type : Nat) : Bool := type == 0x11 || type == 0x12 || type == 0x20 || type == 0x21 || type == 0x30

/-- The payload checks of a type that a start does not apply (R323). What a RECOVER bundle was checked against, the nonce, is gone with its
acceptance; without the root no key can be unwrapped. -/
def startPayloadOk (b : Bytes) (s : State) : Bool :=
  match buType b with
  | 0x01 => buScope b == 0 && buCount b == 1 && (buItems b).length == 32
  | 0x02 => buScope b == 0 && buCount b == 1 && (buItems b).length == 24
  | 0x10 => decide (buScope b ≤ 255) && (buItems b).length == 64 + 44 * buCount b &&
      (!s.keys.rootUp || ((chunks 44 (buCount b) ((buItems b).drop 64)).mapM (loadItem (bundleKek b) (buCounter b))).isSome)
  | _ => true

/-- A sealed bucket table, placed when class B becomes ready. -/
def bucketBundle (b : Bytes) : Bool := buType b == 0x20 && (buScope b / 256 == 3 || buScope b / 256 == 4)

/-- Apply one listed bundle at a start. -/
def startBundle (e : ManifestEntry) (s : State) : State :=
  match storedAt s e.addr with
  | none => sealedMissing e.type e.scope e.counter s
  | some b =>
    if sha256 b ≠ e.digest ∨ bundleFormatOk b = false ∨ (bundleOrigin b s).isSome = true then sealedMissing e.type e.scope e.counter s
    else if !startPayloadOk b s then sealedMissing e.type e.scope e.counter s
    else if !startType e.type then s
    else if bucketBundle b then onKeys (fun k => { k with deferred := k.deferred ++ [e.digest] }) s
    else match applyPayload true b s with
      | .ok s => s
      | .job j s => queueJob { j with gate := none } s
      | _ => sealedMissing e.type e.scope e.counter s

/-- SEALED_UNANCHORED with the ManifestSequence used. -/
def unanchored (seq : Nat) (s : State) : State := journal 0x0033 (beBytes 8 seq) s

/-- The manifest's signature verifies under the identity key. -/
def manifestSigned (m : Manifest) : Bool := ecdsaVerify identityPublic (manifestBody m.seq m.epoch m.entries) m.signature

/-- Without an identity key: the stored bundles of the current epoch that pass checks 2 to 5, the highest Counter of each type and scope. -/
def bestBundles (s : State) : List ManifestEntry :=
  let good := s.flash.store.filter fun e => bundleFormatOk e.2 && (bundleOrigin e.2 s).isNone
  (good.filter fun e => !good.any fun f => buType f.2 == buType e.2 && buScope f.2 == buScope e.2 &&
      decide (buCounter e.2 < buCounter f.2)).map fun e => ⟨buType e.2, buScope e.2, buCounter e.2, e.1, sha256 e.2⟩

/-- The manifest and the sealed bundles are verified and applied (R323–R325). -/
def applyManifest (s : State) : State :=
  let run (es : List ManifestEntry) (s : State) : State := es.foldl (fun s e => startBundle e s) s
  if !s.keys.rootUp then run (bestBundles s) (unanchored 0 s)
  else if s.keys.vault.manifestDigest = [] ∨ s.keys.vault.manifestDigest = zeros 32 then
    match s.flash.manifests.filter manifestSigned with
    | [] => if s.flash.manifests.isEmpty then s else sealedMissing 0xFF 0 0 s
    | m :: ms =>
      let best := ms.foldl (fun a b => if a.seq < b.seq then b else a) m
      let s := onVault (fun v => { v with manifestSeq := max v.manifestSeq best.seq }) s
      run best.entries (unanchored best.seq s)
  else
    match s.flash.manifests.find? fun m => sha256 m.bytes == s.keys.vault.manifestDigest with
    | some m => if manifestSigned m then run m.entries s else sealedMissing 0xFF 0 0 s
    | none => sealedMissing 0xFF 0 0 s

/-- The sealed bucket tables that Fill verified are placed, where the live manifest still lists them; those of extended tables wait for the
extended store (R200). -/
def placeDeferred (s : State) : State :=
  let listed := (if s.keys.rootUp then manifestEntries s else bestBundles s).filter fun e => s.keys.deferred.contains e.digest
  listed.foldl (fun s e =>
    let missing (s : State) : State := sealedMissing e.type e.scope e.counter s
    let placed (s : State) : State := onKeys (fun k => { k with deferred := k.deferred.erase e.digest }) s
    match storedAt s e.addr with
    | none => placed (missing s)
    | some b => match applyTable b none s with
      | .ok s => placed s
      | .bad _ => placed (missing s)
      | _ => s) s

/-! ### Attestation (R326) -/

/-- The key that an AttestRequest names: type, usage, origin and key. -/
def attestKey (level handle : Nat) (s : State) : Option (Nat × Nat × Nat × Bytes) :=
  if level = 1 ∧ handle < 256 then (vaultSecret s handle).map fun k => ((vaultEntry s handle).type, (vaultEntry s handle).usage, 2, k)
  else if level = 2 ∧ handle < 4096 then
    let k := SMap.get KeySlot.empty s.keys.slots handle
    if k.state = 1 ∧ s.keys.lost.contains k.parent = false ∧ s.keys.rootUp = true then some (k.type, k.usage, if k.origin = 1 then 1 else 2, k.key) else none
  else none

/-- AttestRequest: the Attestation Statement of Table 14-12, or NO_KEY; TAMPERED for a request that an alarm meets in progress (R341). DESIGN CHOICE:
that is one of the instant of the alarm, since a request otherwise ends with its write. The request is a dictionary value, its Handle little-endian;
the Statement's fields stand most significant byte first (R4, R21). -/
def attest (b : Bytes) (s : State) : Option (Nat × Nat) × State :=
  match attestKey (u8 b 0) (le b 2 2) s with
  | none => (some (0x08000022, if s.tamper.alarmAt = s.clock.wall + 1 then 0x2D10 else 0x2C10), s)
  | some (type, usage, origin, key) =>
    let body := beBytes 4 0x42415454 ++ beBytes 1 1 ++ beBytes 1 (u8 b 0) ++ beBytes 2 (le b 2 2) ++ beBytes 1 type ++ beBytes 1 usage ++
      beBytes 1 origin ++ beBytes 1 1 ++ uidBytes ++ slice b 4 16 ++ sha256 (ascii "KY88 KEYID" ++ key) ++ beBytes 8 (timebase s) ++
      beBytes 1 (epochNow s) ++ zeros 7
    let (sig, s) := sign body s
    (none, s.put O.attestStatement (leNat (body ++ sig)))

end Sys2Proof.Machine
end

