-- ==== Sys2Proof/Machine/Bulk.lean ====
section
/-! DEFINITION. BULK_LOAD and TABLE_DUMP (R81–R84). -/

namespace Sys2Proof.Machine

/-- TableKind, TableId, BankMask and Length of a descriptor. -/
def blKind (d : Bytes) : Nat := u8 d 8

/-- TableId. -/
def blTable (d : Bytes) : Nat := le d 10 2

/-- BankMask. -/
def blMask (d : Bytes) : Nat := le d 12 4

/-- Length. -/
def blLength (d : Bytes) : Nat := le d 16 4

/-- Checks 1 to 3 of R82, as the status and detail of the first that fails; `m` is the ring's Marionette. -/
def bulkCheck (m : Nat) (d : Bytes) (s : State) : Option (Nat × Nat) :=
  if blKind d = 0 ∨ 6 < blKind d ∨ u8 d 9 ≠ 0 ∨ allZero d 20 44 = false ∨ (blKind d = 1 ∧ bits (blTable d) 15 10 ≠ 0) then some (0x14, 0x2112)
  else if (refusedBanks s (1 + m) (bitList 32 (blMask d))).isEmpty = false then some (0x16, 0x2113)
  else if blLength d % 8 ≠ 0 ∨ imageLimit (blMask d) < blLength d then some (0x14, 0x2114)
  else none

/-- A failed check of R82: each bank not owned counts its refusal. -/
def bulkFail (m : Nat) (d : Bytes) (f : Nat × Nat) (s : State) : OpRes :=
  .fail f.1 f.2 (if f.1 = 0x16 then countRefusals (refusedBanks s (1 + m) (bitList 32 (blMask d))) s else s)

/-- The load of a table's chapter (R83): the image of kind `kind` replaces the table. -/
def loadImage (kind tid : Nat) (img : Bytes) (s : State) : OpRes :=
  match kind with
  | 1 => loadTcam tid img s
  | 2 => loadTrie tid img s
  | 3 => opLoadBuckets false tid img s
  | 4 => opLoadBuckets true tid img s
  | 5 => loadRecords tid img s
  | _ => loadMeters tid img s

/-- The dump image of a table, or what stops the command (R84, R428). -/
def dumpImage (kind tid : Nat) (s : State) : Bytes ⊕ OpRes :=
  let bucket (ext : Bool) : Bytes ⊕ OpRes :=
    let d := tableDef s.dict.live tid
    if 63 < tid ∨ defDefined d = false ∨ defExt d ≠ ext then .inr (.fail 0x14 0x2601 s)
    else match extGate s tid with
      | some r => .inr r
      | none => .inl (dumpBuckets tid s)
  match kind with
  | 1 => (match dumpTcam tid s with
    | .inl b => .inl b
    | .inr f => .inr (.fail f.1 f.2 s))
  | 2 => if 15 < tid ∨ trieDefined (trieDef s.dict.live tid) = false then .inr (.fail 0x14 0x2501 s) else .inl (dumpTrie tid s)
  | 3 => bucket false
  | 4 => bucket true
  | 5 => if 1 < tid then .inr (.fail 0x14 0x2814 s) else .inl (dumpRecords tid s)
  | _ => if 1 < tid then .inr (.fail 0x14 0x2814 s) else .inl (dumpMeters tid s)


/-- The state in which a dump reads its table: the lines of records and meters of the Reservoir have been read at home. -/
def dumpReads (kind tid : Nat) (s : State) : State :=
  if tid ≠ 0 then s
  else match kind with
    | 5 => readLines 0 0x40000 s
    | 6 => readLines 0x80000 0xA0000 s
    | _ => s

/-- What stands before a load's or dump's own checks: a quarantined quarter answers MODE (R158, R424), and a Furrow table waits for the table
shadow (R175, R428). -/
def bulkGate (d : Bytes) (s : State) : Option OpRes :=
  if blKind d = 1 && quarterOut s (bits (blTable d) 9 8) then some (.fail 0x19 0 s)
  else if blKind d = 2 then trieGate s
  else none

/-- The banks of a descriptor's BankMask, as the Marionette of the ring accesses them. -/
def bulkContend (m : Nat) (d : Bytes) (write : Bool) (s : State) : State := contend (3 + m) (bitList 32 (blMask d)) write s

/-- BULK_LOAD on the banks of a ring whose Marionette is `m`. -/
def opBulkLoad (m : Nat) (d : Bytes) (s : State) : OpRes :=
  match bulkGate d s with
  | some r => r
  | none => match bulkCheck m d s with
    | some f => bulkFail m d f s
    | none => match readImage s (blMask d) (blLength d) with
      | none => failUnreadable s
      | some img => loadImage (blKind d) (blTable d) img (bulkContend m d false s)

/-- TABLE_DUMP on the banks of a ring whose Marionette is `m`. -/
def opTableDump (m : Nat) (d : Bytes) (s : State) : OpRes :=
  match bulkGate d s with
  | some r => r
  | none => match bulkCheck m d s with
    | some f => bulkFail m d f s
    | none =>
      let s := dumpReads (blKind d) (blTable d) s
      match dumpImage (blKind d) (blTable d) s with
      | .inr r => r
      | .inl b => if blLength d < b.length then .fail 0x10 0 s else .done 0 b.length (writeImage (blMask d) b (bulkContend m d true s))

end Sys2Proof.Machine
end

