-- ==== Sys2Proof/Machine/RingOps.lean ====
section
/-! DEFINITION. The opcodes of the command rings (Table 3-7), the format of their descriptors, and what each command touches. -/

namespace Sys2Proof.Machine

/-- The opcodes of Table 3-7. -/
def opcodes : List Nat := [0x01, 0x02, 0x03, 0x08, 0x09, 0x10, 0x11, 0x12, 0x18, 0x19, 0x1A, 0x20, 0x30, 0x31, 0x32, 0x38]

/-- OperandLength of an opcode: 0 where it is direct (Table 6-6, Table 8-4). -/
def operandLength (op : Nat) : Nat := if op ≤ 0x03 then 112 else if 0x10 ≤ op ∧ op ≤ 0x12 then 64 else 0

/-- The descriptor keeps Table 3-5 for its opcode. -/
def descriptorOk (d : Bytes) : Bool :=
  bits (u8 d 1) 7 2 == 0 && dsLength d == operandLength (dsOpcode d) && dsIndirect d == (operandLength (dsOpcode d) != 0) &&
  (!dsIndirect d || (allZero d 16 48 && le d 8 8 % 8 == 0))

/-- The opcodes that a paired primary forwards (R371). -/
def forwarded (op : Nat) : Bool := [0x01, 0x02, 0x03, 0x08, 0x09, 0x10, 0x11, 0x12, 0x18, 0x19, 0x20, 0x31].contains op

/-- The effect of an opcode other than FENCE; `m` is the ring's Marionette and `ok` says whether host memory takes the command's data. -/
def ringOp (m : Nat) (ok : Bool) (d block : Bytes) (s : State) : OpRes :=
  match dsOpcode d with
  | 0x01 => opTcamInsert block s
  | 0x02 => opTcamDelete block s
  | 0x03 => opTcamModify block s
  | 0x08 => opTrieAdd d s
  | 0x09 => opTrieDelete d s
  | 0x10 => opBucket false insertBlock block s
  | 0x11 => opBucket true deleteBlock block s
  | 0x12 => opBucket false updateBlock block s
  | 0x18 => opResultWrite d s
  | 0x19 => opMeterConfigure d s
  | 0x1A => opCounterReadClear ok d s
  | 0x20 => opFlush d s
  | 0x31 => opBulkLoad m d s
  | 0x32 => opTableDump m d s
  | _ => opBundleSubmit m d s

/-- The TableKind and TableId of the sealed table that a BUNDLE_SUBMIT names in its banks, or kind 0. -/
def sealedKind (d : Bytes) (s : State) : Nat × Nat :=
  match readImage s (le d 12 4) (ceil8 (le d 16 4)) with
  | some b => if buType b = 0x20 then (buScope b / 256, buScope b % 256) else (0, 0)
  | none => (0, 0)

/-- The command is on a Furrow table or an extended table (R69, R399). -/
def wakesDrowse (d block : Bytes) (s : State) : Bool :=
  let op := dsOpcode d
  let ext (t : Nat) : Bool := defExt (tableDef s.dict.live t)
  op == 0x08 || op == 0x09 || (decide (0x10 ≤ op ∧ op ≤ 0x12) && ext (u8 block 0)) || (op == 0x20 && ext (u8 d 8)) ||
  ((op == 0x31 || op == 0x32) && (blKind d == 2 || blKind d == 4)) || (op == 0x38 && (sealedKind d s).1 == 4)

/-- Furrow and LPDDR5 are down for Drowse, or not yet back (Table 18-5). -/
def asleep (s : State) : Bool := s.modes.drowse == 2 || s.modes.drowse == 3

/-- The RegionId of the table with a TableId in a quarter. -/
def tcamRegion (q t : Nat) (s : State) : List Nat := ((tcamTable s.dict.live q t).map fun i => 0x1000 + 32 * q + i).toList

/-- The RegionIds of what BULK_LOAD or TABLE_DUMP names. -/
def bulkRegions (d : Bytes) (s : State) : List Nat :=
  match blKind d with
  | 1 => tcamRegion (bits (blTable d) 9 8) (bits (blTable d) 7 0) s
  | 2 => [0x2000 + blTable d]
  | 5 => if blTable d = 1 then [0x5000] else (List.range 16).map (0x4000 + ·)
  | 6 => if blTable d = 1 then [0x7000] else (List.range 8).map (0x6000 + ·)
  | _ => [0x3000 + blTable d]

/-- The RegionIds of Table 17-6 that a forwarded command changes. -/
def commandRegions (d block : Bytes) (s : State) : List Nat :=
  let op := dsOpcode d
  if op ≤ 0x03 then tcamRegion (u8 block 0 % 4) (u8 block 1) s
  else if op ≤ 0x09 then [0x2000 + u8 d 8]
  else if op ≤ 0x12 then [0x3000 + u8 block 0]
  else if op = 0x18 then [if u8 d 8 = 1 then 0x5000 else 0x4000 + le d 12 4 / 16384]
  else if op = 0x19 then
    (if u8 d 8 = 1 then [0x7000]
     else (List.range 8).map (0x6000 + ·) |>.filter fun r => decide (0x6000 + le d 12 4 / 16384 ≤ r ∧ r ≤ 0x6000 + (le d 12 4 + le d 16 2 - 1) / 16384))
  else if op = 0x20 then [0x3000 + u8 d 8]
  else if op = 0x31 then bulkRegions d s
  else []

/-! ### One command at a time on a table (R61, R84, R150) -/

/-- Ring `q`'s command is between its vote and its effect. -/
def voting (s : State) (q : Nat) : Bool := match (ringAt s q).waiting with
  | some (.vote _) => true
  | _ => false

/-- Slot writes of a ternary table are under way, named by its RegionId. -/
def regionBusy (s : State) (x : Nat) : Bool := 0x1000 ≤ x && x < 0x1080 && tableBusy s ((x - 0x1000) / 32) ((x - 0x1000) % 32)

/-- The RegionIds of the sealed table that a BUNDLE_SUBMIT names. -/
def bundleRegions (d : Bytes) (s : State) : List Nat :=
  match sealedKind d s with
  | (1, t) => (List.range 4).flatMap fun q => tcamRegion q t s
  | (3, t) => [0x3000 + t]
  | (4, t) => [0x3000 + t]
  | _ => []

/-- A command that is under way changes one of the tables that this command of ring `r` names: its serializer lets this one wait. -/
def serialized (r : Nat) (d block : Bytes) (s : State) : Bool :=
  let mine := if dsOpcode d = 0x32 then bulkRegions d s else if dsOpcode d = 0x38 then bundleRegions d s else commandRegions d block s
  mine.any fun x => regionBusy s x ||
    (List.range 8).any fun q => q != r && voting s q && (commandRegions (ringAt s q).desc (ringAt s q).block s).contains x

/-- A search marks a table that the command changes: its effect write waits (R153, R174, R189). -/
def markHolds (d block : Bytes) (s : State) : Bool := (commandRegions d block s).any (tableMarked s)

/-- A mark holds the whole command: its table is no ternary one, whose moves go on and whose effect write alone waits (R153). -/
def effectHeld (d block : Bytes) (s : State) : Bool := (commandRegions d block s).any fun x => x / 4096 != 1 && tableMarked s x

/-! ### Reservations (R371) -/

/-- The places that a command takes, by its checks and placement: `t` is the state that it would leave, `ws` the slot writes still to go. What
waits at the slices and would go before it takes its places by itself. -/
def newPlaces (s t : State) (ws : List (Nat × Shadow)) : List Nat :=
  let s := if s.buckets.queue = t.buckets.queue then s else drainOps (fun n => (s.buckets.queue.any fun q => q.1 == n) && !t.buckets.queue.any fun q => q.1 == n) s
  let slot (p : Nat) (h : Shadow) : Option Nat := if h.valid && !(shadowAt s p).valid then some (2 ^ 21 + p) else none
  let buckets := (t.buckets.entries.map (·.1)).filter fun p => (SMap.find? s.buckets.entries p).isNone
  buckets ++ t.tcam.slots.filterMap (fun e => slot e.1 e.2.shadow) ++ ws.filterMap fun w => slot w.1 w.2

/-- The slot writes of a chain-wide command that its peer's copy would take places for. -/
def jobWrites (j : ChainJob) : List (Nat × Shadow) := j.acks.filterMap (fun a => a.2.map fun h => (a.1, h)) ++ j.writes

/-- Reserve places for a command in progress. -/
def reserve (places : List Nat) (s : State) : State :=
  let b := places.filter (· < 2 ^ 21)
  let t := (places.filter (2 ^ 21 ≤ ·)).map (· - 2 ^ 21)
  onBuckets (fun x => { x with reserved := b ++ x.reserved }) (onTcam (fun x => { x with reserved := t ++ x.reserved }) s)

/-- Release places. -/
def release (places : List Nat) (s : State) : State :=
  onBuckets (fun x => { x with reserved := x.reserved.filter fun p => !places.contains p })
    (onTcam (fun x => { x with reserved := x.reserved.filter fun p => !places.contains (2 ^ 21 + p) }) s)

/-- The region that a BULK_LOAD of a ternary or bucket table takes, as a space with its base and length. -/
def loadTakes (d : Bytes) (s : State) : Option (Nat × Nat × Nat) :=
  let q := bits (blTable d) 9 8
  match blKind d with
  | 1 => (tcamTable s.dict.live q (bits (blTable d) 7 0)).bind fun i =>
      (secondRegion q i s).map fun b => (q, b, tdSlots (tcamDef s.dict.live q i))
  | 3 => (loadRegion false (blTable d) s).map fun b => (4, b, 2 ^ defLog2 (tableDef s.dict.live (blTable d)))
  | 4 => (loadRegion true (blTable d) s).map fun b => (5, b, 2 ^ defLog2 (tableDef s.dict.live (blTable d)))
  | _ => none

/-- The region that a command reserves. -/
def regionFor (d : Bytes) (s : State) : Option (Nat × Nat × Nat) := if dsOpcode d = 0x31 then loadTakes d s else none

/-- A command held in progress, by PairSeq. -/
def heldAt (s : State) (seq : Nat) : Option Prepared := s.pair.held.find? fun p => p.seq == seq

/-- Hold a command with its reservation. -/
def hold (p : Prepared) (s : State) : State :=
  reserve p.places (onPair (fun x => { x with held := x.held.filter (fun q => q.seq != p.seq) ++ [p] }) s)

/-- The reservation of a command that makes its effect write is released. -/
def freeHeld (p : Prepared) (s : State) : State :=
  release p.places (onPair (fun x => { x with held := x.held.map fun q => if q.seq = p.seq then { q with places := [], region := none } else q }) s)

/-- A held command ends: its reservation is released. -/
def unhold (seq : Nat) (s : State) : State :=
  match heldAt s seq with
  | none => s
  | some p => release p.places (onPair (fun x => { x with held := x.held.filter fun q => q.seq != seq, images := x.images.filter fun i => i.1 != seq }) s)

end Sys2Proof.Machine
end

