-- ==== Sys2Proof/Machine/Rings.lean ====
section
/-! DEFINITION. The command rings: the order of a descriptor's checks, execution, forwarding, fences, halts, and the ring registers
(R56–R70, R371–R374, R424, R425). -/

namespace Sys2Proof.Machine

/-! ### When a ring executes -/

/-- Table-management contexts taken (Table 1-6): by the commands in execution or halted on the rings, and by those that the peer has forwarded. -/
def contextsTaken (s : State) : Nat :=
  (s.host.rings.filter fun g => g.waiting.isSome || g.halted).length + s.pair.held.length + s.pair.chainWrites.length

/-- The rings are paused: Fallback, Halt, the PCIe reference lost, or their Marionette halted through Jack (R69, R16, R347). -/
def ringPaused (s : State) (r : Nat) : Bool :=
  s.val O.domainState != 0 || s.modes.halted || bit s.modes.refLost 3 || bit (s.val O.marionetteHalt) (s.obj (O.ringExecutor r))

/-- The rings are served: the core is powered, firmware runs, and Fill has ended (Table 3-9). -/
def ringsServed (s : State) : Bool := s.power.core && s.modes.ready && s.modes.fillEnded

/-- Ring `r` has a descriptor to execute and may execute it, with a table-management context free (R61). -/
def ringReady (s : State) (r : Nat) : Bool :=
  let g := ringAt s r
  ringsServed s && g.enabled && !g.halted && g.waiting.isNone && g.disabling == 0 && g.producer != g.completion && !ringPaused s r &&
    decide (contextsTaken s < 32)

/-- The command of ring `r` has passed its checks and must wait: it stays in execution. -/
def holdCommand (r : Nat) (dataOk recordOk : Bool) (s : State) : State :=
  onRing r (fun g => { g with waiting := some (.held dataOk recordOk) }) s

/-- Take up a descriptor and its operand block. -/
def setDesc (r : Nat) (d block : Bytes) (s : State) : State := onRing r (fun g => { g with desc := d, block }) s

/-- The command of ring `r` ends with a failure; PEER_FAIL is counted (Table 17-10). -/
def failCommand (r status detail : Nat) (s : State) : State :=
  haltRing r status detail (if status = 0x1B then s.bump O.peerFailures else s)

/-- What an executed operation leaves of its ring; an effect that a mark holds up waits with it. -/
def endOp (r : Nat) (dataOk ok marked : Bool) (res : OpRes) (s : State) : State :=
  match res with
  | .wait => holdCommand r dataOk ok s
  | .fail st d t => failCommand r st d t
  | .done st x t => if marked then holdCommand r dataOk ok s else settleFences 8 (completeCommand r st x ok t)
  | .chain j x t => if marked then holdCommand r dataOk ok s else onRing r (fun g => { g with waiting := some (.chain j x 0) }) t

/-! ### Forwarding (R371) -/

/-- This device is the primary of a pair that is Paired. -/
def primaryPaired (s : State) : Bool := pairState s == 2 && s.val O.pairRole == 1

/-- IMAGE_DATA messages for a bulk load. -/
def sendImage (seq : Nat) : Nat → List Bytes → State → State
  | _, [], s => s
  | off, c :: cs, s => sendImage seq (off + c.length) cs (sendCulvert 0x15 (zeros 3 ++ beBytes 4 off ++ beBytes 8 seq ++ c) s)

/-- The command has passed the primary's checks and placement: it is sent to the secondary, and waits for its vote. -/
def sendPrepare (r : Nat) (places : List Nat) (d block : Bytes) (s : State) : State :=
  let seq := s.pair.seq + 1
  let s := (onPair (fun p => { p with seq }) s).bump O.commandsForwarded
  let s := sendCulvert 0x10 (zeros 7 ++ beBytes 8 seq ++ d ++ block) s
  let s := if dsOpcode d = 0x31 then
      (match readImage s (blMask d) (blLength d) with
        | some img => sendImage seq 0 (chunks 496 (img.length / 496 + 1) img) s
        | none => s)
    else s
  let s := hold ⟨seq, d, block, places, regionFor d s, true, false⟩ s
  onRing r (fun g => { g with waiting := some (.vote seq) }) s

/-- Forward the command of ring `r`; commands on a region that is resyncing wait (R380). -/
def forward (r m : Nat) (dataOk ok : Bool) (d block : Bytes) (s : State) : State :=
  if (commandRegions d block s).any fun x => s.pair.resyncs.contains x then holdCommand r dataOk ok s
  else match ringOp m dataOk d block s with
    | .wait => holdCommand r dataOk ok s
    | .fail st x t => failCommand r st x t
    | .done _ _ u => sendPrepare r (newPlaces s u []) d block s
    | .chain j _ u => sendPrepare r (newPlaces s u (jobWrites j)) d block s

/-! ### Fences (R68) -/

/-- FENCE reaches execution: its counts, and the search slots it waits for. -/
def startFence (r : Nat) (d : Bytes) (s : State) : State :=
  if bits (u8 d 9) 7 1 ≠ 0 ∨ allZero d 10 2 = false ∨ le d 12 4 = 0 ∨ 1000000 < le d 12 4 ∨ allZero d 16 48 = false then failCommand r 0x14 0x2112 s
  else
    let target (i : Nat) : Nat × Nat := if (ringAt s i).enabled then (i, (ringAt s i).producer) else (8, 0)
    let targets := ((bitList 8 (u8 d 8)).filter (· != r)).map target
    let slots := if bit (u8 d 9) 0 then s.headgate.slots.map (·.id) else []
    settleFences 8 (onRing r (fun g => { g with waiting := some (.fence targets slots) }) s)

/-! ### A descriptor reaches execution (R424, R65) -/

/-- The kept record of a repeated command, as this descriptor's completion. -/
def replayed (rec_ : Bytes) (k log2 : Nat) : Bytes :=
  slice rec_ 0 12 ++ leBytes 2 k ++ leBytes 1 (2 + (1 - k / 2 ^ log2 % 2)) ++ zeros 1

/-- Check 5: the mode, then the pair role. -/
def modeCheck (s : State) (op : Nat) : Option (Nat × Nat) :=
  if s.modes.mode = 0x09 ∧ op ≠ 0x30 ∧ op ≠ 0x32 then some (0x19, 0x2117)
  else if pairState s ≠ 0 ∧ s.val O.pairRole = 2 ∧ forwarded op then some (0x19, 0x2F01)
  else none

/-- Check 6 and execution of a command that ring `r` has taken up. -/
def runCommand (r : Nat) (dataOk ok : Bool) (d block : Bytes) (s : State) : State :=
  let m := s.obj (O.ringExecutor r)
  let s := if wakesDrowse d block s then drowseTrigger s else s
  if (wakesDrowse d block s && asleep s) || serialized r d block s then holdCommand r dataOk ok s
  else if dsOpcode d = 0x30 then startFence r d s
  else if primaryPaired s && forwarded (dsOpcode d) then forward r m dataOk ok d block s
  else endOp r dataOk ok (effectHeld d block s) (ringOp m dataOk d block s) s

/-- A command that waits on ring `r` is tried again, unless the ring is paused. A BUNDLE_SUBMIT that an alarm has found waiting, before its commit
point, is TAMPERED (R341). -/
def retryHeld (s : State) (r : Nat) : State :=
  match (ringAt s r).waiting with
  | some (.held dataOk ok) =>
    if ringPaused s r || !ringsServed s then s
    else if s.keys.barred && dsOpcode (ringAt s r).desc == 0x38 then
      failCommand r 0x1A 0x2D10 (keyEvent (onRing r (fun g => { g with waiting := none }) s))
    else runCommand r dataOk (ok && s.host.canSend) (ringAt s r).desc (ringAt s r).block (onRing r (fun g => { g with waiting := none }) s)
  | _ => s

/-- The commands that wait on the rings are tried again. -/
def resumeRings (s : State) : State := (List.range 8).foldl retryHeld s

/-- Checks 4 and 5 on a well-formed descriptor whose operand block is here. -/
def checkedCommand (r : Nat) (f : Fetch) (d block : Bytes) (s : State) : State :=
  let g := ringAt s r
  match g.tags.find? fun t => dsTag d != 0 && t.tag == dsTag d with
  | some t =>
    let s := setDesc r d block s
    if t.digest = contentDigest d block then
      let s := writeCompletion r (replayed t.record (nextNumber g) g.sizeLog2) (dsNotify d) f.compOk (s.bump (O.ringReplays r))
      settleFences 8 s
    else failCommand r 0x15 0x2110 s
  | none => match modeCheck s (dsOpcode d) with
    | some e => failCommand r e.1 e.2 (setDesc r d block s)
    | none => runCommand r f.dataOk f.compOk d block (setDesc r d block s)

/-- The next descriptor of ring `r` is fetched and executed; `want` is the opcode of the command's row, 0xFF where any will do. A
descriptor of another defined opcode belongs to that opcode's row. A command that waits on the ring is tried again instead. -/
def execute (r want : Nat) (f : Fetch) (s : State) : State :=
  if !ringReady s r then retryHeld s r
  else match f.desc with
    | none => failCommand r 0x17 0x2115 (setDesc r [] [] s)
    | some d0 =>
      let d := fit 64 d0
      if !opcodes.contains (dsOpcode d) then failCommand r 0x14 0x2111 (setDesc r d [] s)
      else if want ≠ 0xFF ∧ dsOpcode d ≠ want then s
      else if !descriptorOk d then failCommand r 0x14 0x2112 (setDesc r d [] s)
      else if !dsIndirect d then checkedCommand r f d [] s
      else match f.block with
        | none => failCommand r 0x17 0x2115 (setDesc r d [] s)
        | some b => checkedCommand r f d (fit (dsLength d) b) s

/-- TCAM_INSERT (R149). -/
def execTcamInsert (ring : Nat) (f : Fetch) (s : State) : Result := onUnit (ring < 8) (execute ring 0x01 f s)

/-- TCAM_DELETE (R151). -/
def execTcamDelete (ring : Nat) (f : Fetch) (s : State) : Result := onUnit (ring < 8) (execute ring 0x02 f s)

/-- TCAM_MODIFY_RESULT (R152). -/
def execTcamModifyResult (ring : Nat) (f : Fetch) (s : State) : Result := onUnit (ring < 8) (execute ring 0x03 f s)

/-- TRIE_ADD (R171). -/
def execTrieAdd (ring : Nat) (f : Fetch) (s : State) : Result := onUnit (ring < 8) (execute ring 0x08 f s)

/-- TRIE_DELETE (R171). -/
def execTrieDelete (ring : Nat) (f : Fetch) (s : State) : Result := onUnit (ring < 8) (execute ring 0x09 f s)

/-- BUCKET_INSERT (R193). -/
def execBucketInsert (ring : Nat) (f : Fetch) (s : State) : Result := onUnit (ring < 8) (execute ring 0x10 f s)

/-- BUCKET_DELETE (R193). -/
def execBucketDelete (ring : Nat) (f : Fetch) (s : State) : Result := onUnit (ring < 8) (execute ring 0x11 f s)

/-- BUCKET_UPDATE (R193). -/
def execBucketUpdate (ring : Nat) (f : Fetch) (s : State) : Result := onUnit (ring < 8) (execute ring 0x12 f s)

/-- RESULT_WRITE (R227). -/
def execResultWrite (ring : Nat) (f : Fetch) (s : State) : Result := onUnit (ring < 8) (execute ring 0x18 f s)

/-- METER_CONFIGURE (R233). -/
def execMeterConfigure (ring : Nat) (f : Fetch) (s : State) : Result := onUnit (ring < 8) (execute ring 0x19 f s)

/-- COUNTER_READ_CLEAR (R235). -/
def execCounterReadClear (ring : Nat) (f : Fetch) (s : State) : Result := onUnit (ring < 8) (execute ring 0x1A f s)

/-- FLOW_FLUSH (R194). -/
def execFlowFlush (ring : Nat) (f : Fetch) (s : State) : Result := onUnit (ring < 8) (execute ring 0x20 f s)

/-- FENCE (R68). -/
def execFence (ring : Nat) (f : Fetch) (s : State) : Result := onUnit (ring < 8) (execute ring 0x30 f s)

/-- BULK_LOAD (R82). -/
def execBulkLoad (ring : Nat) (f : Fetch) (s : State) : Result := onUnit (ring < 8) (execute ring 0x31 f s)

/-- TABLE_DUMP (R84). -/
def execTableDump (ring : Nat) (f : Fetch) (s : State) : Result := onUnit (ring < 8) (execute ring 0x32 f s)

/-- BUNDLE_SUBMIT (R320). -/
def execBundleSubmit (ring : Nat) (f : Fetch) (s : State) : Result := onUnit (ring < 8) (execute ring 0x38 f s)

/-- FENCE_TIMEOUT: TimeoutUs expires before the fence is satisfied (R68). -/
def execFenceTimeout (ring : Nat) (s : State) : Result :=
  onUnit (ring < 8) (
    match (ringAt s ring).waiting with
    | some (.fence _ _) => if s.val O.domainState ≠ 0 ∨ s.modes.halted = true ∨ bit s.modes.refLost 3 = true then s else failCommand ring 0x18 0x2116 s
    | _ => s)

/-! ### Ring registers (Table 3-3) -/

/-- Enable is heeded: MailboxStatus.Ready is set and the mode serves the rings (R56, R69). -/
def enableRing (r : Nat) (s : State) : State :=
  if ringsServed s && !(ringAt s r).enabled then
    onRing r (fun g => { g with enabled := true, producer := 0, completion := 0, waiting := none, disabling := 0, skip := false }) s
  else s

/-- The host clears Enable: at once between commands, else when the command in execution has its record (R56). -/
def clearEnable (r : Nat) (reset : Bool) (s : State) : State :=
  let g := ringAt s r
  if g.waiting.isSome then onRing r (fun g => { g with disabling := if reset then 2 else max 1 g.disabling }) s
  else if g.enabled || reset then disableRing r reset s
  else s

/-- RING_ENABLE (R56). -/
def execRingEnable (ring : Nat) (s : State) : Result := onUnit (ring < 8) (enableRing ring s)

/-- RING_DISABLE (R56). -/
def execRingDisable (ring : Nat) (s : State) : Result := onUnit (ring < 8) (clearEnable ring false s)

/-- A ProducerIndex write: accepted, or DoorbellOverrun with the ring's halt vector (R57). -/
def postDescriptors (r value : Nat) (s : State) : State :=
  let g := ringAt s r
  let ahead (v : Nat) : Nat := (v + 2 ^ 32 - g.completion) % 2 ^ 32
  let v := value % 2 ^ 32
  if !g.enabled then s
  else if ahead g.producer ≤ ahead v ∧ ahead v ≤ 2 ^ g.sizeLog2 then onRing r (fun g => { g with producer := v, overrun := false }) s
  else vector (9 + r) (onRing r (fun g => { g with overrun := true }) s)

/-- PRODUCER_INDEX (R57). -/
def execProducerIndex (ring value : Nat) (s : State) : Result := onUnit (ring < 8) (postDescriptors ring value s)

/-- HaltAction Retry: the ring goes on from the failed descriptor (R67). -/
def clearHalt (r : Nat) (s : State) : State :=
  if (ringAt s r).enabled && (ringAt s r).halted then onRing r (fun g => { g with halted := false, skip := false }) s else s

/-- HaltAction Skip: the failed descriptor's completion record, and the next descriptor (R67). On a paused ring it waits for the pause to end;
Halt writes no completion record (Table 3-9). -/
def skipHalted (r : Nat) (s : State) : State :=
  let g := ringAt s r
  if !(g.enabled && g.halted) then s
  else if ringPaused s r then onRing r (fun g => { g with skip := true }) s
  else
    let rec_ := completionRecord g.haltTag (bits g.haltInfo 31 24) (bits g.haltInfo 23 16) (bits g.haltInfo 15 0) 0 (nextNumber g) g.sizeLog2 false
    settleFences 8 (writeCompletion r rec_ (dsNotify g.desc) s.host.canSend (onRing r (fun g => { g with halted := false, skip := false }) s))

/-- A Skip that waited for a pause of its ring is taken. -/
def skipWaiting (s : State) (r : Nat) : State := if (ringAt s r).skip then skipHalted r s else s

/-- HALT_RETRY: the failed descriptor is fetched again and executed (R67). -/
def execHaltRetry (ring : Nat) (f : Fetch) (s : State) : Result :=
  onUnit (ring < 8) (if (ringAt s ring).enabled && (ringAt s ring).halted then execute ring 0xFF f (clearHalt ring s) else s)

/-- HALT_SKIP (R67). -/
def execHaltSkip (ring : Nat) (s : State) : Result := onUnit (ring < 8) (skipHalted ring s)

/-! ### The endpoint (R52, R425) -/

/-- The endpoint is reset: rings, MSI-X and mailbox buffers; the rest of the device goes on. -/
def resetEndpoint (s : State) : State :=
  let s := (List.range 8).foldl (fun s r => clearEnable r true s) s
  { s with host := { s.host with msixTable := msixReset, canSend := false, msixOn := false }
           mailbox := { s.mailbox with request := [], response := [] } }

/-- PCIE_CONVENTIONAL_RESET (R52). -/
def execPcieConventionalReset (s : State) : Result :=
  .next (if !s.power.core then s else (((resetEndpoint s).put O.pcieLinkSpeed 0).put O.pcieLinkWidth 0).bump O.pcieResets)

/-- Vectors held back are raised once the endpoint can send them. -/
def sendHeld (s : State) : State :=
  s.host.held.foldl (fun s v => vector v s) { s with host := { s.host with held := [] } }

/-- PCIE_LINK_UP: the link has trained (R425, Table 3-12). The host's writes to configuration space have no row of their own: the command says
whether Bus Master Enable and MSI-X Enable stand after it. -/
def execPcieLinkUp (speed : Nat) (trained : HostLink) (s : State) : Result :=
  onUnit (decide (1 ≤ speed ∧ speed ≤ 4) && [1, 2, 4].contains trained.width) (
    if s.power.core && !bit s.modes.refLost 3 then
      let s := (s.put O.pcieLinkSpeed speed).put O.pcieLinkWidth trained.width
      sendHeld { s with host := { s.host with canSend := trained.busMaster, msixOn := trained.msix } }
    else s)

end Sys2Proof.Machine
end

