-- ==== Sys2Proof/Machine/Pair.lean ====
section
/-! DEFINITION. The pair at work: pairing, forwarded commands, time, region digests and resync (R367–R381, R428). -/

namespace Sys2Proof.Machine

/-- Paired, as the primary or as the secondary. -/
def pairedAs (role : Nat) (s : State) : Bool := pairState s == 2 && s.val O.pairRole == role

/-! ### Regions (R379, Table 17-6) -/

/-- Every region that the configuration defines. -/
def allRegions (s : State) : List Nat :=
  let live := s.dict.live
  ((List.range 128).filter fun n => tdDefined (tcamDef live (n / 32) (n % 32))).map (0x1000 + ·) ++
  ((List.range 16).filter fun t => trieDefined (trieDef live t)).map (0x2000 + ·) ++
  ((List.range 64).filter fun t => defDefined (tableDef live t)).map (0x3000 + ·) ++
  (List.range 16).map (0x4000 + ·) ++ [0x5000] ++ (List.range 8).map (0x6000 + ·) ++ [0x7000]

/-- Bytes of a region's dump record. -/
def regionRecord (r : Nat) : Nat := match r / 4096 with
  | 1 => 112
  | 2 => 16
  | 3 => 64
  | _ => 32

/-- The records of a block of 16,384 in an image of 32-byte records. -/
def blockOf (n : Nat) (img : Bytes) : Bytes := (records 32 img).flatMap fun b => if le b 0 4 / 16384 = n then b else []

/-- Meter records with ProfileId and Valid only. -/
def configOnly (img : Bytes) : Bytes := (records 32 img).flatMap fun b => slice b 0 16 ++ zeros 16

/-- A region's dump image. -/
def regionImage (s : State) (r : Nat) : Bytes :=
  let n := r % 4096
  match r / 4096 with
  | 1 =>
    let d := tcamDef s.dict.live (n / 32) (n % 32)
    (tcamEntries s (n / 32) (n % 32)).flatMap fun e => dumpTcamEntry (n / 32) (tdId d) d e.2
  | 2 => dumpTrie n s
  | 3 => dumpBuckets n s
  | 4 => blockOf n (dumpRecords 0 s)
  | 5 => dumpRecords 1 s
  | 6 => configOnly (blockOf n (dumpMeters 0 s))
  | _ => configOnly (dumpMeters 1 s)

/-- A dump record as the digest takes it: Timestamp, Learned and MoveLocked are 0; none for a learned entry. -/
def digestRecord (r : Nat) (b : Bytes) : Option Bytes :=
  if r / 4096 = 3 then
    (if bit (u8 b 1) 3 then none else some (slice b 0 1 ++ leBytes 1 (u8 b 1 % 8) ++ zeros 2 ++ b.drop 4))
  else some b

/-- A region's digest. -/
def regionDigest (s : State) (r : Nat) : Nat :=
  ((records (regionRecord r) (regionImage s r)).filterMap (digestRecord r)).foldl
    (fun n b => (n + be (sha256 (beBytes 2 r ++ b)) 0 16) % 2 ^ 128) 0

/-- Record the digests after a PairSeq; the last 256 are kept. -/
def recordDigests (seq : Nat) (s : State) : State :=
  let now : SMap Nat := (allRegions s).foldl (fun m r => SMap.set 0 m r (regionDigest s r)) []
  onPair (fun p => { p with digests := ((seq, now) :: p.digests.filter fun d => d.1 != seq).take 256 }) s

/-- A region was made equal at a PairSeq: the records from there on take its digest. -/
def renewDigest (region seq : Nat) (s : State) : State :=
  let d := regionDigest s region
  onPair (fun p => { p with digests := p.digests.map fun e => if seq ≤ e.1 then (e.1, SMap.set 0 e.2 region d) else e }) s

/-! ### HELLO and the roles (R368, R370) -/

/-- HELLO_TIMER: while pairing, a HELLO each 100 us. -/
def execHelloTimer (s : State) : Result :=
  .next (
    if pairState s ≠ 1 ∨ culvertUp s = false then s
    else sendCulvert 0x01 (beBytes 1 (claimedRole s) ++ beBytes 1 1 ++ zeros 1 ++ beBytes 4 (s.val O.pairId) ++ beBytes 4 s.pair.epoch ++
      uidBytes ++ fit 32 s.modes.fwBuild ++ pairConfigDigest s ++ zeros 4) s)

/-- The role of this device against a peer's HELLO: of two that claim one role, the higher PairEpoch takes it, then the lower DeviceUid. -/
def resolvedRole (s : State) (m : Hello) : Nat :=
  let mine := claimedRole s
  if m.role ≠ mine then mine
  else if m.epoch < s.pair.epoch ∨ (m.epoch = s.pair.epoch ∧ Config.deviceUid.toNat ≤ m.uid) then mine
  else 3 - mine

/-- The secondary asks for a region's image; without LPDDR5 it asks for none (R428). -/
def requestResync (r : Nat) (s : State) : State :=
  if s.val O.lpddrState = 4 ∨ s.pair.resyncs.contains r = true then s
  else drowseTrigger (sendCulvert 0x41 (beBytes 2 r ++ zeros 5) (onPair (fun p => { p with resyncs := p.resyncs ++ [r] }) s))

/-- Commands held for the peer are dropped with their reservations. -/
def dropHeld (s : State) : State := (s.pair.held.map (·.seq)).foldl (fun s q => unhold q s) s

/-- The HELLOs agree: Paired, with the roles fixed and PairSeq counted anew. Slot writes of chain members that an earlier pairing began end unanswered. -/
def enterPaired (s : State) : State :=
  let s := setPairState 2 (dropHeld s)
  let s := { s with chain := { s.chain with rewrite := s.pair.chainWrites.foldl (fun j e => j.append e.2) s.chain.rewrite } }
  let s := onPair (fun p => { p with seq := 0, doneSeq := 0, chainWrites := [], images := [], digests := [] }) s
  if s.val O.pairRole = 2 then (allRegions s).foldl (fun s r => requestResync r s) s else s

/-- HELLO (Table 17-2). -/
def execHello (m : Hello) (s : State) : Result :=
  .next (
    if pairState s = 0 then s
    else if m.pairId ≠ s.val O.pairId then s.bump O.pairIdMismatches
    else if pairState s ≠ 1 then s
    else
      let s := s.put O.peerUid (leNat (beBytes 16 m.uid))
      let s := onPair (fun p => { p with peerDigest := some m.digest }) s
      let role := resolvedRole s m
      if m.version ≠ 1 ∨ m.build ≠ beNat (fit 32 s.modes.fwBuild) then splitPair 2 (s.put O.pairRole role)
      else if m.digest ≠ beNat (pairConfigDigest s) then startGrace (s.put O.pairRole role)
      else enterPaired (s.put O.pairRole role))

/-- CONFIG_DIGEST (R369). -/
def execConfigDigest (_commitCount digest : Nat) (s : State) : Result :=
  .next (if pairState s = 0 then s else compareDigests (onPair (fun p => { p with peerDigest := some digest }) s))

/-- CONFIG_GRACE_EXPIRED (R370). -/
def execConfigGraceExpired (s : State) : Result :=
  .next (
    if s.pair.grace = 0 ∨ (pairState s ≠ 1 ∧ pairState s ≠ 2) then s
    else match s.pair.peerDigest with
      | none => s
      | some d => if d = beNat (pairConfigDigest s) then onPair (fun p => { p with grace := 0 }) s else splitPair 1 s)

/-! ### Forwarded commands at the primary (R371–R374) -/

/-- The ring whose command waits as `p` says. -/
def ringWaiting (s : State) (p : Waiting → Bool) : Option Nat :=
  (List.range 8).find? fun r => match (ringAt s r).waiting with
    | some w => p w
    | none => false

/-- The ring whose command waits for the vote on a PairSeq. -/
def ringVoting (s : State) (seq : Nat) : Option Nat := ringWaiting s fun w => match w with
  | .vote q => q == seq
  | _ => false

/-- The ring whose command waits for CMD_DONE on a PairSeq. -/
def ringDoing (s : State) (seq : Nat) : Option Nat := ringWaiting s fun w => match w with
  | .done q _ _ _ => q == seq
  | _ => false

/-- The primary's effect stands: CMD_COMMIT goes out and CMD_DONE is awaited. -/
def sendCommit (r seq status result : Nat) (s : State) : State :=
  sendCulvert 0x12 (zeros 7 ++ beBytes 8 seq) (onRing r (fun g => { g with waiting := some (.done seq status 0 result) }) (recordDigests seq s))

/-- CMD_ABORT goes out. -/
def sendAbort (seq : Nat) (s : State) : State := sendCulvert 0x13 (zeros 7 ++ beBytes 8 seq) s

/-- The secondary voted for a command: the primary makes its effect write. Paused, or where it must wait, the command waits and runs again
from its start (R70). -/
def commitForwarded (r seq : Nat) (s : State) : State :=
  let g := ringAt s r
  let again := sendAbort seq (holdCommand r true true s)
  if ringPaused s r || effectHeld g.desc g.block s then again
  else match ringOp (s.obj (O.ringExecutor r)) true g.desc g.block s with
    | .wait => again
    | .fail st d t => failCommand r st d (sendAbort seq t)
    | .done st x t => sendCommit r seq st x t
    | .chain j x t => onRing r (fun g => { g with waiting := some (.chain j x seq) }) t

/-- CMD_VOTE at the primary; a vote that nothing waits for is ignored. -/
def execCmdVote (status detail pairSeq : Nat) (s : State) : Result :=
  .next (
    match ringVoting s pairSeq with
    | none => s
    | some r =>
      let s := unhold pairSeq s
      if 0x10 ≤ status then failCommand r 0x1B (0x2F00 + status % 256) (s.put O.peerLastDetail (detail % 65536))
      else commitForwarded r pairSeq s)

/-- A forwarded command has its effect on this device and need not wait longer: its record, or its record after a restart. -/
def finishForwarded (r seq : Nat) (s : State) : State :=
  match (ringAt s r).waiting with
  | some (.done _ st _ x) =>
    let s := onPair (fun p => { p with doneSeq := max p.doneSeq seq }) s
    if s.val O.domainState ≠ 0 ∨ s.modes.halted = true then onRing r (fun g => { g with waiting := some (.done 0 st 0 x) }) s
    else settleFences 8 (completeCommand r st x s.host.canSend s)
  | _ => s

/-- CMD_DONE at the primary. -/
def execCmdDone (pairSeq : Nat) (s : State) : Result :=
  .next (if pairSeq = 0 then s else match ringDoing s pairSeq with
    | none => s
    | some r => finishForwarded r pairSeq s)

/-- No vote came: PEER_FAIL with PEER_TIMEOUT. -/
def voteTimeout (seq : Nat) (s : State) : State :=
  match ringVoting s seq with
  | none => s
  | some r => failCommand r 0x1B 0x2F1F (unhold seq s)

/-- PEER_VOTE_TIMEOUT. -/
def execPeerVoteTimeout (pairSeq : Nat) (s : State) : Result := .next (voteTimeout pairSeq s)

/-- No CMD_DONE came: the effect stands, and PeerCommitLost counts it. -/
def doneTimeout (seq : Nat) (s : State) : State :=
  if seq = 0 then s else match ringDoing s seq with
    | none => s
    | some r => finishForwarded r seq (s.bump O.peerCommitLost)

/-- PEER_DONE_TIMEOUT. -/
def execPeerDoneTimeout (pairSeq : Nat) (s : State) : Result := .next (doneTimeout pairSeq s)

/-- Commands that awaited the peer are resolved as Table 17-3 states. -/
def resolveAwaiting (s : State) : State :=
  (List.range 8).foldl (fun s r => match (ringAt s r).waiting with
    | some (.vote q) => voteTimeout q s
    | some (.done q _ _ _) => doneTimeout q s
    | _ => s) s

/-! ### Forwarded commands at the secondary -/

/-- A forwarded command at the secondary: a bulk load takes the image that came with it. -/
def peerOp (p : Prepared) (s : State) : OpRes :=
  if dsOpcode p.desc = 0x31 then
    let img := ((s.pair.images.find? fun i => i.1 == p.seq).map (·.2)).getD []
    if blKind p.desc = 0 ∨ 6 < blKind p.desc then .fail 0x14 0x2112 s else loadImage (blKind p.desc) (blTable p.desc) (img.take (blLength p.desc)) s
  else if !forwarded (dsOpcode p.desc) then .fail 0x14 0x2111 s
  else ringOp 0 true p.desc p.block s

/-- Send a vote. -/
def sendVote (seq status detail : Nat) (s : State) : State := sendCulvert 0x11 (beBytes 1 status ++ beBytes 2 detail ++ zeros 4 ++ beBytes 8 seq) s

/-- The secondary's checks and placement of a command that it holds and has not voted on. -/
def tryVote (p : Prepared) (s : State) : State :=
  let bulk := dsOpcode p.desc == 0x31
  let landed := match s.pair.images.find? fun i => i.1 == p.seq with
    | some i => decide (blLength p.desc ≤ i.2.length)
    | none => blLength p.desc == 0
  let no (st d : Nat) (s : State) : State := sendVote p.seq st d (unhold p.seq s)
  let yes (places : List Nat) : State := sendVote p.seq 0 0 (hold { p with places, region := regionFor p.desc s, voted := true } s)
  if p.voted || s.val O.domainState != 0 || s.modes.halted then s
  else if bulk && s.val O.lpddrState == 4 then no 0x19 0x2B01 s
  else if bulk && (!landed || s.val O.shadowReady == 0) then s
  else if (wakesDrowse p.desc p.block s || bulk) && asleep s then s
  else match peerOp p s with
    | .wait => s
    | .fail st d t => no st d t
    | .done _ _ t => yes (newPlaces s t [])
    | .chain j _ t => yes (newPlaces s t (jobWrites j))

/-- The secondary has applied a PairSeq. -/
def appliedPrepared (seq : Nat) (s : State) : State := sendCulvert 0x14 (zeros 7 ++ beBytes 8 seq) (recordDigests seq s)

/-- A command whose CMD_COMMIT has come makes its effect write. -/
def applyPrepared (p : Prepared) (s : State) : State :=
  if s.val O.domainState ≠ 0 ∨ s.modes.halted = true ∨ effectHeld p.desc p.block s = true ∨
    (commandRegions p.desc p.block s).any (regionBusy s) = true then s
  else
    let free := freeHeld p s
    match peerOp p free with
    | .wait => s
    | .fail _ _ _ => unhold p.seq s
    | .done _ _ t => appliedPrepared p.seq (unhold p.seq t)
    | .chain j _ t => unhold p.seq (onPair (fun x => { x with chainWrites := x.chainWrites ++ [(p.seq, j)] }) t)

/-- CMD_PREPARE: each PairSeq at most once. -/
def execCmdPrepare (pairSeq : Nat) (desc block : Bytes) (s : State) : Result :=
  .next (
    if !pairedAs 2 s || decide (pairSeq ≤ s.pair.seq) || decide (2 ^ 64 ≤ pairSeq) then s
    else
      let p : Prepared := ⟨pairSeq, fit 64 desc, block, [], none, false, false⟩
      let s := onPair (fun x => { x with seq := pairSeq }) (hold p s)
      tryVote p (if wakesDrowse p.desc p.block s || dsOpcode p.desc == 0x31 then drowseTrigger s else s))

/-- CMD_COMMIT: a late one is applied if the reservation is still held. -/
def execCmdCommit (pairSeq : Nat) (s : State) : Result :=
  .next (match heldAt s pairSeq with
    | none => s
    | some p =>
      if !pairedAs 2 s || !p.voted then s
      else
        let p := { p with committed := true }
        applyPrepared p (onPair (fun x => { x with held := x.held.map fun q => if q.seq = pairSeq then p else q }) s))

/-- CMD_ABORT releases the reservation. -/
def execCmdAbort (pairSeq : Nat) (s : State) : Result := .next (if s.val O.pairRole = 2 then unhold pairSeq s else s)

/-- RESERVATION_TIMEOUT: PeerTimeout after the vote. -/
def execReservationTimeout (pairSeq : Nat) (s : State) : Result :=
  .next (match heldAt s pairSeq with
    | some p => if s.val O.pairRole = 2 ∧ p.voted = true ∧ p.committed = false then unhold pairSeq s else s
    | none => s)

/-- Data lands at an offset of what has come so far. -/
def landAt (off : Nat) (data old : Bytes) : Bytes := fit off old ++ data ++ old.drop (off + data.length)

/-- IMAGE_DATA (R381). -/
def execImageData (offset pairSeq : Nat) (data : Bytes) (s : State) : Result :=
  .next (
    match heldAt s pairSeq with
    | some p =>
      if !pairedAs 2 s || p.voted || decide (496 < data.length) || decide (4194304 < offset) then s
      else
        let s := landCulvert offset data s
        let old := ((s.pair.images.find? fun i => i.1 == pairSeq).map (·.2)).getD []
        tryVote p (onPair (fun x => { x with images := (pairSeq, landAt offset data old) :: x.images.filter fun i => i.1 != pairSeq }) s)
    | none => s)

/-! ### Resync (R380) -/

/-- A resync touches Furrow or an extended table. -/
def regionSleeps (s : State) (r : Nat) : Bool := r / 4096 == 2 || (r / 4096 == 3 && defExt (tableDef s.dict.live (r % 4096)))

/-- RESYNC_DATA messages for a region. -/
def sendRegion (r : Nat) : Nat → List Bytes → State → State
  | _, [], s => s
  | off, c :: cs, s => sendRegion r (off + c.length) cs (sendCulvert 0x42 (beBytes 2 r ++ zeros 1 ++ beBytes 4 off ++ c) s)

/-- The primary sends the image of one region that the secondary has asked for, if it can be dumped now. -/
def serveRegion (r : Nat) (s : State) : State :=
  let done (s : State) : State := onPair (fun p => { p with owed := p.owed.filter (· != r) }) s
  if s.val O.domainState ≠ 0 ∨ s.modes.halted = true then s
  else if s.val O.lpddrState = 4 ∧ regionSleeps s r = true then onPair (fun p => { p with resyncs := p.resyncs.filter (· != r) }) (done s)
  else if s.val O.lpddrState ≠ 4 ∧ (s.val O.shadowReady = 0 ∨ (regionSleeps s r && (asleep s || (r / 4096 == 3 && s.val O.extReady == 0))) = true) then s
  else
    let img := regionImage s r
    let seq := ((s.pair.digests.head?).map (·.1)).getD 0
    let s := sendRegion r 0 (chunks 504 (img.length / 504 + 1) img) (done (renewDigest r seq s))
    sendCulvert 0x43 (beBytes 2 r ++ zeros 1 ++ beBytes 4 img.length ++ beBytes 8 seq ++ beBytes 16 (regionDigest s r) ++ zeros 24) s

/-- RESYNC_REQUEST at the primary. -/
def execResyncRequest (region : Nat) (s : State) : Result :=
  .next (
    if !pairedAs 1 s || !(allRegions s).contains region then s
    else serveRegion region (drowseTrigger (onPair (fun p =>
      { p with resyncs := p.resyncs.filter (· != region) ++ [region], owed := p.owed.filter (· != region) ++ [region] }) s)))

/-- RESYNC_DATA at the secondary (R381). -/
def execResyncData (region offset : Nat) (data : Bytes) (s : State) : Result :=
  .next (
    if !pairedAs 2 s || !s.pair.resyncs.contains region || decide (504 < data.length) || decide (2 ^ 32 ≤ offset) then s
    else
      let s := landCulvert offset data s
      let old := ((s.pair.incoming.find? fun i => i.region == region).map (·.data)).getD []
      onPair (fun p => { p with incoming := ⟨region, landAt offset data old, none⟩ :: p.incoming.filter fun i => i.region != region }) s)

/-- An image record as a load takes it; none for a learned or sealed entry, since the load discards the first and keeps the second. -/
def loadable (region : Nat) (b : Bytes) : Option Bytes :=
  match region / 4096 with
  | 1 => if u8 b 8 = 0 then some b else none
  | 3 => if bit (u8 b 1) 3 || bit (u8 b 1) 2 then none else some (slice b 0 1 ++ leBytes 1 (u8 b 1 &&& 2) ++ zeros 2 ++ b.drop 4)
  | _ => some b

/-- Write each record of a region's image; those that the image leaves out become zeros. -/
def resyncRecords (store : Nat) (mine : Nat → Bool) (img : Bytes) (s : State) : State :=
  let rs := (records 32 img).filter fun b => mine (le b 0 4)
  let old := ((listedRecords store s).filter fun e => mine e.1).map (·.1)
  let s := old.foldl (fun s i => if rs.any fun b => le b 0 4 == i then s else writeRecord store i 0 s) s
  rs.foldl (fun s b => writeRecord store (le b 0 4) (le b 8 16) s) s

/-- Configure each meter of a region's image; those that the image leaves out become not valid. -/
def resyncMeters (store : Nat) (mine : Nat → Bool) (img : Bytes) (s : State) : State :=
  let rs := (records 32 img).filter fun b => mine (le b 0 4)
  let old := ((listedMeters store s).filter fun e => mine e.1 && meterValid e.2).map (·.1)
  let s := old.foldl (fun s i =>
    if rs.any (fun b => le b 0 4 == i) then s
    else writeMeter store i (freshMeter s (meterProfileId (readMeter store i s)) false) s) s
  rs.foldl (fun s b => writeMeter store (le b 0 4) (freshMeter s (le b 8 2) (u8 b 10 == 1)) s) s

/-- Apply a region's image. -/
def applyRegion (r : Nat) (img : Bytes) (s : State) : OpRes :=
  let n := r % 4096
  let body := (records (regionRecord r) img).flatMap fun b => (loadable r b).getD []
  match r / 4096 with
  | 1 => loadTcam (n / 32 * 256 + tdId (tcamDef s.dict.live (n / 32) (n % 32))) body s
  | 2 => loadTrie n body s
  | 3 => loadBuckets (defExt (tableDef s.dict.live n)) n body s
  | 4 => .done 0 0 (resyncRecords 0 (fun i => i / 16384 == n) img s)
  | 5 => .done 0 0 (resyncRecords 1 (fun _ => true) img s)
  | 6 => .done 0 0 (resyncMeters 0 (fun i => i / 16384 == n) img s)
  | _ => .done 0 0 (resyncMeters 1 (fun _ => true) img s)

/-- A resync has ended at the secondary. -/
def resyncApplied (r seq : Nat) (s : State) : State :=
  let s := onPair (fun p => { p with resyncs := p.resyncs.filter (· != r), incoming := p.incoming.filter fun i => i.region != r }) s
  sendCulvert 0x44 (beBytes 2 r ++ zeros 5) ((renewDigest r seq s).bump O.resyncs)

/-- A resync ends without its image, since LPDDR5, where the image would be staged, is absent (R428): the primary's commands on the region go on.
DESIGN CHOICE: RESYNC_DONE goes out and the digests are not renewed, so the region is reported as different. -/
def endResync (r : Nat) (s : State) : State :=
  sendCulvert 0x44 (beBytes 2 r ++ zeros 5)
    (onPair (fun p => { p with resyncs := p.resyncs.filter (· != r), incoming := p.incoming.filter fun i => i.region != r }) s)

/-- LPDDR5 is absent: the secondary's resyncs that wait for the shadows end (R428). -/
def endResyncs (s : State) : State :=
  if s.val O.lpddrState = 4 ∧ pairedAs 2 s = true then s.pair.resyncs.foldl (fun s r => endResync r s) s else s

/-- Apply an image that has come whole, as soon as the shadows are ready. -/
def tryResync (i : Incoming) (s : State) : State :=
  match i.ended with
  | none => s
  | some (length, seq, _) =>
    if s.val O.domainState ≠ 0 ∨ s.modes.halted = true then s
    else if s.val O.lpddrState = 4 then endResync i.region s
    else if s.val O.shadowReady = 0 ∨ (regionSleeps s i.region && asleep s) = true then s
    else if regionBusy s i.region || (i.region / 4096 != 1 && tableMarked s i.region) then s
    else if i.data.length ≠ length then resyncApplied i.region seq s
    else match applyRegion i.region i.data s with
      | .wait => s
      | .fail _ _ t => resyncApplied i.region seq t
      | .done _ _ t => resyncApplied i.region seq t
      | .chain j _ t => onPair (fun p => { p with
          incoming := p.incoming.filter fun k => k.region != i.region
          chainWrites := p.chainWrites ++ [(2 ^ 64 + i.region + seq * 65536 * 2 ^ 64, j)] }) t

/-- RESYNC_END at the secondary. -/
def execResyncEnd (region length pairSeq digest : Nat) (s : State) : Result :=
  .next (
    if !pairedAs 2 s || !s.pair.resyncs.contains region then s
    else
      let data := ((s.pair.incoming.find? fun i => i.region == region).map (·.data)).getD []
      let i : Incoming := ⟨region, data, some (length, pairSeq % 2 ^ 64, digest)⟩
      tryResync i (onPair (fun p => { p with incoming := i :: p.incoming.filter fun j => j.region != region }) s))

/-- RESYNC_DONE at the primary: commands on the region go on. -/
def execResyncDone (region : Nat) (s : State) : Result :=
  .next (
    if !pairedAs 1 s || !s.pair.resyncs.contains region then s
    else (onPair (fun p => { p with resyncs := p.resyncs.filter (· != region), owed := p.owed.filter (· != region) }) s).bump O.resyncs)

/-- What waited for LPDDR5, for the domain or for the end of Drowse goes on: votes, commits, images, and records of rings. -/
def resumePair (s : State) : State :=
  let s := s.pair.held.foldl (fun s p => if p.committed then applyPrepared p s else tryVote p s) (endResyncs s)
  let s := s.pair.incoming.foldl (fun s i => tryResync i s) s
  let s := s.pair.owed.foldl (fun s r => serveRegion r s) s
  if s.val O.domainState ≠ 0 ∨ s.modes.halted = true then s
  else (List.range 8).foldl (fun s r => match (ringAt s r).waiting with
    | some (.done 0 st _ x) => settleFences 8 (completeCommand r st x s.host.canSend s)
    | _ => s) s

/-! ### Culvert going up and down, and the roles written by software -/

/-- CULVERT_LOST: Pairing and Paired go to Solo (Table 17-2). -/
def execCulvertLost (s : State) : Result :=
  .next (
    if s.val O.culvertLinkState = 0 then s
    else
      let st := pairState s
      let s := trainCulvert true (s.put O.culvertLinkState 4)
      if st = 1 then setPairState 3 s
      else if st = 2 then setPairState 3 (if s.val O.pairRole = 2 then dropHeld s else resolveAwaiting s)
      else s)

/-- CULVERT_UP: Solo goes to Pairing. -/
def execCulvertUp (s : State) : Result :=
  .next (
    if !s.power.core || s.val O.culvertLinkState == 0 || culvertUp s || s.modes.halted || bit s.modes.refLost 1 then s
    else
      let s := sendWaiting (s.put O.culvertLinkState 2)
      if pairState s = 3 then enterPairing s else s)

/-- The effect of a Promote write. -/
def promoteRole (s : State) : Option (Nat × Nat) × State :=
  if pairState s = 3 ∧ s.val O.pairRole = 2 then
    (none, (onPair (fun p => { p with role := 1, epoch := (p.epoch + 1) % 2 ^ 32 }) s).put O.pairRole 1)
  else (some (0x08000022, 0x2F02), s)

/-- The effect of a PairRelease write. -/
def pairRelease (s : State) : Option (Nat × Nat) × State :=
  if pairState s = 5 then (none, disableCulvert (setPairState 0 s)) else (some (0x08000022, 0x2F02), s)

/-! ### Time (R378) -/

/-- TIME_TIMER: the primary sends its Timebase and elapsed count. -/
def execTimeTimer (s : State) : Result :=
  .next (if pairedAs 1 s then sendCulvert 0x30 (zeros 7 ++ beBytes 8 (timebase s) ++ beBytes 8 (elapsed s) ++ zeros 16) s else s)

/-- The offset of the secondary's Timebase against the primary's, from the four times of an exchange. -/
def timeOffsetOf (t1 t2 t3 t4 : Nat) : Int := (((t2 : Int) - t1) + ((t3 : Int) - t4)) / 2

/-- How far one TIME message slews: at most 100 ppm of a millisecond and never past zero; the rest is not stated. -/
def slewBy (n : Nat) (o : Int) : Int :=
  let most := min o.natAbs 100
  let by_ : Int := ((Config.freeValue n).toNat % (most + 1) : Nat)
  if 0 ≤ o then by_ else -by_

/-- The secondary has its offset: it slews or steps its Timebase, and TimeUnsynced follows. -/
def takeOffset (o : Int) (s : State) : State :=
  let step := decide (100000 < o.natAbs)
  let (n, s) := drawFresh s
  let s := { s with clock := { s.clock with timeAdj := s.clock.timeAdj - (if step then o else slewBy n o) } }
  let s := s.put O.timeOffset (unsigned 32 o)
  if 1000 < o.natAbs then (if s.flag O.timeUnsynced then s else pairDisagree 3 0 0 (s.put O.timeUnsynced 1))
  else if o.natAbs < 500 then s.put O.timeUnsynced 0
  else s

/-- TIME: the primary's message brings its Timebase and E, which the secondary echoes with its own times; the primary adds when the echo came and
sends it back; the secondary then takes the offset. -/
def execTime (t1 t2 t3 t4 : Nat) (s : State) : Result :=
  .next (
    let reply (a b c d : Nat) (s : State) : State := sendCulvert 0x30 (zeros 7 ++ beBytes 8 a ++ beBytes 8 b ++ beBytes 8 c ++ beBytes 8 d) s
    if pairedAs 1 s then (if t3 ≠ 0 ∧ t4 = 0 then reply t1 t2 t3 (timebase s) s else s)
    else if pairedAs 2 s then
      if t4 ≠ 0 then takeOffset (timeOffsetOf t1 t2 t3 t4) s
      else if t3 = 0 then
        let s := { s with clock := { s.clock with tickAdj := (t2 : Int) - elapsed s } }
        reply t1 (timebase s) (timebase s) 0 s
      else s
    else s)

/-! ### Region digests (R379) -/

/-- The STATE_DIGEST messages of a round: at most 20 regions each, Last on the last. -/
def sendDigests (seq : Nat) (m : SMap Nat) : Nat → List Nat → State → State
  | 0, _, s => s
  | n + 1, rs, s =>
    if rs.isEmpty then s
    else
      let now := rs.take 20
      let rest := rs.drop 20
      sendDigests seq m n rest (sendCulvert 0x40 (beBytes 1 now.length ++ beBytes 1 (b2n rest.isEmpty) ++ zeros 5 ++ beBytes 8 seq ++
        now.flatMap fun r => beBytes 2 r ++ zeros 6 ++ beBytes 16 (SMap.get 0 m r)) s)

/-- STATE_DIGEST_TIMER. -/
def execStateDigestTimer (s : State) : Result :=
  .next (
    if !pairedAs 1 s then s
    else match s.pair.digests.find? fun d => d.1 == s.pair.doneSeq with
      | some d => sendDigests d.1 d.2 16 (allRegions s) s
      | none => s)

/-- The secondary finds that a region differs: a record of kind 4 and a resync; without LPDDR5 one record per start and no resync. -/
def regionDiffers (r : Nat) (s : State) : State :=
  if s.val O.lpddrState = 4 then
    (if s.pair.reported.contains r then s else pairDisagree 4 r 0 (onPair (fun p => { p with reported := p.reported ++ [r] }) s))
  else if s.pair.resyncs.contains r then s
  else requestResync r (pairDisagree 4 r 0 s)

/-- STATE_DIGEST: the regions of each message are compared as it arrives, with the digests that this device holds for that PairSeq: those after
the last one that it has applied of it and those before it (Table 17-3). -/
def execStateDigest (pairSeq : Nat) (regions : List (Nat × Nat)) (_last : Bool) (s : State) : Result :=
  .next (
    if !pairedAs 2 s then s
    else match s.pair.digests.find? fun d => decide (d.1 ≤ pairSeq) with
      | none => s
      | some d => (regions.take 20).foldl (fun s x => if SMap.get 0 d.2 x.1 = x.2 ∨ (allRegions s).contains x.1 = false then s else regionDiffers x.1 s) s)

end Sys2Proof.Machine
end

