-- ==== Sys2Proof/Machine/Chain.lean ====
section
/-! DEFINITION. The Domino chain: discovery, chain-wide lookups, member slot writes, and the chain's digests (R382–R386). -/

namespace Sys2Proof.Machine

/-- Change the chain's record. -/
def onChain (f : Chain → Chain) (s : State) : State := { s with chain := f s.chain }

/-- This device's position in the ring. -/
def position (s : State) : Nat := s.power.strapChain

/-- The ring's messages reach this device as a member. -/
def member (s : State) : Bool := s.power.core && s.chain.up && !isHead s

/-- The ring's messages reach this device as the head. -/
def headUp (s : State) : Bool := s.power.core && s.chain.up && isHead s

/-! ### Discovery (R382) -/

/-- DISCOVER with the positions collected so far. -/
def sendDiscover (ps : List Nat) (s : State) : State :=
  sendDomino 0x80 (beBytes 1 ps.length ++ ((ps ++ [255, 255, 255, 255]).take 4).flatMap (beBytes 1) ++ zeros 2) s

/-- MEMBER_ID. -/
def sendMemberId (p uid : Nat) (s : State) : State := sendDomino 0x85 (beBytes 1 p ++ zeros 6 ++ beBytes 16 uid) s

/-- DOMINO_LINK_UP: the head begins a discovery. -/
def execDominoLinkUp (s : State) : Result :=
  .next (
    if !s.power.core || s.chain.up || s.modes.halted || bit s.modes.refLost 2 then s
    else
      let s := setChainState 1 (onChain (fun _ => { Chain.off with up := true }) s)
      if isHead s then sendChainDigest (sendDiscover [] s) else clearFault 0x0141 s)

/-- The writes that make every member hold what the head's map does, in the order of R144: of each chain-wide table its generation and its region's
slots, after slots outside every region that a failed load may have left valid. -/
def memberSlots (s : State) : List (Nat × Shadow) :=
  let tables := (List.range 128).filter fun n =>
    let d := tcamDef s.dict.live (n / 32) (n % 32)
    tdDefined d && tdChain d
  let region (n : Nat) : List (Nat × Shadow) :=
    let d := tcamDef s.dict.live (n / 32) (n % 32)
    let mark := genMark (tdId d) (tcamGen s (n / 32) (tdId d))
    let pairAt (p : Nat) : List Nat :=
      let ks := (List.range (tdStride d)).map fun k => p + k
      if (shadowAt s p).valid then ks.reverse else ks
    let slots := ((tablePlaces s (n / 32) (n % 32)).filter (32768 ≤ ·)).flatMap pairAt
    memberMarks s (n / 32) (n % 32) (SMap.get 0 s.tcam.regions n) mark.gen ++
      slots.map fun p => (p, if (shadowAt s p).valid then shadowAt s p else mark)
  let inside := (tables.flatMap region).map (·.1)
  let stray := (s.tcam.remote.filter fun e => !inside.contains e.1).map fun e =>
    (e.1, if e.2.upper then { e.2 with valid := false }
          else genMark (e.2.value / 2 ^ 184) (tcamGen s (e.1 % 32768 / 8192) (e.2.value / 2 ^ 184)))
  stray ++ tables.flatMap region

/-- The ring is complete: ChainState 2, or 4 where a member's digest differs. -/
def completeRing (s : State) : State := judgeMembers (setChainState 2 s)

/-- The Marionettes are stopped: slot writes wait for the restart (R70, R284). -/
def writesStopped (s : State) : Bool := s.val O.domainState != 0 || s.modes.halted

/-- The slot writes of sealed tables and of a restored ring go on; after a discovery their end completes the ring (R386). -/
def continueRewrite (s : State) : State :=
  let (j, s) := runJob s.chain.rewrite s
  let s := onChain (fun c => { c with rewrite := j }) s
  if j.over && s.val O.chainState == 1 then completeRing s else s

/-- The head judges the DISCOVER that returned, once each member it names has sent its MEMBER_ID. -/
def judgeRing (s : State) : State :=
  if s.val O.chainState ≠ 1 ∨ s.chain.rewrite.over = false ∨ writesStopped s = true then s
  else match s.chain.found with
    | none => s
    | some ps =>
      if ps.isEmpty || decide (3 < ps.length) || ps != (List.range ps.length).map (· + 1) then setChainState 3 s
      else if ps.all fun p => s.chain.ids.any fun i => i.1 == p then
        let s := onTcam (fun c => { c with members := ps.length + 1 }) s
        continueRewrite (onChain (fun c => { c with rewrite := { ChainJob.none with writes := memberSlots s } }) s)
      else s

/-- DISCOVER: a member adds its position, forwards it, and sends its MEMBER_ID and its CHAIN_DIGEST behind it (R382, R385); at the head it has
returned. -/
def execDiscover (positions : List Nat) (s : State) : Result :=
  .next (
    if member s then sendChainDigest (sendMemberId (position s) Config.deviceUid.toNat (sendDiscover (positions ++ [position s]) s))
    else if headUp s then judgeRing (onChain (fun c => { c with found := some positions }) s)
    else s)

/-- MEMBER_ID: forwarded towards the head, or taken by it. -/
def execMemberId (position uid : Nat) (s : State) : Result :=
  .next (
    if member s then sendMemberId position uid s
    else if headUp s then judgeRing (onChain (fun c => { c with ids := SMap.insert c.ids position uid }) s)
    else s)

/-! ### Lookups (R383) -/

/-- Forward a LOOKUP (Table 17-9). -/
def forwardLookup (m : LookupMsg) (s : State) : State :=
  let b := m.cls * 64 + m.quarter % 4 * 16 + b2n m.wide * 8 + b2n m.hit * 4 + m.position % 4
  sendDomino 0x81 (beBytes 2 m.ticket ++ beBytes 1 b ++ beBytes 1 m.tableId ++ beBytes 2 m.index ++ beBytes 3 m.record ++
    beBytes (if m.wide then 48 else 24) m.word ++ zeros 6) s

/-- A member's search of its own region: the message with its hit, where it carries none yet, or with a lookup that failed its winner check
or met a quarantined quarter (R143, R158, R159). -/
def memberSearch (m : LookupMsg) (s : State) : LookupMsg × State :=
  let q := m.quarter % 4
  let bad : LookupMsg := { m with hit := true, position := position s, index := 0, record := badRecord }
  match tcamTable s.dict.live q m.tableId with
  | none => (m, s)
  | some i =>
    let d := tcamDef s.dict.live q i
    if m.hit || !tdChain d || tdWide d != m.wide then (m, s)
    else if quarterOut s q then (bad, s)
    else match tcamLookup q m.tableId m.wide m.word s with
      | (.hit k h, s) => ({ m with hit := true, position := position s, index := k % 8192, record := h.record % 262144 }, s)
      | (.mismatch, s) => (bad, s)
      | (.miss, s) => (m, s)

/-- LOOKUP: a member searches and forwards; the head resolves. -/
def execLookup (m : LookupMsg) (s : State) : Result :=
  .next (
    if member s then (let (m, s) := memberSearch m s; forwardLookup m s)
    else if headUp s then settleGrants (resolveLookup m s)
    else s)

/-- CHAIN_TIMEOUT_A: 90 ns per member have passed (R135). -/
def execChainTimeoutA (slot : Nat) (s : State) : Result := onUnit (slot < 64) (settleGrants (chainTimeout true slot s))

/-- CHAIN_TIMEOUT_BC: ChainTimeoutBC has passed (R384). -/
def execChainTimeoutBc (slot : Nat) (s : State) : Result := onUnit (slot < 256) (settleGrants (chainTimeout false slot s))

/-! ### Slot writes (R386) -/

/-- WRITE: the member that it names writes the slot and acknowledges; others pass it on. A write that leaves the first slot of an entry invalid
gives the member its table's generation. -/
def execWrite (pos quarter index shadow : Nat) (s : State) : Result :=
  onUnit (quarter < 4 && index < 8192) (
    if !member s then s
    else if pos ≠ position s then sendDomino 0x82 (beBytes 1 pos ++ beBytes 1 quarter ++ beBytes 2 index ++ zeros 3 ++ beBytes 52 shadow ++ zeros 4) s
    else
      let h := Shadow.ofNat shadow
      let s := writeSlot (slotKey quarter index) h s
      let s := if !h.valid && !h.upper then onTcam (fun c => { c with gens := SMap.set false c.gens (256 * quarter + h.value / 2 ^ 184) h.gen }) s else s
      sendDomino 0x83 (beBytes 1 pos ++ beBytes 1 quarter ++ beBytes 2 index ++ zeros 3) s)

/-- The slot writes of a sealed bundle are made: it is stored, and the ring's command completes with its Receipt (R318, R320). -/
def finishBundle (r : Nat) (b : Bytes) (result : Nat) (s : State) : State :=
  let (receipt, s) := acceptBundle b s
  settleFences 8 (completeCommand r 0 result s.host.canSend (writeReceipt (ringAt s r).desc receipt s))

/-- Slot writes that an alarm ends (R341): what they changed is taken back, and the members that have taken some of them are written again. -/
def recallJob (j : ChainJob) (s : State) : State :=
  let s := abandonJob j s
  let mark (p : Nat) : Shadow :=
    let q := p % 32768 / 8192
    let t := tdId (tcamDef s.dict.live ((j.tables.headD 0) / 32) (j.tables.headD 0 % 32))
    genMark t (tcamGen s q t)
  let places := ((j.old.map (·.1)).filter (32768 ≤ ·)).eraseDups
  let marks := j.undo.flatMap fun f => memberMarks s f.1 f.2.1 f.2.2 (tcamGen s f.1 (tdId (tcamDef s.dict.live f.1 f.2.1)))
  let ws := marks ++ places.map fun p => (p, if (shadowAt s p).valid then shadowAt s p else mark p)
  if ringSilent s || ws.isEmpty then s else queueJob { ChainJob.none with writes := ws, tables := j.tables } s

/-- The slot writes of ring `r`'s command go on; their end ends the command or commits it to the peer. A bundle that an alarm finds before its
commit point is TAMPERED (R341). -/
def continueRing (r : Nat) (j : ChainJob) (result seq : Nat) (s : State) : State :=
  if s.keys.barred && !j.bundle.isEmpty then failCommand r 0x1A 0x2D10 (keyEvent (recallJob j s))
  else
  let b := j.bundle
  let (j, s) := runJob j s
  if !j.over then onRing r (fun g => { g with waiting := some (.chain j result seq) }) s
  else if !b.isEmpty then finishBundle r b result s
  else if seq = 0 then
    settleFences 8 (completeCommand r 0 result s.host.canSend (if dsOpcode (ringAt s r).desc = 0x31 then drowseBusy s else s))
  else sendCommit r seq 0 result s

/-- The slot writes of a forwarded command or of a resync go on at the secondary's head. -/
def continuePair (key : Nat) (j : ChainJob) (s : State) : State :=
  let (j, s) := runJob j s
  let s := onPair (fun p => { p with chainWrites := p.chainWrites.filter fun e => e.1 != key }) s
  if !j.over then onPair (fun p => { p with chainWrites := p.chainWrites ++ [(key, j)] }) s
  else if key < 2 ^ 64 then appliedPrepared key s
  else resyncApplied (key % 2 ^ 80 - 2 ^ 64) (key / 2 ^ 80) s

/-- A place's WRITE waits for its acknowledgement. -/
def awaits (p : Nat) (j : ChainJob) : Bool := j.acks.any fun a => a.1 == p

/-- The head receives an acknowledgement for a place: its map takes the write, and what has nothing left to acknowledge goes on, unless the
Marionettes are stopped. -/
def writeAcked (p : Nat) (s : State) : State :=
  match (List.range 8).findSome? fun r => match (ringAt s r).waiting with
    | some (.chain j x q) => if awaits p j then some (r, j, x, q) else none
    | _ => none with
  | some (r, j, x, q) =>
    let (j, s) := ackJob p j s
    if j.acks.isEmpty && !writesStopped s then continueRing r j x q s
    else onRing r (fun g => { g with waiting := some (.chain j x q) }) s
  | none =>
    match s.pair.chainWrites.find? fun e => awaits p e.2 with
    | some (k, j) =>
      let (j, s) := ackJob p j s
      if j.acks.isEmpty && !writesStopped s then continuePair k j s
      else onPair (fun x => { x with chainWrites := x.chainWrites.map fun e => if e.1 = k then (k, j) else e }) s
    | none =>
      if awaits p s.chain.rewrite then
        let (j, s) := ackJob p s.chain.rewrite s
        let s := onChain (fun c => { c with rewrite := j }) s
        if j.acks.isEmpty && !writesStopped s then continueRewrite s else s
      else s

/-- Slot writes that stopped for a restart go on (R70). -/
def resumeChain (s : State) : State :=
  if writesStopped s then s
  else
    let s := (List.range 8).foldl (fun s r => match (ringAt s r).waiting with
      | some (.chain j x q) => if j.acks.isEmpty || (s.keys.barred && !j.bundle.isEmpty) then continueRing r j x q s else s
      | _ => s) s
    let s := s.pair.chainWrites.foldl (fun s e => if e.2.acks.isEmpty then continuePair e.1 e.2 s else s) s
    if s.chain.up && decide (s.val O.chainState ≠ 3) && s.chain.rewrite.acks.isEmpty && !s.chain.rewrite.over then continueRewrite s else judgeRing s

/-- WRITE_ACK: passed on towards the head, or taken by it. -/
def execWriteAck (position quarter index : Nat) (s : State) : Result :=
  onUnit (quarter < 4 && index < 8192) (
    if member s then sendDomino 0x83 (beBytes 1 position ++ beBytes 1 quarter ++ beBytes 2 index ++ zeros 3) s
    else if headUp s then writeAcked (32768 * position + slotKey quarter index) s
    else s)

/-! ### Digests (R385) and the break of the ring -/

/-- CHAIN_DIGEST: passed on around the ring; the head compares it with its own. -/
def execChainDigest (pos digest : Nat) (s : State) : Result :=
  .next (
    if member s then (if pos = position s then s else sendDomino 0x84 (beBytes 1 pos ++ zeros 6 ++ beBytes 32 digest) s)
    else if headUp s && pos != 0 then judgeMembers (onChain (fun c => { c with digests := SMap.insert c.digests pos digest }) s)
    else s)

/-- Slot writes of a chain-wide table. -/
def chainJob (s : State) (j : ChainJob) : Bool := j.tables.any fun n => tdChain (tcamDef s.dict.live (n / 32) (n % 32))

/-- What the ring no longer carries of its own slot writes (sealed tables, relocations and a restored ring's) is taken by the head's map, from
which the members are written when the ring is restored. -/
def mapRewrite (j : ChainJob) (s : State) : State :=
  let s := j.acks.foldl (fun s a => match a.2 with
    | some h => setRemote a.1 h s
    | none => s) s
  (runJob { j with acks := [] } s).2

/-- The ring breaks: chain-wide lookups time out, and commands that write members fail with CHAIN_LINK and no effect (R63, R384, R386). -/
def breakRing (s : State) : State :=
  let jobs := (jobsOf { s with chain := { s.chain with rewrite := ChainJob.none } }).filter (chainJob s)
  let rewrite := s.chain.rewrite
  let s := setChainState 3 (onChain (fun c => { c with up := false, rewrite := ChainJob.none }) s)
  let s := jobs.foldl (fun s j => abandonJob j s) (mapRewrite rewrite s)
  let s := (s.headgate.slots.filter fun x => x.phase == .chainWait).foldl (fun s x => chainTimeout (slotClass x == 1) x.id s) s
  let s := (List.range 8).foldl (fun s r => match (ringAt s r).waiting with
    | some (.chain j _ q) => if chainJob s j then failCommand r 0x1B 0x2F1E (if q = 0 then s else sendAbort q s) else s
    | _ => s) s
  let lost := s.pair.chainWrites.filter fun e => chainJob s e.2
  let s := onPair (fun p => { p with chainWrites := p.chainWrites.filter fun e => !chainJob s e.2 }) s
  settleGrants ((lost.filter fun e => 2 ^ 64 ≤ e.1).foldl (fun s e => resyncApplied (e.1 % 2 ^ 80 - 2 ^ 64) (e.1 / 2 ^ 80) s) s)

/-- DOMINO_LINK_LOST. -/
def execDominoLinkLost (s : State) : Result := .next (if s.power.core && s.chain.up then breakRing s else s)

end Sys2Proof.Machine
end

