-- ==== Sys2Proof/Machine/Resume.lean ====
section
/-! DEFINITION. What lets waiting commands go on: the LPDDR5 shadows, and the end of a restart (R286, R296, R380, R428). -/

namespace Sys2Proof.Machine

/-- What waited for LPDDR5, the domain, Drowse, a mark, another command or a pause goes on: at the peer, across the chain, and on the rings. -/
def resumeAll (s : State) : State :=
  let s := resumeRings (resumeChain (resumePair s))
  settleFences 8 ((List.range 8).foldl skipWaiting s)

/-- LPDDR_TRAINING_FAILED (R428). -/
def execLpddrTrainingFailed (s : State) : Result := .next (if lpddrRuns s then resumeAll (trainingFailed s) else s)

/-- SHADOW_READY (R296). -/
def execShadowReady (s : State) : Result := .next (if lpddrRuns s then resumeAll (shadowFilled s) else s)

/-- EXT_READY (R200, R395): the sealed entries of extended tables are placed with class B's, or now (R186). -/
def execExtReady (s : State) : Result :=
  .next (
    if !lpddrRuns s then s
    else
      let t := extFilled s
      resumeAll (if bit t.modes.classReady 1 then placeDeferred t else t))

/-- Step 2 of a Sleep entry that has been told to the core: in Fallback it waits for the restart (R361). -/
def sleepSeal (s : State) : State :=
  if s.sluice.entry = 1 ∧ s.val O.domainState = 0 then
    let s := (commitAndSeal s).2
    { s with sluice := { s.sluice with entry := 2 } }
  else s

/-- RESTART_COMPLETE (R286, R70); the shadows that it restores from lie beyond the crossing of K5 (R16). -/
def execRestartComplete (s : State) : Result :=
  .next (if lpddrRuns s || s.val O.lpddrState == 4 then sleepSeal (resumeAll (endRestart s)) else s)

/-- Forwarded commands that wait at the secondary, slot writes that wait for the chain, and commands that wait on the rings, are tried again
(R61, R153, R371, R386). -/
def resumeWaiting (s : State) : State :=
  let s := s.pair.held.foldl (fun s p => if p.committed then applyPrepared p s else s) s
  (List.range 8).foldl skipWaiting (resumeRings (resumeChain s))

end Sys2Proof.Machine
end

