-- ==== Sys2Proof/Machine/Power.lean ====
section
/-! DEFINITION. Supplies, clocked domains, starts and Sleep entry (R11–R16, R23, R360–R363, R391–R396, R406, R411–R413, R426). -/

namespace Sys2Proof.Machine

/-! ### Powering down -/

/-- The RTC counts on from where it stood. -/
def restartRtc (c : Clock) (wall : Nat) : Clock :=
  if c.rtcHeld = 0 then c else { c with rtcStart := c.rtcStart + (wall + 1 - c.rtcHeld), rtcHeld := 0 }

/-- The core powers down: every block on the main rails loses its state, and what is kept on VAUX, on VBAT, in flash and in fuses stays
(R23, Table 16-6, R413), with cause VBAT_LOSS, which only a RECOVER bundle clears (R393), and the mode changes still to be journalled (R392). -/
def coreOff (s : State) : State :=
  let kept := SMap.filterKeys (fun k => 0x3E0000 ≤ k && k < 0x3F0000) s.dict.live
  { s with
    clock := restartRtc s.clock s.clock.wall
    power := { s.power with core := false, cleanSleep := false, tamperWake := false, wakeReassert := false }
    modes := { Modes.off s.modes.mode with locked := s.modes.locked &&& 4 }
    dict := { Dict.off with live := kept }
    mailbox := Mailbox.off
    can := Can.off
    keys := { s.keys with root := 0, rootUp := false, lost := [], slots := [], closed := false, barred := false, deferred := [], event := false }
    tally := { s.tally with recs := [], waiting := s.tally.waiting.filter fun w => w.1 == 0x0010, seen := [] }
    tamper := { s.tamper with
      active := clearBit s.tamper.active 12, early := false, alarmAt := 0
      numbered := if s.tally.waiting.any fun w => w.1 == 0x0020 then 0 else s.tamper.numbered }
    jack := ⟨[], 0, false, [], []⟩
    sluice := { s.sluice with entry := 0, waiting := [] }
    host := Pcie.off
    scratch := ⟨[], [], [], []⟩
    integ := { Integrity.off with vaultMoves := s.integ.vaultMoves }
    coh := Coherence.off
    results := ⟨[], [], [], [], [], []⟩
    buckets := Buckets.off
    tcam := Tcam.off
    furrow := Furrow.off
    headgate := Headgate.off
    pair := { Pair.off with role := s.pair.role, epoch := s.pair.epoch }
    chain := Chain.off }

/-- The core powers down without a completed Sleep entry; the next start counts it (Table 18-2). -/
def losePower (mode : Nat) (s : State) : State :=
  let s := coreOff s
  seedMesh (changeMode mode 0 { s with power := { s.power with unplanned := true } })

/-! ### VAUX and VBAT (R336, R363, R411–R413) -/

/-- VAUX_RISE: the always-on island leaves its reset (Table 19-3 step 3): SLEW is sampled, PWR_HOLD asserted, the mode is Sleep. The RTC starts
where the battery island had lost power (R427). -/
def execVauxRise (slew : Nat) (s : State) : Result :=
  onUnit (slew < 4) (
    if s.power.vaux then s
    else
      let clock := if s.clock.rtcOn then s.clock else { s.clock with rtcOn := true, rtcStart := s.clock.wall }
      seedMesh <| changeMode 0x08 0 { s with
        clock
        power := { s.power with vaux := true, vbat := true, slew, vauxRose := true }
        sluice := { Sluice.off with pwrHold := true } })

/-- The always-on island loses its supply: Sluice's held configuration and states, its counters, the pair's role and PairEpoch. -/
def islandOff (s : State) : State :=
  { s with
    sluice := Sluice.off
    dict := { s.dict with live := SMap.filterKeys (fun k => !(0x3E0000 ≤ k && k < 0x3F0000)) s.dict.live }
    pair := { s.pair with role := 0, epoch := 0 }
    power := { s.power with vaux := false, losses := 0, tamperWake := false, wakeReassert := false } }

/-- VAUX_LOSS: to Battery; with the main rails up it is also a loss of power (R363, R413). -/
def execVauxLoss (s : State) : Result :=
  .next (
    if !s.power.vaux then s
    else if s.power.core then islandOff (losePower 0x01 s)
    else seedMesh (changeMode 0x01 0 (islandOff s)))

/-- VBAT_LOST: with VAUX absent the battery island loses power: the vault decays, the arming copy returns to its defaults and the RTC stops
(R336, R343). -/
def execVbatLost (s : State) : Result :=
  .next (
    if s.power.vaux || !s.power.vbat then s
    else { s with
      power := { s.power with vbat := false }
      clock := { s.clock with rtcOn := false }
      tamper := Tamper.off
      keys := { s.keys with vault := { s.keys.vault with decayed := true } } })

/-! ### The start (Table 18-3) -/

/-- The cause of a start: the first of R426's conditions that holds. -/
def startCause (s : State) : Nat :=
  if s.power.vauxRose then 1 else if s.power.tamperWake then 3 else if s.power.cleanSleep && s.power.wakeReassert then 2 else 4

/-- The node-ID and its source (R27). -/
def nodeIdOf (strap : Nat) : Nat × Nat :=
  let otp := Config.otpNodeId.toNat
  if 1 ≤ otp ∧ otp ≤ 127 then (otp, 1) else if 1 ≤ strap ∧ strap ≤ 127 then (strap, 0) else (0, 2)

/-- PWR_GOOD_ASSERT: step 1 of the start sequence (R394, R421, R426). -/
def execPwrGoodAssert (nodeId : Nat) (secondary : Bool) (chainPos : Nat) (s : State) : Result :=
  onUnit (nodeId < 128 && chainPos < 4) (
    if !s.power.vaux || !s.power.vbat || s.power.core || s.modes.mode != 0x08 || !s.sluice.pwrHold then s
    else
      let id := nodeIdOf nodeId
      let s := changeMode 0x02 0 { s with
        clock := { s.clock with coreStart := s.clock.wall, timeAdj := 0, tickAdj := 0 }
        power := { s.power with
          goodAt := s.clock.wall, core := true, strapNode := nodeId, strapSecondary := secondary, strapChain := chainPos,
          cleanSleep := false, vauxRose := false, tamperWake := false, wakeReassert := false, unplanned := false,
          losses := if s.power.unplanned then (s.power.losses + 1) % 2 ^ 32 else s.power.losses }
        modes := { s.modes with startCause := startCause s }
        can := { s.can with nodeId := id.1, nodeSource := id.2 }
        tamper := { s.tamper with early := false }
        sluice := { s.sluice with heldConfig := s.sluice.configured }
        integ := { s.integ with puf := some s.clock.wall } }
      seedMesh s)

/-- The identity certificate in flash carries the device's identity public key (R312). -/
def certificateValid : Bool := identityPublic == beBytes 64 Config.certificateKey.toNat

/-- Word `w` of the PUF array, 8 KiB: its power-up pattern, until it is overwritten with zeros (R292). -/
def pufWord (s : State) (w : Nat) : BitVec 64 :=
  match s.integ.puf with
  | some t => Config.pufPattern t w
  | none => 0

/-- The PUF array has been read and passed to the key engine, and is overwritten with zeros (steps 1 and 2 of Table 13-2). -/
def takePuf (s : State) : State := onInteg (fun i => { i with puf := none }) s

/-- ROOT_RECONSTRUCTED: the root is there, or PUF_FAIL; an armed source in alarm clears it at once (R311, R339). CertificateValid false is a fault,
and a certificate that does not match is recorded; the type of that record is not stated. -/
def execRootReconstructed (ok : Bool) (s : State) : Result :=
  .next (
    if !s.power.core || s.modes.rootDone then s
    else
      let s := takePuf { s with modes := { s.modes with rootDone := true } }
      let alarm := alarmNow s || s.tamper.early
      let locked := s.modes.locked ||| (if alarm then 1 else 0) ||| (if ok then 0 else 2)
      if !ok then raiseFault 0x0171 0 (setLocked locked { s with keys := { s.keys with root := 1, rootUp := false } })
      else if alarm then raiseFault 0x0171 0 (setLocked locked { s with keys := { s.keys with root := 2, rootUp := false } })
      else
        let s := { s with keys := { s.keys with root := 0, rootUp := true } }
        if certificateValid then s
        else
          let (n, s) := drawFresh s
          raiseFault 0x0171 0 (journal ((Config.freeValue n).toNat % 65536) [] s))

/-- ON_CHIP_FILL_DONE: the PUF array has been read and overwritten, and every other on-chip SRAM but the vault holds zeros, the Marionettes' private
memories too (R292); the state of a powered-down core already has the other stores so. -/
def execOnChipFillDone (s : State) : Result :=
  .next (
    if !s.power.core || s.modes.fillDone then s
    else (onInteg (fun i => { i with ownMemory := [] }) (takePuf { s with modes := { s.modes with fillDone := true } })).put O.onChipFillTime (elapsed s / 1000))

/-- A firmware slot or image verifies (R396, Table 18-4). -/
def imageVerifies (b : Bytes) : Bool :=
  let n := be b 12 4
  be b 0 4 == 0x4B594657 && u8 b 4 == 1 && decide (1 ≤ n ∧ n ≤ 8388480 ∧ 128 + n ≤ b.length) &&
    sha256 (slice b 128 n) == slice b 16 32 &&
    ecdsaVerify (beBytes 64 Config.nymmecyRootKey.toNat) (b.take 64) (slice b 64 64) &&
    decide (Config.firmwareFloor.toNat ≤ u8 b 8)

/-- FirmwareVersion of an image. -/
def imageVersion (b : Bytes) : Nat := be b 8 4

/-- The slot that runs: the verifying one with the higher FirmwareVersion, slot 0 when they are equal. -/
def chosenSlot (s : State) : Option (Nat × Bytes) :=
  match imageVerifies s.flash.fw0, imageVerifies s.flash.fw1 with
  | true, true => if imageVersion s.flash.fw0 < imageVersion s.flash.fw1 then some (1, s.flash.fw1) else some (0, s.flash.fw0)
  | true, false => some (0, s.flash.fw0)
  | false, true => some (1, s.flash.fw1)
  | false, false => none

/-- A fresh vault header of the current epoch. -/
def freshVault (s : State) : Vault := { Vault.zero with magic := 0x5641554C, epoch := epochNow s }

/-- The vault is checked once the root is there (R314): a bad HeaderMac with no latched cause is VBAT_LOSS, and a commissioned device whose vault
is empty, zeroized or bad requires recovery (R322); live entries whose unwrap fails are lost. Without the root the stored RecoveryRequired stands. -/
def checkVault (s : State) : State :=
  let v := s.keys.vault
  if !s.keys.rootUp then (if v.recovery = 1 ∧ v.decayed = false then setLocked (s.modes.locked ||| 8) s else s)
  else
    if !v.decayed && v.mac == v.macOf then
      let bad := (SMap.filterKeys (fun h => let e := SMap.get VaultEntry.empty v.entries h
        e.state == 1 && (keyUnwrap vaultKey e.wrapped).isNone) v.entries).map (·.1)
      let s := { s with keys := { s.keys with lost := bad } }
      if v.recovery = 1 then setLocked (s.modes.locked ||| 8) s else s
    else
      let s := if v.decayed && s.tamper.cause == 0 then setLocked (s.modes.locked ||| 4) s else s
      let fresh := freshVault s
      if commissioned s then
        let (nonce, s) := drbg16 s
        setLocked (s.modes.locked ||| 8) (onVault (fun _ => { fresh with recovery := 1, nonce }) s)
      else onVault (fun _ => fresh) s

/-- Faults raised before the channels were served are reported after the boot-up message, as they were at the event (R32, R402). -/
def sendEarly (s : State) : State :=
  let es := s.modes.early
  es.foldl (fun s e => emcySpaced e.1 e.2 s) { s with modes := { s.modes with early := [] } }

/-- The boot-up message (R29). -/
def bootUp (s : State) : State := canSend (0x700 + s.can.nodeId) [0#8] s

/-- The Domino link of a device in a chain begins to train. -/
def startDomino (s : State) : State :=
  if inChain s || s.power.strapChain != 0 then emit (.training 9 (freshTraining false (0xD0 + s.power.strapChain))) s else s

/-- Steps 4 and 5 of the start, once a slot runs. -/
def startFirmware (slot : Nat) (b : Bytes) (s : State) : State :=
  let s := { s with modes := { s.modes with fwSlot := slot, fwBuild := slice b 16 32, fwVersion := imageVersion b } }
  let s := checkVault (if s.modes.locked = 0 then s else setLocked s.modes.locked s)
  let valid := s.keys.rootUp && s.keys.vault.mac == s.keys.vault.macOf
  let s := { s with
    modes := { s.modes with ready := true }
    can := { s.can with up := true } }
  let s := reconcileChain valid (sendEarly (bootUp (s.put O.lpddrState 1)))
  let s := drawNonce (journalWaiting s)
  let s := if s.tamper.cause = 0 then s else journalTamper (raiseFault 0x0151 s.tamper.cause s)
  let s := if s.val O.pairId ≠ 0 ∧ s.power.strapChain = 0 then enableCulvert s else s
  startDomino (startLinks s)

/-- FIRMWARE_VERIFIED: both slots are checked, and the chosen image runs or the device enters Halt (R396, Table 18-3). -/
def execFirmwareVerified (s : State) : Result :=
  .next (
    if !s.power.core || !s.modes.fillDone || !s.modes.rootDone || s.modes.ready || s.modes.halted || bit s.modes.refLost 5 then s
    else match chosenSlot s with
      | none => enterHalt 0x0160 0 s
      | some (slot, b) => startFirmware slot b s)

/-- Fill ends in the mode of R391 (Table 18-3 step 6). -/
def endFill (s : State) : State :=
  settleMode (if s.modes.locked = 0 then 0 else 0x0150) { s with modes := { s.modes with fillEnded := true } }

/-- FILL_END: step 6 of the start (R257, R323, R391). The arming objects then have the value of R23, and the battery island's copy takes it (R336). -/
def execFillEnd (s : State) : Result :=
  .next (
    if !s.power.core || !s.modes.ready || s.modes.fillEnded || s.modes.halted || bit s.modes.refLost 5 then s
    else
      let s := { s with buckets := { s.buckets with seedEpoch := epochNow s } }
      let s := s.put O.seedSource (if s.keys.rootUp then 0 else 1)
      let s := restoreFreshness (applyManifest s)
      let s := takeArming s
      let s := if s.val O.pairId ≠ 0 ∧ pairState s = 0 ∧ s.power.strapChain = 0 then enterPairing (enableCulvert s) else s
      let s := endFill s
      journal 0x0002 (beBytes 1 s.modes.startCause ++ beBytes 1 s.modes.mode ++ beBytes 1 (epochNow s)) s)

/-- CLASS_A_READY: step 7 of the start; the policing buckets are full (R131, R395). -/
def execClassAReady (s : State) : Result :=
  .next (
    if !s.power.core || !s.modes.fillEnded || s.modes.halted || bit s.modes.classReady 0 then s
    else
      let s := { s with modes := { s.modes with classReady := s.modes.classReady ||| 1 } }
      let s := s.put O.classAReadyTime (elapsed s / 1000)
      let s := (List.range 8).foldl (fun s m => fillLinkBucket m s) s
      onHeadgate (fun h => { h with authLevel := 65536, authAt := elapsed s }) s)

/-- CLASS_B_READY: step 8 of the start; the sealed entries of bucket tables are placed (R186, R395). -/
def execClassBReady (s : State) : Result :=
  .next (
    if !s.power.core || !bit s.modes.classReady 0 || s.modes.halted || bit s.modes.classReady 1 then s
    else
      let s := if s.val O.seedSource = 1 then journal 0x0034 [] s else s
      let s := placeDeferred s
      let s := { s with modes := { s.modes with classReady := s.modes.classReady ||| 2 } }
      s.put O.classBReadyTime (elapsed s / 1000))

/-! ### Loss of power, and Sleep (R360, R361, R413) -/

/-- PWR_GOOD_DEASSERT: low for 10 us; the core stops (R413, Table 18-2). -/
def execPwrGoodDeassert (s : State) : Result := .next (if s.power.core then losePower 0x08 s else s)

/-- SLEEP_ENTRY: steps 1 and 2 of Table 16-6; in Fallback the entry waits for the restart (R361). -/
def execSleepEntry (s : State) : Result :=
  .next (
    if !s.power.core || !sluiceRuns s || !allAsleep s || s.sluice.entry == 2 || decide (s.clock.wall < s.power.goodAt + 1000000000) then s
    else
      sleepSeal (if s.sluice.entry = 0 then { s with sluice := { s.sluice with entry := 1, entryAt := s.clock.wall } } else s))

/-- Steps 4 and 5 of Table 16-6, once Tally has committed what it can: the core powers down, the mode is Sleep, and PWR_HOLD is deasserted; a tamper
wake latched during the entry then asserts it again (R328, R340). -/
def sleepNow (s : State) : State :=
  let wake := s.power.tamperWake
  let s := seedMesh (changeMode 0x08 0 (coreOff (tallyCommit s)))
  let s := { s with
    power := { s.power with cleanSleep := true, tamperWake := wake }
    sluice := { s.sluice with pwrHold := false, pwrHoldFell := s.clock.wall, wakeWaits := false } }
  if wake then assertPwrHold s else s

/-- CORE_SLEEP: steps 3 to 5, after the seal. -/
def execCoreSleep (s : State) : Result :=
  .next (
    if !s.power.core || !sluiceRuns s || s.sluice.entry != 2 then s
    else sleepNow (if s.modes.fillEnded then writeSnapshot true (flashRuns s) s else s))

/-- SLEEP_ENTRY_TIMEOUT: steps 2 and 3 took longer than SleepEntryLimit, and step 4 follows anyway. -/
def execSleepEntryTimeout (s : State) : Result :=
  .next (
    if !s.power.core || !sluiceRuns s || s.sluice.entry == 0 then s
    else
      let s := s.bump O.sleepEntryTimeouts
      sleepNow (raiseFault 0x0170 (s.val O.sleepEntryTimeouts) s))

/-! ### References and clocked domains (R16) -/

/-- A domain's blocks stop with its reference: bit `k − 1` of `refLost` names it. -/
def stopDomain (k : Nat) (s : State) : State :=
  match k with
  | 1 => (List.range 8).foldl (fun s m => if (linkAt s m).state = 0 ∨ (linkAt s m).state = 4 then s else linkDown m s) s
  | 2 => if s.val O.culvertLinkState = 0 then s else s.put O.culvertLinkState 4
  | 3 => if s.chain.up then breakRing s else s
  | 4 => { s with host := { s.host with canSend := false } }
  | 8 => { s with modes := { s.modes with k8At := s.clock.wall + 1 } }
  | 9 => { s with clock := { s.clock with rtcHeld := s.clock.wall + 1 } }
  | _ => s

/-- A domain restarts: its links train again, the Timebase and the RTC count on from where they stood, and Sluice takes what was held. -/
def restartDomain (k : Nat) (s : State) : State :=
  match k with
  | 1 => if s.modes.halted then s else (List.range 8).foldl (fun s m =>
      if (linkAt s m).state = 4 then startTraining m (onLink m (fun l => { l with state := 1 }) s) else s) s
  | 2 => if s.modes.halted || s.val O.culvertLinkState != 4 then s else trainCulvert (pairState s != 1 && pairState s != 2) (s.put O.culvertLinkState 1)
  | 3 => if s.modes.halted then s else startDomino s
  | 8 => { s with
      clock := { s.clock with coreStart := s.clock.coreStart + (s.clock.wall + 1 - s.modes.k8At) }
      modes := { s.modes with k8At := 0 } }
  | 9 => takeHeld { s with clock := restartRtc s.clock s.clock.wall }
  | _ => s

/-- REFERENCE_LOST (R16, Table 18-7). -/
def execReferenceLost (domain : Nat) (s : State) : Result :=
  onUnit (1 ≤ domain && domain ≤ 9) (
    if !s.power.core || bit s.modes.refLost (domain - 1) then s
    else
      let s := stopDomain domain { s with modes := { s.modes with refLost := s.modes.refLost + 2 ^ (domain - 1) } }
      raiseFault 0x0110 s.modes.refLost s)

/-- REFERENCE_RESTORED: in range for 100 us, and its domain restarted (Table 18-7). -/
def execReferenceRestored (domain : Nat) (s : State) : Result :=
  onUnit (1 ≤ domain && domain ≤ 9) (
    if !s.power.core || !bit s.modes.refLost (domain - 1) then s
    else
      let s := resumeAll (restartDomain domain { s with modes := { s.modes with refLost := s.modes.refLost - 2 ^ (domain - 1) } })
      if s.modes.refLost = 0 then clearFault 0x0110 s else raiseFault 0x0110 s.modes.refLost s)

/-! ### Supplies, pace and telemetry (R11, R12, R402, R406) -/

/-- SUPPLY_RANGE_TIMER: a rail of 0x4020 outside its range for more than 100 us. -/
def execSupplyRangeTimer (rail : Nat) (s : State) : Result :=
  onUnit (1 ≤ rail && rail ≤ 9) (if s.power.core then raiseFault 0x0102 rail s else s)

/-- PACE_UPDATE: the quadrant paces, the lowest, and the pipeline rate; PACE_LOW below 1,200 (R11, R12). -/
def execPaceUpdate (p0 p1 p2 p3 : Nat) (s : State) : Result :=
  onUnit (p0 < 65536 && p1 < 65536 && p2 < 65536 && p3 < 65536) (
    if !s.power.core then s
    else
      let low := min (min p0 p1) (min p2 p3)
      let s := (((s.put (O.quadrantPace 0) p0).put (O.quadrantPace 1) p1).put (O.quadrantPace 2) p2).put (O.quadrantPace 3) p3
      let s := (s.put O.minPace low).put O.pipelineRate (low / 2)
      if low < 1200 then raiseFault 0x0101 low s else s)

/-- Put a list's items, `n` of them, as a row of objects of `w` bits. -/
def putRow (o : Nat → Nat) (w n : Nat) (vs : List Nat) (s : State) : State :=
  (List.range n).foldl (fun s i => s.put (o i) (vs.getD i 0 % 2 ^ w)) s

/-- The temperature faults (Table 18-7), in 0.1 °C. -/
def checkTemperature (s : State) : State :=
  let t := signed 16 (s.val O.maxTemp)
  let warn := signed 16 (s.obj O.tempWarning)
  let s := if warn < t then raiseFault 0x0103 (s.val O.maxTemp) s
    else if t ≤ warn - 50 then clearFault 0x0103 s else s
  if 1300 < t then raiseFault 0x0104 (s.val O.maxTemp) s
  else if t < 1250 then clearFault 0x0104 s else s

/-- TELEMETRY_UPDATE: the telemetry objects take their new values whole (R406, Table 18-10). -/
def execTelemetryUpdate (t : Telemetry) (s : State) : Result :=
  .next (
    if !s.power.core then s
    else
      let temps := (List.range 4).map fun i => t.temps.getD i 0 % 65536
      let top := temps.foldl (fun m v => if signed 16 m < signed 16 v then v else m) (temps.headD 0)
      let powers := (List.range 10).map fun i => t.powers.getD i 0 % 2 ^ 32
      let s := putRow O.quadrantTemp 16 4 temps s
      let s := (s.put O.maxTemp top).put O.batteryIslandTemp (t.battery % 65536)
      let s := putRow O.blockPower 32 10 powers (putRow O.railVoltage 16 9 t.rails s)
      let s := s.put O.totalPower (powers.sum % 2 ^ 32)
      let s := s.put O.searchRate (t.searches % 2 ^ 32)
      let s := (s.put O.topOperations (t.topOps % 2 ^ 32)).put O.sweepOperations (t.sweepOps % 2 ^ 32)
      checkTemperature (s.put O.backgroundShare (t.share % 65536)))

end Sys2Proof.Machine
end

