-- ==== Sys2Proof/Machine/Modes.lean ====
section
/-! DEFINITION. Drowse, firmware staging and the fault timers (R397–R399, R402). -/

namespace Sys2Proof.Machine

/-! ### Drowse (Table 18-5) -/

/-- A forwarded command, a chain-wide write or a resync is in progress. -/
def exchangeBusy (s : State) : Bool :=
  !s.pair.resyncs.isEmpty || !s.pair.held.isEmpty || !s.pair.incoming.isEmpty || !s.pair.owed.isEmpty ||
    s.host.rings.any fun g => match g.waiting with
      | none => false
      | some (.fence _ _) => false
      | some _ => true

/-- DROWSE_ENTRY: the conditions of R398 have held for DrowseIdle; new searches go to Lateral 0 only (step E1). -/
def execDrowseEntry (s : State) : Result :=
  .next (
    if s.power.core && s.obj O.drowseEnable != 0 && (s.modes.mode == 4 || s.modes.mode == 5) && !bit s.modes.quarantine 0 &&
      s.flag O.extReady && s.modes.drowse == 0 && s.modes.fwStage != 1 && !exchangeBusy s &&
      decide (s.modes.busyAt + s.obj O.drowseIdle * 1000000 ≤ s.clock.wall) then
      { s with modes := { s.modes with drowse := 1 } }
    else s)

/-- A class B or C search has not finished in one of Laterals 1 to 7. -/
def lateralsBusy (s : State) : Bool :=
  s.headgate.slots.any fun x => slotClass x != 1 && x.phase != .done && 1 ≤ x.lateral && x.lateral < 8

/-- DROWSE_LATERALS_DRAINED: steps E2 and E3; the mode is Drowse. The laps of Furrow and of LPDDR5 are interrupted, and their times do not count
(R293, R296). -/
def execDrowseLateralsDrained (s : State) : Result :=
  .next (
    if !s.power.core || s.modes.drowse != 1 || lateralsBusy s then s
    else
      let s := [1, 2, 3, 4, 5, 6, 7].foldl (fun s n => agentLeaves n s) s
      let s := [8, 0x11].foldl (fun s g => onScrub g (fun r => { r with interrupted := true }) s) s
      (settleMode 0 { s with modes := { s.modes with drowse := 2 } }).bump O.drowseEntries)

/-- DROWSE_EXIT_COMPLETE: step X4; assignment over all Laterals resumes, and what waited for the exit goes on. -/
def execDrowseExitComplete (s : State) : Result :=
  .next (
    if !s.power.core || !(s.modes.drowse == 3 || s.modes.drowse == 4) then s
    else
      let us := (s.clock.wall - s.modes.drowseTrigger) / 1000
      let s := settleMode 0 { s with modes := { s.modes with drowse := 0 } }
      resumeAll (s.peak O.drowseExitMax (min us 65535)))

/-- A write of 0x01 to DrowseExit. -/
def drowseExit (s : State) : State := drowseTrigger s

/-! ### Firmware staging (R397) -/

/-- The banks of a mask that no Marionette may access. -/
def stageRefused (s : State) (mask : Nat) : List Nat := (bitList 32 mask).filter fun b => !([1, 2, 3, 4].any fun m => mayAccess s m b)

/-- The image that the banks of a FirmwareStage write hold; none where a bank is not a Marionette's or a word cannot be read. -/
def stagedImage (mask length : Nat) (s : State) : Option Bytes :=
  if (stageRefused s mask).isEmpty then (readImage s mask (cdiv length 8 * 8)).map fun b => b.take length else none

/-- A FirmwareStage write: the device begins to check and program the image (R397, R408); banks refused are counted (R75). -/
def firmwareStage (v : Bytes) (s : State) : Option (Nat × Nat) × State :=
  if s.modes.fwStage = 1 then (some (0x08000022, 0x2040), s)
  else (none, countRefusals (stageRefused s (le v 0 4))
    { s with modes := { s.modes with fwStage := 1, fwImage := (stagedImage (le v 0 4) (le v 4 4) s).getD [] } })

/-- Put an image into the slot that does not run. -/
def programSlot (b : Bytes) (s : State) : State :=
  { s with flash := if s.modes.fwSlot = 0 then { s.flash with fw1 := b } else { s.flash with fw0 := b } }

/-- FIRMWARE_STAGE_DONE: the image is in the slot not running, or the staging failed at its first failing step; a slot whose programming
failed holds no stated content. -/
def execFirmwareStageDone (ok : Bool) (s : State) : Result :=
  .next (
    if !flashRuns s || s.modes.fwStage != 1 then s
    else
      let b := s.modes.fwImage
      let s := drowseBusy { s with modes := { s.modes with fwImage := [] } }
      if !imageVerifies b then { s with modes := { s.modes with fwStage := 3 } }
      else if ok then programSlot b { s with modes := { s.modes with fwStage := 2 } }
      else
        let junk := (List.range b.length).map fun i => BitVec.ofNat 8 (Config.freeValue (s.fresh + i)).toNat
        programSlot junk { s with modes := { s.modes with fwStage := 3 }, fresh := s.fresh + b.length })

/-! ### Fault timers (R402, Table 18-7) -/

/-- FAULT_CLEAR_TIMER: a clearing condition has held for its time. PACE_LOW also asks for a pace of 1,230. -/
def execFaultClearTimer (code : Nat) (s : State) : Result :=
  .next (
    if code = 0x0102 ∨ code = 0x0170 ∨ code = 0x0172 ∨ (code = 0x0101 ∧ 1230 ≤ s.val O.minPace) then clearFault code s else s)

/-- EMCY_SPACING_EXPIRED: the waiting report of a fault code is sent. -/
def execEmcySpacingExpired (code : Nat) (s : State) : Result :=
  .next (
    match s.modes.emcyWait.find? fun w => w.1 == code with
    | none => s
    | some w =>
      emcyNow w.1 w.2 { s with modes := { s.modes with emcyWait := s.modes.emcyWait.filter fun w => w.1 != code } })

end Sys2Proof.Machine
end

