-- ==== Sys2Proof/Machine/Access.lean ====
section
/-! DEFINITION. Reads and writes of dictionary objects on either channel: the checks in their order, kept responses, the staging set, and
what each written object does (R22–R25, R36–R46, R423). -/

namespace Sys2Proof.Machine

/-- A rejection: abort code and detail (Tables 2-8, 2-9). -/
abbrev Reject := Nat × Nat

/-- The channel is served: the mailbox while firmware runs and PCIe has its reference, the port while it takes part in bus traffic (R24). -/
def served (ch : Channel) (s : State) : Bool :=
  s.power.core && s.modes.ready && (match ch with
    | .pcie => !bit s.modes.refLost 3
    | .can => canTalks s && s.can.nmt != 0x04)

/-! ### The checks of R423 -/

/-- Check 2: the object exists. -/
def findObject (idx sub : Nat) : Reject ⊕ ObjRow :=
  match objRow? idx sub with
  | some r => .inr r
  | none => .inl (if indexExists idx then (0x06090011, 0x2002) else (0x06020000, 0x2001))

/-- The objects that Jack-Open alone serves (R347). -/
def jackObject (k : Nat) : Bool := k == O.jackMemoryRequest || k == O.jackMemoryData || k == O.marionetteHalt || k == O.traceControl

/-- Check 4 of a read. -/
def readMode (k : Nat) (s : State) : Option Reject :=
  if jackObject k && s.modes.mode != 0x0B then some (0x08000022, 0x200C) else none

/-- Check 4 of a write: every write in Halt, a Commit in R42's modes, a JackResponse in Fallback (R345). -/
def writeMode (k : Nat) (s : State) : Option Reject :=
  if s.modes.mode = 0x0C ∨ (k = O.commit ∧ [0x06, 0x0B, 0x09].contains s.modes.mode) ∨ (k = O.jackResponse ∧ s.modes.mode = 0x06) then
    some (0x08000022, 0x200C)
  else readMode k s


/-- Check 5 of a write: the access attribute, and the channel of JackResponse. -/
def writeAccess (ch : Channel) (k : Nat) (r : ObjRow) (s : State) : Option Reject :=
  match r.access with
  | .ro => some (0x06010002, 0x2003)
  | .const => some (0x06010002, 0x2003)
  | .sealed => some (0x08000020, 0x2007)
  | .stagedSealable => if sealedObject k s then some (0x08000020, 0x2007) else none
  | _ => if k = O.jackResponse ∧ ch = .pcie then some (0x08000020, 0x2D02) else none

/-- The object is in the scope of StagingLock. -/
def lockScope (k : Nat) (r : ObjRow) : Bool :=
  r.access == .staged || r.access == .stagedSealable || k == O.commit || k == O.stagingLock

/-- Check 6: the staging lock of the other channel (R38). -/
def lockedOut (ch : Channel) (k : Nat) (r : ObjRow) (s : State) : Option Reject :=
  let lock := s.val O.stagingLock
  if lockScope k r && ((lock == 1 && ch == .can) || (lock == 2 && ch == .pcie)) then some (0x08000020, 0x2009) else none

/-- Checks 4 to 6 of a write. -/
def writeGate (ch : Channel) (k : Nat) (r : ObjRow) (s : State) : Option Reject :=
  (writeMode k s).or ((writeAccess ch k r s).or (lockedOut ch k r s))

/-- Check 7 of a whole value. -/
def lengthCheck (r : ObjRow) (v : Bytes) : Option Reject := if v.length = r.size then none else some (0x06070010, 0x2005)

/-- Check 8. -/
def valueCheck (k : Nat) (r : ObjRow) (v : Bytes) (s : State) : Option Reject := (rangeDetail s k r v).map fun d => (0x06090030, d)

/-! ### What written objects do -/

/-- A staged write (R37). -/
def stage (k : Nat) (v : Bytes) (s : State) : Option Reject × State :=
  if (SMap.find? s.dict.staging k).isNone && decide (1024 ≤ s.dict.staging.length) then (some (0x08000022, 0x200A), s)
  else (none, { s with dict := { s.dict with staging := SMap.insert s.dict.staging k (leNat v) } })

/-- A byte of a Jack memory space whose contents the manual states: the Reservoir, the bucket tables (Table 8-2) with the overflow store behind
them, Furrow (Table 7-1), the TCAM shadows at 52 bytes a slot in the order of Table 6-4, the Flume stores in the order of Table 13-1, the
scratchpad and LPDDR5. What the Marionettes' firmware keeps in its memories, and where the Cistern holds a payload, is stated nowhere. Bytes
of a number stand least significant first, as in the Reservoir. DESIGN CHOICE. -/
def jackByte (s : State) (space a : Nat) : Option Byte :=
  match space with
  | 1 => some (BitVec.ofNat 8 (readGranule s (a / 16) / 256 ^ (a % 16)))
  | 2 => some (BitVec.ofNat 8 (onChipImage s (a / 32) / 256 ^ (a % 32)))
  | 3 => some (BitVec.ofNat 8 (furrowWord s (a / 8) / 256 ^ (a % 8)))
  | 4 => some (BitVec.ofNat 8 ((slotAt s (a / 52)).shadow.toNat / 256 ^ (51 - a % 52)))
  | 5 =>
    let v := if a < 0x40000 then SMap.get 0 s.results.verdict (a / 16)
      else if a < 0x80000 then SMap.get 0 s.results.flumeMeters ((a - 0x40000) / 16)
      else SMap.get 0 s.headgate.flumeFresh ((a - 0x80000) / 16)
    some (BitVec.ofNat 8 (v / 256 ^ (a % 16)))
  | 6 => if s.modes.ready then none else some (Memory.read s.integ.ownMemory a)
  | 7 => some (Memory.read s.scratch.mem a)
  | 8 => lpddrByte s a
  | _ => none

/-- The data of a Jack memory space (Table 15-7); a byte whose contents are not stated is free. -/
def jackRead (v : Bytes) (s : State) : State :=
  let off := le v 4 8
  let n := le v 12 4
  { s with
    jack := { s.jack with
      memory := (List.range n).map fun i => (jackByte s (u8 v 0) (off + i)).getD (BitVec.ofNat 8 (Config.freeValue (s.fresh + i)).toNat) }
    fresh := s.fresh + n }

/-- The effect of a JackResponse write: the nonce is drawn anew after it, and a rejection is counted (R345). -/
def jackWrite (v : Bytes) (fuse : Option Bool) (s : State) : Option Reject × State :=
  let (free, s) := drawFresh s
  jackResponse v (fuse.getD (bit (Config.freeValue free).toNat 0)) s

/-- Check 9 and the effect of a write, by object; `fuse` says whether an epoch fuse that is burned reads back, a free bit where the row
does not say. -/
def writeEffect (k : Nat) (v : Bytes) (fuse : Option Bool) (s : State) : Option Reject × State :=
  let n := leNat v
  if k = O.commit then (if n = 1 then commitNow s else (none, { s with dict := { s.dict with staging := [] } }))
  else if k = O.stagingLock then (none, s.put k n)
  else if O.bankOwner 0 ≤ k ∧ k ≤ O.bankOwner 31 then handOver (2 ^ (k - O.bankOwner 0)) n s
  else if k = O.bankHandover then handOver (bits n 31 0) (bits n 39 32) s
  else if O.bankCode 0 ≤ k ∧ k ≤ O.bankCode 31 then setBankCode (k - O.bankCode 0) n s
  else if O.linkAction 0 ≤ k ∧ k ≤ O.linkAction 7 then
    (if n = 1 then linkRetrain (k - O.linkAction 0) s else linkDiscardHeld (k - O.linkAction 0) s)
  else if k = O.moveLockClear then moveLockClear v s
  else if k = O.freshnessReset then freshnessReset n s
  else if k = O.attestRequest then attest v s
  else if k = O.sealNow then (none, (commitAndSeal s).2)
  else if k = O.advance then (none, setCursor (cursorNow s + n) s)
  else if k = O.cursor then (none, setCursor n s)
  else if k = O.tamperClear then tamperClear s
  else if k = O.jackResponse then jackWrite v fuse s
  else if k = O.jackMemoryRequest then (none, jackRead v (s.put k n))
  else if k = O.marionetteHalt then (none, s.put k n)
  else if k = O.traceControl then (none, s.put k n)
  else if k = O.hostRequest then (none, hostRequest n s)
  else if k = O.sleepAck then (none, sleepAck n s)
  else if k = O.sourceMaskClear then (none, sourceMaskClear n s)
  else if k = O.promote then promoteRole s
  else if k = O.pairRelease then pairRelease s
  else if k = O.drowseExit then (none, drowseExit s)
  else if k = O.firmwareStage then firmwareStage v s
  else stage k v s

/-- Checks 4 to 9 of a write of a whole value, and its effect. -/
def writeValue (ch : Channel) (k : Nat) (r : ObjRow) (v : Bytes) (fuse : Option Bool) (s : State) : Option Reject × State :=
  match (writeGate ch k r s).or ((lengthCheck r v).or (valueCheck k r v s)) with
  | some e => (some e, s)
  | none => writeEffect k v fuse s

/-! ### Responses and kept entries (R35, R43, R44) -/

/-- The response to a write with this outcome, the object's size as it stands now. -/
def writeResp (k : Nat) (e : Option Reject) (s : State) : Resp :=
  match e with
  | none => ⟨0, 0, 0, totalSize s k, []⟩
  | some (a, d) => ⟨1, a, d, totalSize s k, []⟩

/-- Keep the response of an executed write. -/
def keepEntry (e : Kept) (s : State) : State :=
  { s with dict := { s.dict with kept := e :: s.dict.kept.filter fun x => !(x.ch == e.ch && x.key == e.key) } }

/-- A JackResponse write that executed: a rejection is counted, and the nonce is drawn anew. -/
def afterJack (k : Nat) (e : Option Reject) (s : State) : State :=
  if k = O.jackResponse then drawNonce (if e.isSome then s.bump O.jackRejections else s) else s

/-- Write a whole value to an object that exists: check 3, then the rest (R43, R44, R423). -/
def writeWhole (ch : Channel) (k : Nat) (r : ObjRow) (data : Bytes) (fuse : Option Bool) (s : State) : Resp × State :=
  if !r.sequenced then
    let (e, s) := writeValue ch k r data fuse s
    (writeResp k e s, s)
  else match data with
    | [] => (writeResp k (some (0x06070010, 0x2005)) s, s)
    | q :: v =>
      match s.dict.kept.find? fun e => e.ch == ch && e.key == k && e.seq == q.toNat with
      | some e => if e.digest = sha256 v then (e.resp, s.bump O.keptResponses) else (writeResp k (some (0x08000020, 0x200B)) s, s)
      | none =>
        let (e, s) := writeValue ch k r v fuse s
        let s := afterJack k e s
        let resp := writeResp k e s
        (resp, keepEntry ⟨ch, k, q.toNat, sha256 v, resp⟩ s)

/-- Write an object by its index and subindex. -/
def writeObject (ch : Channel) (idx sub : Nat) (data : Bytes) (fuse : Option Bool) (s : State) : Resp × State :=
  match findObject idx sub with
  | .inl (a, d) => (⟨1, a, d, 0, []⟩, s)
  | .inr r => writeWhole ch (objKey idx sub) r data fuse s

/-! ### Reads -/

/-- Objects that a read clears. -/
def clearedByReading (k : Nat) : Bool :=
  k == O.sharedSlotsPeak || k == O.classAMaxLatency || k == O.flumeEntryPeak || k == O.wordsPeak || k == O.overflowPeak ||
    k == O.counterLoss || (O.queuePeak 0 ≤ k && k ≤ O.queuePeak 15) || k == O.drowseExitMax

/-- What reading an object does: a peak is cleared, the records of Tally's window are read (R331), and LastFailedKey arms its table's vector 22 again
(R195). -/
def afterRead (k : Nat) (s : State) : State :=
  if clearedByReading k then s.put k 0
  else if k = O.window then noteWindow s
  else if O.lastFailedKey 0 ≤ k ∧ k ≤ O.lastFailedKey 63 then
    { s with buckets := { s.buckets with disarmed := clearBit s.buckets.disarmed (k - O.lastFailedKey 0) } }
  else s

/-- Checks 2, 4, 5 and 7 of a read from an offset, and the whole value. -/
def readChecked (idx sub off : Nat) (s : State) : Reject ⊕ Bytes :=
  match findObject idx sub with
  | .inl e => .inl e
  | .inr r =>
    let k := objKey idx sub
    match readMode k s with
    | some e => .inl e
    | none =>
      if r.access = .wo then .inl (0x06010000, 0x2004)
      else
        let v := objBytes s k r
        if v.length ≤ off ∧ ¬ (off = 0 ∧ v.length = 0) then .inl (0x06070010, 0x200E) else .inr v

/-- The size that a response reports for an object, 0 for an absent one. -/
def sizeOf? (idx sub : Nat) (s : State) : Nat := if (objRow? idx sub).isSome then totalSize s (objKey idx sub) else 0

/-- Read up to `limit` bytes of an object from an offset. -/
def readObject (idx sub off limit : Nat) (s : State) : Resp × State :=
  match readChecked idx sub off s with
  | .inl (a, d) => (⟨1, a, d, sizeOf? idx sub s, []⟩, s)
  | .inr v => (⟨0, 0, 0, v.length, (v.drop off).take limit⟩, afterRead (objKey idx sub) s)

/-! ### Answers -/

/-- Count an answered request of a channel, and note a rejection (R45, Table 2-12). -/
def noteAnswer (ch : Channel) (r : Resp) (s : State) : State :=
  match ch with
  | .pcie =>
    let s := s.bump O.pcieRequests
    if r.status = 1 then ((s.bump O.pcieAborts).put O.lastDetailPcie r.detail).put O.lastAbortPcie r.abort else s
  | .can =>
    let s := s.bump O.canRequests
    if r.status = 1 then ((s.bump O.canAborts).put O.lastDetailCan r.detail).put O.lastAbortCan r.abort else s

/-- Answer an access whose framing is not told: the response, and on PCIe the mailbox vector (R33). -/
def answer (ch : Channel) (p : Resp × State) : State :=
  let s := emit (.answer ch p.1.abort p.1.detail p.1.data) (noteAnswer ch p.1 p.2)
  if ch = .pcie then vector 0 s else s

/-- A write of an object arrives whole on a channel. A PCIe request discards an unfinished assembly of another object (R34). DESIGN CHOICE: a row of
the CAN channel names no client, so it leaves an open USDO transfer as it is, and that transfer does not turn it away (R30). -/
def channelWrite (ch : Channel) (k : Nat) (data : Bytes) (fuse : Option Bool) (s : State) : State :=
  if !served ch s then s
  else
    let s := if ch = .pcie then { s with dict := { s.dict with assembly := none } } else s
    answer ch (writeObject ch (k / 256) (k % 256) data fuse s)

/-- A read of an object arrives on a channel. -/
def channelRead (ch : Channel) (k : Nat) (s : State) : State :=
  if !served ch s then s
  else
    let s := if ch = .pcie then { s with dict := { s.dict with assembly := none } } else s
    answer ch (readObject (k / 256) (k % 256) 0 65536 s)

/-! ### The commands -/

/-- COMMIT: 0x01 written to Commit with its sequence byte (R39). -/
def execCommit (ch : Channel) (seq : Nat) (s : State) : Result :=
  onUnit (seq < 256) (channelWrite ch O.commit [BitVec.ofNat 8 seq, 1#8] none s)

/-- DISCARD_STAGING: 0x02 written to Commit (R37). -/
def execDiscardStaging (ch : Channel) (seq : Nat) (s : State) : Result :=
  onUnit (seq < 256) (channelWrite ch O.commit [BitVec.ofNat 8 seq, 2#8] none s)

/-- STAGING_LOCK (R38). -/
def execStagingLock (ch : Channel) (value : Nat) (s : State) : Result :=
  onUnit (value < 256) (channelWrite ch O.stagingLock (leBytes 1 value) none s)

/-- OBJECT_WRITE: a write of any object, applied, staged or rejected by its attribute (R22). -/
def execObjectWrite (ch : Channel) (index sub : Nat) (data : Bytes) (s : State) : Result :=
  onUnit (index < 65536 && sub < 256) (channelWrite ch (objKey index sub) data none s)

/-- PEAK_READ_CLEAR (R110). -/
def execPeakReadClear (ch : Channel) (index sub : Nat) (s : State) : Result :=
  onUnit (index < 65536 && sub < 256) (channelRead ch (objKey index sub) s)

/-- LAST_FAILED_KEY_READ (R195). -/
def execLastFailedKeyRead (ch : Channel) (table : Nat) (s : State) : Result :=
  onUnit (table < 64) (channelRead ch (O.lastFailedKey table) s)

/-- BANK_OWNER (R74). -/
def execBankOwner (ch : Channel) (bank code : Nat) (s : State) : Result :=
  onUnit (bank < 32 && code < 256) (channelWrite ch (O.bankOwner bank) (leBytes 1 code) none s)

/-- BANK_HANDOVER (R74). -/
def execBankHandover (ch : Channel) (value : Nat) (s : State) : Result :=
  onUnit (value < 2 ^ 64) (channelWrite ch O.bankHandover (leBytes 8 value) none s)

/-- BANK_CODE (R79). -/
def execBankCode (ch : Channel) (bank code : Nat) (s : State) : Result :=
  onUnit (bank < 32 && code < 256) (channelWrite ch (O.bankCode bank) (leBytes 1 code) none s)

/-- LINK_RETRAIN: 1 written to LinkAction (R91). -/
def execLinkRetrain (ch : Channel) (link : Nat) (s : State) : Result :=
  onUnit (link < 8) (channelWrite ch (O.linkAction link) [1#8] none s)

/-- LINK_DISCARD_HELD: 2 written to LinkAction (R109). -/
def execLinkDiscardHeld (ch : Channel) (link : Nat) (s : State) : Result :=
  onUnit (link < 8) (channelWrite ch (O.linkAction link) [2#8] none s)

/-- MOVE_LOCK_CLEAR: the bytes written, sequence byte first (R211). -/
def execMoveLockClear (ch : Channel) (data : Bytes) (s : State) : Result := .next (channelWrite ch O.moveLockClear data none s)

/-- FRESHNESS_RESET (R259). -/
def execFreshnessReset (ch : Channel) (seq profile : Nat) (s : State) : Result :=
  onUnit (seq < 256 && profile < 256) (channelWrite ch O.freshnessReset [BitVec.ofNat 8 seq, BitVec.ofNat 8 profile] none s)

/-- SEAL_NOW (R329). -/
def execSealNow (ch : Channel) (seq : Nat) (s : State) : Result :=
  onUnit (seq < 256) (channelWrite ch O.sealNow [BitVec.ofNat 8 seq, 1#8] none s)

/-- ADVANCE (R332). -/
def execAdvance (ch : Channel) (seq value : Nat) (s : State) : Result :=
  onUnit (seq < 256 && value < 65536) (channelWrite ch O.advance (BitVec.ofNat 8 seq :: leBytes 2 value) none s)

/-- CURSOR (R332). -/
def execCursor (ch : Channel) (value : Nat) (s : State) : Result :=
  onUnit (value < 2 ^ 64) (channelWrite ch O.cursor (leBytes 8 value) none s)

/-- ATTEST_REQUEST (R326). -/
def execAttestRequest (ch : Channel) (data : Bytes) (s : State) : Result := .next (channelWrite ch O.attestRequest data none s)

/-- TAMPER_CLEAR (R342). -/
def execTamperClear (ch : Channel) (seq : Nat) (s : State) : Result :=
  onUnit (seq < 256) (channelWrite ch O.tamperClear [BitVec.ofNat 8 seq, 1#8] none s)

/-- JACK_RESPONSE (R345, R346). -/
def execJackResponse (ch : Channel) (data : Bytes) (fuseOk : Bool) (s : State) : Result :=
  .next (channelWrite ch O.jackResponse data (some fuseOk) s)

/-- JACK_MEMORY_REQUEST (R347). -/
def execJackMemoryRequest (ch : Channel) (data : Bytes) (s : State) : Result := .next (channelWrite ch O.jackMemoryRequest data none s)

/-- MARIONETTE_HALT (R347). -/
def execMarionetteHalt (ch : Channel) (value : Nat) (s : State) : Result :=
  onUnit (value < 256) (channelWrite ch O.marionetteHalt (leBytes 1 value) none s)

/-- TRACE_CONTROL (R347). -/
def execTraceControl (ch : Channel) (value : Nat) (s : State) : Result :=
  onUnit (value < 2 ^ 32) (channelWrite ch O.traceControl (leBytes 4 value) none s)

/-- HOST_REQUEST (R356). -/
def execHostRequest (ch : Channel) (value : Nat) (s : State) : Result :=
  onUnit (value < 2 ^ 64) (channelWrite ch O.hostRequest (leBytes 8 value) none s)

/-- SLEEP_ACK (R356). -/
def execSleepAck (ch : Channel) (value : Nat) (s : State) : Result :=
  onUnit (value < 2 ^ 64) (channelWrite ch O.sleepAck (leBytes 8 value) none s)

/-- SOURCE_MASK_CLEAR (R359). -/
def execSourceMaskClear (ch : Channel) (value : Nat) (s : State) : Result :=
  onUnit (value < 256) (channelWrite ch O.sourceMaskClear (leBytes 1 value) none s)

/-- PROMOTE (R370). -/
def execPromote (ch : Channel) (seq : Nat) (s : State) : Result :=
  onUnit (seq < 256) (channelWrite ch O.promote [BitVec.ofNat 8 seq, 1#8] none s)

/-- PAIR_RELEASE (R370). -/
def execPairRelease (ch : Channel) (seq : Nat) (s : State) : Result :=
  onUnit (seq < 256) (channelWrite ch O.pairRelease [BitVec.ofNat 8 seq, 1#8] none s)

/-- DROWSE_EXIT (R399). -/
def execDrowseExit (ch : Channel) (value : Nat) (s : State) : Result :=
  onUnit (value < 256) (channelWrite ch O.drowseExit (leBytes 1 value) none s)

/-- FIRMWARE_STAGE: the bytes written, sequence byte first (R397). -/
def execFirmwareStage (ch : Channel) (data : Bytes) (s : State) : Result := .next (channelWrite ch O.firmwareStage data none s)

/-! ### The mailbox (R33–R35) -/

/-- The fields of a request record (Table 2-5). -/
structure Request where
  op : Nat
  flags : Nat
  tag : Nat
  index : Nat
  sub : Nat
  offset : Nat
  length : Nat
  data : Bytes

/-- Read a request record. -/
def requestOf (b : Bytes) : Request :=
  ⟨u8 b 0, u8 b 1, le b 2 2, le b 4 2, u8 b 6, le b 8 4, le b 12 4, slice b 16 (min 4080 (le b 12 4))⟩

/-- Check 1: the record is well formed. -/
def requestOk (b : Bytes) (q : Request) : Bool :=
  u8 b 7 == 0 && ((q.op == 1 && q.flags == 0) || (q.op == 2 && q.flags < 2 && q.length ≤ 4080))

/-- One part of a write (R34). Checks 4 to 6 of an unsequenced object come before the part sequence. -/
def writePart (q : Request) (s : State) : Resp × State :=
  let k := objKey q.index q.sub
  let open_ := match s.dict.assembly with
    | some (k', b) => if k' = k then some b else none
    | none => none
  let have_ := if q.offset = 0 then some [] else open_.bind fun b => if q.offset = b.length then some b else none
  let setAssembly (a : Option (Nat × Bytes)) (s : State) : State := { s with dict := { s.dict with assembly := a } }
  match findObject q.index q.sub with
  | .inl (a, d) => (⟨1, a, d, 0, []⟩, setAssembly none s)
  | .inr r =>
    match have_ with
    | none =>
      let e := ((writeGate .pcie k r s).getD (0x06070010, 0x200E))
      (writeResp k (some e) s, setAssembly none s)
    | some b =>
      let whole := b ++ q.data
      if q.flags = 1 then writeWhole .pcie k r whole none (setAssembly none s)
      else match (if r.sequenced then none else writeGate .pcie k r s) with
        | some e => (writeResp k (some e) s, setAssembly none s)
        | none => (⟨2, 0, 0, totalSize s k, []⟩, setAssembly (some (k, whole)) s)

/-- Execute a request. -/
def runRequest (b : Bytes) (q : Request) (s : State) : Resp × State :=
  if !requestOk b q then (⟨1, 0x06010000, 0x200D, 0, []⟩, s)
  else if q.op = 1 then readObject q.index q.sub q.offset (min q.length 4072) { s with dict := { s.dict with assembly := none } }
  else writePart q s

/-- The response record (Table 2-6a). -/
def responseBytes (q : Request) (r : Resp) : Bytes :=
  leBytes 1 q.op ++ leBytes 1 r.status ++ leBytes 2 q.tag ++ leBytes 2 q.index ++ leBytes 1 q.sub ++ zeros 1 ++ leBytes 4 r.abort ++
  leBytes 2 r.detail ++ zeros 2 ++ leBytes 4 r.total ++ leBytes 4 r.data.length ++ r.data

/-- A doorbell write: discarded before Ready, counted while Busy, else the transaction runs (R33). -/
def ringDoorbell (s : State) : State :=
  if !served .pcie s then s
  else if s.mailbox.busy then s.bump O.mailboxBusyDoorbells
  else
    let b := Memory.readBytes s.mailbox.request 0 4096
    let q := requestOf b
    let (r, s) := runRequest b q s
    let s := { s with mailbox := { s.mailbox with response := Memory.writeBytes s.mailbox.response 0 (responseBytes q r) } }
    vector 0 (noteAnswer .pcie r s)

/-- MAILBOX_DOORBELL (R33). -/
def execMailboxDoorbell (s : State) : Result := .next (ringDoorbell s)

end Sys2Proof.Machine
end

