-- ==== Sys2Proof/Machine/Bar.lean ====
section
/-! DEFINITION. Register accesses in BAR0 (R53–R57, R67, Tables 3-2 and 3-3). -/

namespace Sys2Proof.Machine

/-! ### Reading -/

/-- The Status register of a ring. -/
def ringStatus (s : State) (r : Nat) : Nat :=
  let g := ringAt s r
  b2n g.enabled + 2 * b2n g.halted + 4 * b2n g.overrun + 8 * b2n (ringPaused s r)

/-- A 32-bit word of a ring's register block (Table 3-3). -/
def ringWord (s : State) (r off : Nat) : Nat :=
  let g := ringAt s r
  match off with
  | 0x00 => g.descBase % 2 ^ 32
  | 0x04 => g.descBase / 2 ^ 32
  | 0x08 => g.compBase % 2 ^ 32
  | 0x0C => g.compBase / 2 ^ 32
  | 0x10 => g.sizeLog2
  | 0x14 => b2n (g.enabled && g.disabling == 0)
  | 0x18 => g.producer
  | 0x1C => g.completion
  | 0x20 => ringStatus s r
  | 0x28 => g.haltTag
  | 0x2C => g.haltInfo
  | _ => 0

/-- An aligned 32-bit word of BAR0 outside the mailbox buffers; reserved and write-only words read 0. The pending-bit array shows the vectors
that are held back. -/
def barWord (s : State) (off : Nat) : Nat :=
  if off = 0x2004 then b2n s.mailbox.busy + 2 * b2n s.modes.ready
  else if off = 0x2008 then s.modes.mode
  else if 0x3000 ≤ off ∧ off < 0x3200 then ringWord s ((off - 0x3000) / 64) (off % 64)
  else if 0xE000 ≤ off ∧ off < 0xE200 then leNat (Memory.readBytes s.host.msixTable (off - 0xE000) 4)
  else if off = 0xF000 then (s.host.held.filter (· < 32)).foldl (fun m v => m ||| 2 ^ v) 0
  else 0

/-- The bytes that a read of the mailbox buffers returns. -/
def bufferRead (s : State) (off n : Nat) : Bytes :=
  (List.range n).map fun i =>
    let a := off + i
    if a < 0x1000 then Memory.read s.mailbox.request a
    else if a < 0x2000 then Memory.read s.mailbox.response (a - 0x1000)
    else 0

/-- A register access is an aligned 32-bit or 64-bit access. -/
def wellSized (off size : Nat) : Bool := (size == 4 && off % 4 == 0) || (size == 8 && off % 8 == 0)

/-- The data of a BAR0 read (R53). -/
def barRead (s : State) (off size : Nat) : Bytes :=
  if off < 0x2000 then bufferRead s off size
  else if !wellSized off size then zeros size
  else (List.range (size / 4)).flatMap fun i => leBytes 4 (barWord s (off + 4 * i))

/-! ### Writing -/

/-- Replace one 32-bit half of a base register; bits 5 to 0 ignore the value written. -/
def baseWith (old : Nat) (high : Bool) (v : Nat) : Nat :=
  if high then setBits old 63 32 v else setBits old 31 0 (v / 64 * 64)

/-- A 32-bit write to a ring's register block (Table 3-3). -/
def ringWordWrite (r off v : Nat) (s : State) : State :=
  let g := ringAt s r
  let free (f : Ring → Ring) : State := if g.enabled then s else onRing r f s
  match off with
  | 0x00 => free fun g => { g with descBase := baseWith g.descBase false v }
  | 0x04 => free fun g => { g with descBase := baseWith g.descBase true v }
  | 0x08 => free fun g => { g with compBase := baseWith g.compBase false v }
  | 0x0C => free fun g => { g with compBase := baseWith g.compBase true v }
  | 0x10 => if 4 ≤ v % 16 ∧ v % 16 ≤ 12 then free fun g => { g with sizeLog2 := v % 16 } else s
  | 0x14 => if bit v 0 then enableRing r s else clearEnable r false s
  | 0x18 => postDescriptors r v s
  | 0x24 => if v = 1 then clearHalt r s else if v = 2 then skipHalted r s else s
  | _ => s

/-- An aligned 32-bit write outside the mailbox buffers; reserved and read-only words discard it. A vector that is unmasked is sent. -/
def barWordWrite (off v : Nat) (s : State) : State :=
  if off = 0x2000 then ringDoorbell s
  else if 0x3000 ≤ off ∧ off < 0x3200 then ringWordWrite ((off - 0x3000) / 64) (off % 64) v s
  else if 0xE000 ≤ off ∧ off < 0xE200 then
    sendHeld { s with host := { s.host with msixTable := Memory.writeBytes s.host.msixTable (off - 0xE000) (leBytes 4 v) } }
  else s

/-- A write to the mailbox buffers: the request buffer takes it unless Busy, the response buffer discards it. -/
def bufferWrite (off : Nat) (data : Bytes) (s : State) : State :=
  if s.mailbox.busy then s
  else { s with mailbox := { s.mailbox with request := Memory.writeBytes s.mailbox.request off (data.take (0x1000 - off)) } }

/-- A BAR0 write (R53). -/
def barWrite (off : Nat) (data : Bytes) (s : State) : State :=
  if off < 0x2000 then bufferWrite off data s
  else if !wellSized off data.length then s
  else (List.range (data.length / 4)).foldl (fun s i => barWordWrite (off + 4 * i) (le data (4 * i) 4) s) s

/-- BAR0_REGISTER_WRITE: a read is answered, a write acts, a poisoned write is discarded and logged, and an access beyond the BAR is an
Unsupported Request (R53). -/
def execBar0RegisterWrite (acc : BarAccess) (s : State) : Result :=
  .next (
    if !endpointPowered s then s
    else if acc.write && acc.poisoned then discardTlp s
    else if acc.write then
      (if 0x10000 < acc.offset + acc.value.length then discardTlp s else barWrite acc.offset acc.value s)
    else if 0x10000 < acc.offset + acc.size then emit (.pcie 1 []) s
    else emit (.pcie 0 (barRead s acc.offset acc.size)) s)

end Sys2Proof.Machine
end

