-- ==== Sys2Proof/Machine/Can.lean ====
section
/-! DEFINITION. The management CAN FD port: USDO transfers, NMT, heartbeat, TPDOs and bus-off (R26–R31, R50). -/

namespace Sys2Proof.Machine

/-- Change the port. -/
def onCan (f : Can → Can) (s : State) : State := { s with can := f s.can }

/-! ### USDO (R30)

The manual takes the frames of a transfer from CiA 1301 without stating them: a value of at most 56 bytes moves in one frame, a longer one in
segments of at most 56 bytes. PRESUMED. -/

/-- Data bytes of one USDO frame. -/
def usdoRoom : Nat := 56

/-- Answer a USDO request, which came on 0x600 + node-ID: counted, and the response is sent on 0x580 + node-ID (R26). The bit rate switches as
it did before the request's effect: a commit's response goes out under the old timing (R28). -/
def usdoAnswer (brs : Bool) (client : Nat) (p : Resp × State) : State :=
  emit (.usdo (0x580 + p.2.can.nodeId) brs client p.1.abort p.1.detail p.1.data) (noteAnswer .can p.1 p.2)

/-- Reject a USDO request. -/
def usdoReject (client abort detail : Nat) (s : State) : State := usdoAnswer (brsNow s) client (⟨1, abort, detail, 0, []⟩, s)

/-- Accept a USDO request that moves these bytes to the client. -/
def usdoAccept (client : Nat) (data : Bytes) (s : State) : State := usdoAnswer (brsNow s) client (⟨0, 0, 0, data.length, data⟩, s)

/-- Open or close the transfer. -/
def setTransfer (t : Option Transfer) (s : State) : State := onCan (fun c => { c with transfer := t, abandoned := none }) s

/-- An initiate while another client's transfer is open. -/
def channelBusy (client : Nat) (s : State) : Bool :=
  match s.can.transfer with
  | some t => t.client != client
  | none => false

/-- An upload begins: the whole value, or its size and then segments. -/
def usdoUpload (client idx sub : Nat) (s : State) : State :=
  let (r, s) := readObject idx sub 0 65536 s
  if r.status = 0 ∧ usdoRoom < r.data.length then
    usdoAccept client (leBytes 4 r.data.length) (setTransfer (some ⟨client, objKey idx sub, false, r.data, r.data.length⟩) s)
  else usdoAnswer (brsNow s) client (r, s)

/-- A segmented download begins: existence, and for an unsequenced object mode, access and lock, are checked before any data (R423). -/
def usdoDownloadInit (client idx sub size : Nat) (s : State) : State :=
  match findObject idx sub with
  | .inl (a, d) => usdoReject client a d s
  | .inr r =>
    match (if r.sequenced then none else writeGate .can (objKey idx sub) r s) with
    | some (a, d) => usdoReject client a d s
    | none => usdoAccept client [] (setTransfer (some ⟨client, objKey idx sub, true, [], size⟩) s)

/-- A segment without an open transfer of its client, or of the other direction. -/
def strayStep (client : Nat) (s : State) : State := usdoReject client 0x08000022 0x2010 s

/-- A segment of an upload. -/
def usdoUploadSegment (client : Nat) (s : State) : State :=
  match s.can.transfer with
  | some t =>
    if t.client ≠ client ∨ t.download = true then strayStep client s
    else
      let rest := t.data.drop usdoRoom
      let s := onCan (fun c => { c with transfer := if rest.isEmpty then none else some { t with data := rest } }) s
      usdoAccept client (t.data.take usdoRoom) s
  | none => strayStep client s

/-- A segment of a download; the last one writes the value, whose length must be the one announced. -/
def usdoDownloadSegment (client : Nat) (data : Bytes) (last : Bool) (s : State) : State :=
  match s.can.transfer with
  | some t =>
    if t.client ≠ client ∨ t.download = false then strayStep client s
    else
      let got := t.data ++ data
      if t.size < got.length ∨ (last = true ∧ got.length ≠ t.size) then
        usdoReject client 0x06070010 0x2005 (onCan (fun c => { c with transfer := none }) s)
      else if last then
        usdoAnswer (brsNow s) client (writeObject .can (t.key / 256) (t.key % 256) got none (onCan (fun c => { c with transfer := none }) s))
      else usdoAccept client [] (onCan (fun c => { c with transfer := some { t with data := got } }) s)
  | none => strayStep client s

/-- An initiate of a client ends its own open transfer without a response. -/
def usdoInitiate (client : Nat) (f : State → State) (s : State) : State :=
  if channelBusy client s then usdoReject client 0x08000022 0x2011 s else f (setTransfer none s)

/-- USDO_REQUEST: a request or segment of a client (R30). -/
def execUsdoRequest (client : Nat) (req : Usdo) (s : State) : Result :=
  onUnit (1 ≤ client && client < 128) (
    if !served .can s then s
    else match req with
      | .upload i u => usdoInitiate client (usdoUpload client (i % 65536) (u % 256)) s
      | .uploadSegment => usdoUploadSegment client s
      | .download i u d => usdoInitiate client (fun s => usdoAnswer (brsNow s) client (writeObject .can (i % 65536) (u % 256) d none s)) s
      | .downloadInit i u n => usdoInitiate client (usdoDownloadInit client (i % 65536) (u % 256) n) s
      | .downloadSegment d l => usdoDownloadSegment client d l s)

/-- USDO_TIMEOUT: the open transfer was idle for 1 s and is abandoned (R30). -/
def execUsdoTimeout (s : State) : Result :=
  .next (match s.can.transfer with
    | none => s
    | some t => (onCan (fun c => { c with transfer := none, abandoned := some t.client }) s).bump O.transfersAbandoned)

/-! ### NMT (R29) -/

/-- An NMT command that reaches the port changes its state. -/
def nmtState (v : Nat) (s : State) : State := if canTalks s then onCan (fun c => { c with nmt := v }) s else s

/-- Reset communication: staged communication objects already hold their committed values; an open transfer ends without a response, a CAN
staging lock opens (R38), and the port boots up in Pre-operational. -/
def resetCommunication (s : State) : State :=
  if !canTalks s then s
  else
    let s := onCan (fun c => { c with nmt := 0x7F, transfer := none, abandoned := none }) s
    bootUp (if s.val O.stagingLock = 2 then s.put O.stagingLock 0 else s)

/-- NMT_START. -/
def execNmtStart (s : State) : Result := .next (nmtState 0x05 s)

/-- NMT_STOP. -/
def execNmtStop (s : State) : Result := .next (nmtState 0x04 s)

/-- NMT_ENTER_PRE_OPERATIONAL. -/
def execNmtEnterPreOperational (s : State) : Result := .next (nmtState 0x7F s)

/-- NMT_RESET_COMMUNICATION. -/
def execNmtResetCommunication (s : State) : Result := .next (resetCommunication s)

/-- NMT_RESET_NODE: the same as reset communication. -/
def execNmtResetNode (s : State) : Result := .next (resetCommunication s)

/-! ### Heartbeat and TPDOs (R31, R48) -/

/-- HEARTBEAT_TIMER: the heartbeat with the port's state, unless disabled. -/
def execHeartbeatTimer (s : State) : Result :=
  .next (if s.obj O.producerHeartbeatTime = 0 then s else canSend (0x700 + s.can.nodeId) (leBytes 1 s.can.nmt) s)

/-- The payload of TPDO `m`: its mapped objects in order, each whole, little-endian. -/
def tpdoData (m : Nat) (s : State) : Bytes :=
  (mappingIn s.obj m).flatMap fun v =>
    match objRow? (v / 65536) (v / 256 % 256) with
    | some r => objBytes s (v / 256) r
    | none => []

/-- TPDO `m` may be sent: the port is Operational, the TPDO is enabled and maps something. -/
def tpdoOn (m : Nat) (s : State) : Bool :=
  canTalks s && s.can.nmt == 0x05 && !bit (s.obj (O.tpdoCobId m)) 31 && s.obj (O.tpdoEventTimer m) != 0 && s.obj (O.tpdoMappingCount m) != 0

/-- The inhibit time since the last transmission of TPDO `m` has not passed. -/
def tpdoInhibited (m : Nat) (s : State) : Bool :=
  let last := SMap.get 0 s.can.tpdoAt m
  last != 0 && decide (s.clock.wall + 1 < last + s.obj (O.tpdoInhibitTime m) * 100000)

/-- Send TPDO `m`, and note when; what was due is sent by it. -/
def sendTpdo (m : Nat) (s : State) : State :=
  canSend (s.obj (O.tpdoCobId m)) (tpdoData m s)
    (onCan (fun c => { c with tpdoAt := SMap.set 0 c.tpdoAt m (s.clock.wall + 1), tpdoDue := clearBit c.tpdoDue m }) s)

/-- TPDO_EVENT_TIMER: sent in Operational where it is enabled and maps something; inside its inhibit time it is due at that time's end. -/
def execTpdoEventTimer (tpdo : Nat) (s : State) : Result :=
  onUnit (tpdo < 16) (
    if !tpdoOn tpdo s then s
    else if tpdoInhibited tpdo s then onCan (fun c => { c with tpdoDue := c.tpdoDue ||| 2 ^ tpdo }) s
    else sendTpdo tpdo s)

/-- Send a TPDO that is due once its inhibit time has passed; one that may no longer be sent is due no more. -/
def settleTpdo (s : State) (m : Nat) : State :=
  if !tpdoOn m s then onCan (fun c => { c with tpdoDue := clearBit c.tpdoDue m }) s
  else if tpdoInhibited m s then s
  else sendTpdo m s


/-! ### Bus-off and rejoining (R28, R50) -/

/-- CAN_BUS_OFF: the controller goes bus-off, and it is counted. -/
def execCanBusOff (s : State) : Result :=
  .next (if canTalks s then (onCan (fun c => { c with busOff := true }) s).bump O.canBusOffCount else s)

/-- BUS_OFF_RECOVERY: 128 occurrences of 11 recessive bits. -/
def execBusOffRecovery (s : State) : Result := .next (onCan (fun c => { c with busOff := false }) s)

/-- CAN_REJOIN: the port rejoins; after it was enabled again, it boots up (R50). -/
def execCanRejoin (s : State) : Result :=
  .next (
    if !s.can.rejoining then s
    else
      let boot := s.can.bootOnRejoin
      let s := onCan (fun c => { c with rejoining := false, bootOnRejoin := false, nmt := if boot then 0x7F else c.nmt }) s
      if boot then bootUp s else s)

end Sys2Proof.Machine
end

