-- ==== Sys2Proof/Machine/Dispatch.lean ====
section
/-! DEFINITION. The dispatch of every command to its meaning. -/

namespace Sys2Proof.Machine

/-- The effect of a command on everything but the queue. -/
def exec (i : Instr) (s : State) : Host.Outcome State Fault Refusal :=
  match i with
  | .vauxRise slew => Sys2Proof.Machine.execVauxRise slew s
  | .vauxLoss => Sys2Proof.Machine.execVauxLoss s
  | .pwrGoodAssert nodeId secondary chainPos => Sys2Proof.Machine.execPwrGoodAssert nodeId secondary chainPos s
  | .rootReconstructed ok => Sys2Proof.Machine.execRootReconstructed ok s
  | .onChipFillDone => Sys2Proof.Machine.execOnChipFillDone s
  | .firmwareVerified => Sys2Proof.Machine.execFirmwareVerified s
  | .fillEnd => Sys2Proof.Machine.execFillEnd s
  | .classAReady => Sys2Proof.Machine.execClassAReady s
  | .classBReady => Sys2Proof.Machine.execClassBReady s
  | .pwrGoodDeassert => Sys2Proof.Machine.execPwrGoodDeassert s
  | .supplyRangeTimer rail => Sys2Proof.Machine.execSupplyRangeTimer rail s
  | .referenceLost domain => Sys2Proof.Machine.execReferenceLost domain s
  | .paceUpdate p0 p1 p2 p3 => Sys2Proof.Machine.execPaceUpdate p0 p1 p2 p3 s
  | .telemetryUpdate t => Sys2Proof.Machine.execTelemetryUpdate t s
  | .dataParcelReceived link p => Sys2Proof.Machine.execDataParcelReceived link p s
  | .nullParcelReceived link p => Sys2Proof.Machine.execNullParcelReceived link p s
  | .payloadTimeout link cls tag => Sys2Proof.Machine.execPayloadTimeout link cls tag s
  | .replayTimer link => Sys2Proof.Machine.execReplayTimer link s
  | .laneLost link lane => Sys2Proof.Machine.execLaneLost link lane s
  | .linkUp link t => Sys2Proof.Machine.execLinkUp link t s
  | .creditTokenTimer link => Sys2Proof.Machine.execCreditTokenTimer link s
  | .searchRun slot => Sys2Proof.Machine.execSearchRun slot s
  | .macOperationDone slot => Sys2Proof.Machine.execMacOperationDone slot s
  | .resultTokenSend link cls span => Sys2Proof.Machine.execResultTokenSend link cls span s
  | .chainTimeoutA slot => Sys2Proof.Machine.execChainTimeoutA slot s
  | .counterFetchAdd home => Sys2Proof.Machine.execCounterFetchAdd home s
  | .meterIdleRefresh flume meter => Sys2Proof.Machine.execMeterIdleRefresh flume meter s
  | .learnApply slice => Sys2Proof.Machine.execLearnApply slice s
  | .refresh slice => Sys2Proof.Machine.execRefresh slice s
  | .agingSweepRead table => Sys2Proof.Machine.execAgingSweepRead table s
  | .ageDelete slice => Sys2Proof.Machine.execAgeDelete slice s
  | .mailboxDoorbell => Sys2Proof.Machine.execMailboxDoorbell s
  | .usdoRequest client req => Sys2Proof.Machine.execUsdoRequest client req s
  | .usdoTimeout => Sys2Proof.Machine.execUsdoTimeout s
  | .nmtStart => Sys2Proof.Machine.execNmtStart s
  | .nmtStop => Sys2Proof.Machine.execNmtStop s
  | .nmtEnterPreOperational => Sys2Proof.Machine.execNmtEnterPreOperational s
  | .nmtResetCommunication => Sys2Proof.Machine.execNmtResetCommunication s
  | .nmtResetNode => Sys2Proof.Machine.execNmtResetNode s
  | .heartbeatTimer => Sys2Proof.Machine.execHeartbeatTimer s
  | .tpdoEventTimer tpdo => Sys2Proof.Machine.execTpdoEventTimer tpdo s
  | .canBusOff => Sys2Proof.Machine.execCanBusOff s
  | .busOffRecovery => Sys2Proof.Machine.execBusOffRecovery s
  | .canRejoin => Sys2Proof.Machine.execCanRejoin s
  | .commit ch seq => Sys2Proof.Machine.execCommit ch seq s
  | .discardStaging ch seq => Sys2Proof.Machine.execDiscardStaging ch seq s
  | .stagingLock ch value => Sys2Proof.Machine.execStagingLock ch value s
  | .objectWrite ch index sub data => Sys2Proof.Machine.execObjectWrite ch index sub data s
  | .peakReadClear ch index sub => Sys2Proof.Machine.execPeakReadClear ch index sub s
  | .lastFailedKeyRead ch table => Sys2Proof.Machine.execLastFailedKeyRead ch table s
  | .pcieConventionalReset => Sys2Proof.Machine.execPcieConventionalReset s
  | .bar0RegisterWrite acc => Sys2Proof.Machine.execBar0RegisterWrite acc s
  | .scratchpadWindowWrite offset data poisoned => Sys2Proof.Machine.execScratchpadWindowWrite offset data poisoned s
  | .scratchpadWindowRead at_ length => Sys2Proof.Machine.execScratchpadWindowRead at_ length s
  | .aliasBitSet offset tlp => Sys2Proof.Machine.execAliasBitSet offset tlp s
  | .aliasBitClear offset tlp => Sys2Proof.Machine.execAliasBitClear offset tlp s
  | .ringEnable ring => Sys2Proof.Machine.execRingEnable ring s
  | .ringDisable ring => Sys2Proof.Machine.execRingDisable ring s
  | .producerIndex ring value => Sys2Proof.Machine.execProducerIndex ring value s
  | .haltRetry ring f => Sys2Proof.Machine.execHaltRetry ring f s
  | .haltSkip ring => Sys2Proof.Machine.execHaltSkip ring s
  | .tcamInsert ring f => Sys2Proof.Machine.execTcamInsert ring f s
  | .tcamDelete ring f => Sys2Proof.Machine.execTcamDelete ring f s
  | .tcamModifyResult ring f => Sys2Proof.Machine.execTcamModifyResult ring f s
  | .trieAdd ring f => Sys2Proof.Machine.execTrieAdd ring f s
  | .trieDelete ring f => Sys2Proof.Machine.execTrieDelete ring f s
  | .bucketInsert ring f => Sys2Proof.Machine.execBucketInsert ring f s
  | .bucketDelete ring f => Sys2Proof.Machine.execBucketDelete ring f s
  | .bucketUpdate ring f => Sys2Proof.Machine.execBucketUpdate ring f s
  | .resultWrite ring f => Sys2Proof.Machine.execResultWrite ring f s
  | .meterConfigure ring f => Sys2Proof.Machine.execMeterConfigure ring f s
  | .counterReadClear ring f => Sys2Proof.Machine.execCounterReadClear ring f s
  | .flowFlush ring f => Sys2Proof.Machine.execFlowFlush ring f s
  | .fence ring f => Sys2Proof.Machine.execFence ring f s
  | .fenceTimeout ring => Sys2Proof.Machine.execFenceTimeout ring s
  | .bulkLoad ring f => Sys2Proof.Machine.execBulkLoad ring f s
  | .tableDump ring f => Sys2Proof.Machine.execTableDump ring f s
  | .bundleSubmit ring f => Sys2Proof.Machine.execBundleSubmit ring f s
  | .blockPowerDown quarter block => Sys2Proof.Machine.execBlockPowerDown quarter block s
  | .drainMarkerDone table => Sys2Proof.Machine.execDrainMarkerDone table s
  | .bankOwner ch bank code => Sys2Proof.Machine.execBankOwner ch bank code s
  | .bankHandover ch value => Sys2Proof.Machine.execBankHandover ch value s
  | .bankCode ch bank code => Sys2Proof.Machine.execBankCode ch bank code s
  | .linkRetrain ch link => Sys2Proof.Machine.execLinkRetrain ch link s
  | .linkDiscardHeld ch link => Sys2Proof.Machine.execLinkDiscardHeld ch link s
  | .moveLockClear ch data => Sys2Proof.Machine.execMoveLockClear ch data s
  | .freshnessReset ch seq profile => Sys2Proof.Machine.execFreshnessReset ch seq profile s
  | .freshnessSnapshot ok => Sys2Proof.Machine.execFreshnessSnapshot ok s
  | .rds agent line => Sys2Proof.Machine.execRds agent line s
  | .rdo agent line => Sys2Proof.Machine.execRdo agent line s
  | .upg agent line => Sys2Proof.Machine.execUpg agent line s
  | .wbd agent at_ => Sys2Proof.Machine.execWbd agent at_ s
  | .evc agent line => Sys2Proof.Machine.execEvc agent line s
  | .cmp agent line => Sys2Proof.Machine.execCmp agent line s
  | .rdh req line mask => Sys2Proof.Machine.execRdh req line mask s
  | .wrh req line mask data => Sys2Proof.Machine.execWrh req line mask data s
  | .atm req at_ op => Sys2Proof.Machine.execAtm req at_ op s
  | .snpData agent at_ requester => Sys2Proof.Machine.execSnpData agent at_ requester s
  | .snpOwn agent at_ requester => Sys2Proof.Machine.execSnpOwn agent at_ requester s
  | .snpInv agent at_ => Sys2Proof.Machine.execSnpInv agent at_ s
  | .snpRecall agent at_ backInv => Sys2Proof.Machine.execSnpRecall agent at_ backInv s
  | .dataFwd agent at_ => Sys2Proof.Machine.execDataFwd agent at_ s
  | .rspI agent line => Sys2Proof.Machine.execRspI agent line s
  | .rspFwd agent line => Sys2Proof.Machine.execRspFwd agent line s
  | .rspFwdData agent at_ => Sys2Proof.Machine.execRspFwdData agent at_ s
  | .rspData agent at_ => Sys2Proof.Machine.execRspData agent at_ s
  | .rspEvInFlight agent line => Sys2Proof.Machine.execRspEvInFlight agent line s
  | .dataH agent at_ => Sys2Proof.Machine.execDataH agent at_ s
  | .grant agent line => Sys2Proof.Machine.execGrant agent line s
  | .nack req line => Sys2Proof.Machine.execNack req line s
  | .nackRetry req line => Sys2Proof.Machine.execNackRetry req line s
  | .atmRsp req line => Sys2Proof.Machine.execAtmRsp req line s
  | .wrAck req line => Sys2Proof.Machine.execWrAck req line s
  | .rdRsp req line => Sys2Proof.Machine.execRdRsp req line s
  | .evAck agent line => Sys2Proof.Machine.execEvAck agent line s
  | .capacityEviction agent at_ => Sys2Proof.Machine.execCapacityEviction agent at_ s
  | .holdEnd agent line => Sys2Proof.Machine.execHoldEnd agent line s
  | .snoopTimeout agent line => Sys2Proof.Machine.execSnoopTimeout agent line s
  | .transactionTimeout line => Sys2Proof.Machine.execTransactionTimeout line s
  | .restartComplete => Sys2Proof.Machine.execRestartComplete s
  | .checkpoint => Sys2Proof.Machine.execCheckpoint s
  | .poisonRepair store granule => Sys2Proof.Machine.execPoisonRepair store granule s
  | .topScrubVisit region obs => Sys2Proof.Machine.execTopScrubVisit region obs s
  | .outOfTurnScrub region word obs => Sys2Proof.Machine.execOutOfTurnScrub region word obs s
  | .yoyoScrub region obs => Sys2Proof.Machine.execYoyoScrub region obs s
  | .yoyoLapTimeout region => Sys2Proof.Machine.execYoyoLapTimeout region s
  | .weakWordRetest region word hard => Sys2Proof.Machine.execWeakWordRetest region word hard s
  | .mergeEntryRetire bank word => Sys2Proof.Machine.execMergeEntryRetire bank word s
  | .lpddrTrained density => Sys2Proof.Machine.execLpddrTrained density s
  | .lpddrTrainingFailed => Sys2Proof.Machine.execLpddrTrainingFailed s
  | .shadowReady => Sys2Proof.Machine.execShadowReady s
  | .extReady => Sys2Proof.Machine.execExtReady s
  | .lpddrFillDone => Sys2Proof.Machine.execLpddrFillDone s
  | .tallyCommit => Sys2Proof.Machine.execTallyCommit s
  | .sealNow ch seq => Sys2Proof.Machine.execSealNow ch seq s
  | .advance ch seq value => Sys2Proof.Machine.execAdvance ch seq value s
  | .cursor ch value => Sys2Proof.Machine.execCursor ch value s
  | .attestRequest ch data => Sys2Proof.Machine.execAttestRequest ch data s
  | .tamperAlarm source => Sys2Proof.Machine.execTamperAlarm source s
  | .tamperClear ch seq => Sys2Proof.Machine.execTamperClear ch seq s
  | .jackResponse ch data fuseOk => Sys2Proof.Machine.execJackResponse ch data fuseOk s
  | .jackNonceRedraw => Sys2Proof.Machine.execJackNonceRedraw s
  | .jackMemoryRequest ch data => Sys2Proof.Machine.execJackMemoryRequest ch data s
  | .marionetteHalt ch value => Sys2Proof.Machine.execMarionetteHalt ch value s
  | .traceControl ch value => Sys2Proof.Machine.execTraceControl ch value s
  | .wakePinActive pin => Sys2Proof.Machine.execWakePinActive pin s
  | .wakePinRelease pin => Sys2Proof.Machine.execWakePinRelease pin s
  | .wakeHit source => Sys2Proof.Machine.execWakeHit source s
  | .hostRequest ch value => Sys2Proof.Machine.execHostRequest ch value s
  | .sleepAck ch value => Sys2Proof.Machine.execSleepAck ch value s
  | .sourceMaskClear ch value => Sys2Proof.Machine.execSourceMaskClear ch value s
  | .sourceHoldExpired source => Sys2Proof.Machine.execSourceHoldExpired source s
  | .wakeSettleExpired pn => Sys2Proof.Machine.execWakeSettleExpired pn s
  | .holdTimeExpired pn => Sys2Proof.Machine.execHoldTimeExpired pn s
  | .ackTimeoutExpired pn => Sys2Proof.Machine.execAckTimeoutExpired pn s
  | .gateStepExpired pn => Sys2Proof.Machine.execGateStepExpired pn s
  | .latchedRewake pn => Sys2Proof.Machine.execLatchedRewake pn s
  | .sourceMaxAwake source pn => Sys2Proof.Machine.execSourceMaxAwake source pn s
  | .pnMaxAwake pn => Sys2Proof.Machine.execPnMaxAwake pn s
  | .wakeTimer timer => Sys2Proof.Machine.execWakeTimer timer s
  | .sleepEntry => Sys2Proof.Machine.execSleepEntry s
  | .coreSleep => Sys2Proof.Machine.execCoreSleep s
  | .sleepEntryTimeout => Sys2Proof.Machine.execSleepEntryTimeout s
  | .pwrHoldMinLow => Sys2Proof.Machine.execPwrHoldMinLow s
  | .helloTimer => Sys2Proof.Machine.execHelloTimer s
  | .hello m => Sys2Proof.Machine.execHello m s
  | .configDigest commitCount digest => Sys2Proof.Machine.execConfigDigest commitCount digest s
  | .configGraceExpired => Sys2Proof.Machine.execConfigGraceExpired s
  | .culvertLost => Sys2Proof.Machine.execCulvertLost s
  | .culvertUp => Sys2Proof.Machine.execCulvertUp s
  | .promote ch seq => Sys2Proof.Machine.execPromote ch seq s
  | .pairRelease ch seq => Sys2Proof.Machine.execPairRelease ch seq s
  | .cmdPrepare pairSeq desc block => Sys2Proof.Machine.execCmdPrepare pairSeq desc block s
  | .cmdVote status detail pairSeq => Sys2Proof.Machine.execCmdVote status detail pairSeq s
  | .cmdCommit pairSeq => Sys2Proof.Machine.execCmdCommit pairSeq s
  | .cmdAbort pairSeq => Sys2Proof.Machine.execCmdAbort pairSeq s
  | .cmdDone pairSeq => Sys2Proof.Machine.execCmdDone pairSeq s
  | .peerVoteTimeout pairSeq => Sys2Proof.Machine.execPeerVoteTimeout pairSeq s
  | .peerDoneTimeout pairSeq => Sys2Proof.Machine.execPeerDoneTimeout pairSeq s
  | .reservationTimeout pairSeq => Sys2Proof.Machine.execReservationTimeout pairSeq s
  | .imageData offset pairSeq data => Sys2Proof.Machine.execImageData offset pairSeq data s
  | .resultDigest link transition token => Sys2Proof.Machine.execResultDigest link transition token s
  | .compareTimeout link => Sys2Proof.Machine.execCompareTimeout link s
  | .timeTimer => Sys2Proof.Machine.execTimeTimer s
  | .time t1 t2 t3 t4 => Sys2Proof.Machine.execTime t1 t2 t3 t4 s
  | .stateDigestTimer => Sys2Proof.Machine.execStateDigestTimer s
  | .stateDigest pairSeq regions last => Sys2Proof.Machine.execStateDigest pairSeq regions last s
  | .resyncRequest region => Sys2Proof.Machine.execResyncRequest region s
  | .resyncData region offset data => Sys2Proof.Machine.execResyncData region offset data s
  | .resyncEnd region length pairSeq digest => Sys2Proof.Machine.execResyncEnd region length pairSeq digest s
  | .resyncDone region => Sys2Proof.Machine.execResyncDone region s
  | .dominoLinkUp => Sys2Proof.Machine.execDominoLinkUp s
  | .discover positions => Sys2Proof.Machine.execDiscover positions s
  | .memberId position uid => Sys2Proof.Machine.execMemberId position uid s
  | .lookup m => Sys2Proof.Machine.execLookup m s
  | .chainTimeoutBc slot => Sys2Proof.Machine.execChainTimeoutBc slot s
  | .write position quarter index shadow => Sys2Proof.Machine.execWrite position quarter index shadow s
  | .writeAck position quarter index => Sys2Proof.Machine.execWriteAck position quarter index s
  | .chainDigest position digest => Sys2Proof.Machine.execChainDigest position digest s
  | .drowseEntry => Sys2Proof.Machine.execDrowseEntry s
  | .drowseLateralsDrained => Sys2Proof.Machine.execDrowseLateralsDrained s
  | .drowseExit ch value => Sys2Proof.Machine.execDrowseExit ch value s
  | .drowseExitComplete => Sys2Proof.Machine.execDrowseExitComplete s
  | .firmwareStage ch data => Sys2Proof.Machine.execFirmwareStage ch data s
  | .firmwareStageDone ok => Sys2Proof.Machine.execFirmwareStageDone ok s
  | .quarantine unit => Sys2Proof.Machine.execQuarantine unit s
  | .marionetteHeartbeatTimeout marionette => Sys2Proof.Machine.execMarionetteHeartbeatTimeout marionette s
  | .faultClearTimer code => Sys2Proof.Machine.execFaultClearTimer code s
  | .emcySpacingExpired code => Sys2Proof.Machine.execEmcySpacingExpired code s
  | .tamperSourceCleared source => Sys2Proof.Machine.execTamperSourceCleared source s
  | .vbatLost => Sys2Proof.Machine.execVbatLost s
  | .pcieLinkUp speed trained => Sys2Proof.Machine.execPcieLinkUp speed trained s
  | .referenceRestored domain => Sys2Proof.Machine.execReferenceRestored domain s
  | .dominoLinkLost => Sys2Proof.Machine.execDominoLinkLost s
  | .undefinedControlBlock link => Sys2Proof.Machine.execUndefinedControlBlock link s

end Sys2Proof.Machine
end

