-- ==== Sys2Proof/Machine/Idle.lean ====
section
/-! DEFINITION. What the block does while no command waits: a nanosecond passes, and what waits for others' work is tried again. -/

namespace Sys2Proof.Machine

/-- A nanosecond passes: a domain failure that an operation of the device met stops the domain first (R283), the TPDOs whose inhibit time has ended
are sent (R31), and commands that wait for a mark, for another command on their table or for the chain go on where they can. Nothing else happens by
time alone. DESIGN CHOICE. -/
def passTime (s : State) : State :=
  let s := judgeDomain s
  let s := { s with clock := { s.clock with wall := s.clock.wall + 1 } }
  let s := if s.can.tpdoDue = 0 then s else (bitList 16 s.can.tpdoDue).foldl settleTpdo s
  if s.power.core then resumeWaiting s else s

end Sys2Proof.Machine
end

