-- ==== Sys2Proof/Machine/Step.lean ====
section
/-! DEFINITION. One step: the command at the front of the queue takes effect, or, with none waiting, a nanosecond passes. -/

namespace Sys2Proof.Machine

/-- Nothing waits: one nanosecond passes. DESIGN CHOICE. -/
def State.tick (s : State) : State := passTime s

/-- Take the command at the front of the queue and give it its effect. -/
def step (s : State) : Host.Outcome State Fault Refusal :=
  match s.pending with
  | [] => .next s.tick
  | i :: rest => exec i { s with pending := rest }

/-- The command that a word spells, put at the front of the queue. -/
def State.withFetchWord (s : State) (nbits w : Nat) : State :=
  match decodeTableWord nbits w with
  | some i => { s with pending := i :: s.pending }
  | none => s

end Sys2Proof.Machine
end

