-- ==== Sys2Proof/Safety.lean ====
section
/-! DEFINITION. The terms in which claims are made: what a command leaves alone, and what every state of the block keeps. -/

namespace Sys2Proof.Machine

/-! ### Frames -/

/-- The parts of the state: one for each of its blocks, with what tamper and PWR_HOLD keep of a wake taken apart from the rest of `power`; the
mode, the active faults and their reports, Drowse, and the instant that R398 counts from, from the rest of `modes`; the live objects from the rest of
the dictionary; the rings from the endpoint; the vault from the rest of the key engine; and the links and the search slots from the rest of Headgate. -/
inductive Part where
  | clock | power | wakes | modes | mode | faults | drowse | busy | live | dict | mailbox | can | keys | vault | flash | tally | tamper | jack | sluice
  | endpoint | rings | scratch | integ | coh | results | buckets | tcam | furrow | links | slots | headgate | pair | chain | pending | fresh | out
  deriving DecidableEq, Repr

/-- Modes but for the mode, the faults, Drowse and the last instant that kept the block from entering it. -/
def Modes.rest (m : Modes) : Modes :=
  { m with mode := 0, active := [], emcyAt := [], emcyWait := [], early := [], drowse := 0, drowseTrigger := 0, busyAt := 0 }

/-- The active faults and their reports. -/
def Modes.faults (m : Modes) : SMap Nat × SMap Nat × List (Nat × Bytes) × List (Nat × Bytes) := (m.active, m.emcyAt, m.emcyWait, m.early)

/-- Two states agree on a part. -/
def Part.same (s t : State) : Part → Prop
  | .clock => t.clock = s.clock
  | .power => { t.power with tamperWake := false, wakeReassert := false } = { s.power with tamperWake := false, wakeReassert := false }
  | .wakes => (t.power.tamperWake, t.power.wakeReassert) = (s.power.tamperWake, s.power.wakeReassert)
  | .modes => t.modes.rest = s.modes.rest
  | .mode => t.modes.mode = s.modes.mode
  | .faults => t.modes.faults = s.modes.faults
  | .drowse => (t.modes.drowse, t.modes.drowseTrigger) = (s.modes.drowse, s.modes.drowseTrigger)
  | .busy => t.modes.busyAt = s.modes.busyAt
  | .live => t.dict.live = s.dict.live
  | .dict => { t.dict with live := [] } = { s.dict with live := [] }
  | .mailbox => t.mailbox = s.mailbox
  | .can => t.can = s.can
  | .keys => { t.keys with vault := Vault.zero } = { s.keys with vault := Vault.zero }
  | .vault => t.keys.vault = s.keys.vault
  | .flash => t.flash = s.flash
  | .tally => t.tally = s.tally
  | .tamper => t.tamper = s.tamper
  | .jack => t.jack = s.jack
  | .sluice => t.sluice = s.sluice
  | .endpoint => { t.host with rings := [] } = { s.host with rings := [] }
  | .rings => t.host.rings = s.host.rings
  | .scratch => t.scratch = s.scratch
  | .integ => t.integ = s.integ
  | .coh => t.coh = s.coh
  | .results => t.results = s.results
  | .buckets => t.buckets = s.buckets
  | .tcam => t.tcam = s.tcam
  | .furrow => t.furrow = s.furrow
  | .links => t.headgate.links = s.headgate.links
  | .slots => t.headgate.slots = s.headgate.slots
  | .headgate => { t.headgate with links := [], slots := [] } = { s.headgate with links := [], slots := [] }
  | .pair => t.pair = s.pair
  | .chain => t.chain = s.chain
  | .pending => t.pending = s.pending
  | .fresh => t.fresh = s.fresh
  | .out => t.out = s.out

/-- `t` is `s` but for the parts named: every register, table, memory, queue and flag of every other part is unchanged. -/
def FramedBy (changed : List Part) (s t : State) : Prop := ∀ p : Part, p ∉ changed → p.same s t

/-- Of the dictionary, `t` differs from `s` in the live values of the objects named and in nothing else. -/
def ObjectsOnly (changed : List Nat) (s t : State) : Prop :=
  (∀ k, k ∉ changed → t.val k = s.val k) ∧ t.dict.staging = s.dict.staging ∧ t.dict.sealedBy = s.dict.sealedBy ∧
    t.dict.kept = s.dict.kept ∧ t.dict.assembly = s.dict.assembly

/-- The objects that a raised or cleared fault writes (R402). -/
def faultObjects : List Nat := [O.faultsRaised, O.lastFaultCode, O.lastFaultDetail, O.lastFaultTime, O.emcySuppressed]

/-- The parts that a raised or cleared fault writes: the active faults, their objects, and the EMCY message and vector 17 that report it. -/
def faultParts : List Part := [.faults, .live, .endpoint, .out]

/-- The parts that a journalled record writes: the Tally, the chain head in the vault, and vector 19. -/
def tallyParts : List Part := [.tally, .vault, .endpoint, .out]

/-- The parts that each command may change, whatever its outcome; what it stores, and where, the statements about the command say. -/
def reach (c : Instr) : List Part :=
  match c with
  | .nmtStart | .nmtStop | .nmtEnterPreOperational | .busOffRecovery => [.can]
  | .heartbeatTimer => [.out]
  | .blockPowerDown .. => [.tcam]
  | .lpddrTrained .. | .lpddrFillDone | .undefinedControlBlock .. => [.live]
  | .ringEnable .. | .ringDisable .. => [.rings]
  | .drainMarkerDone .. => [.furrow]
  | .drowseEntry => [.drowse]
  | .tamperSourceCleared .. => [.tamper]
  | .tpdoEventTimer .. | .canRejoin => [.can, .out]
  | .usdoTimeout | .canBusOff => [.live, .can]
  | .nack .. | .atmRsp .. | .wrAck .. | .rdRsp .. | .checkpoint => [.live, .coh]
  | .helloTimer | .timeTimer | .stateDigestTimer => [.pair, .out]
  | .write .. => [.tcam, .out]
  | .creditTokenTimer .. => [.links, .out]
  | .compareTimeout .. | .resyncDone .. => [.live, .pair]
  | .yoyoLapTimeout .. | .mergeEntryRetire .. => [.live, .integ]
  | .jackNonceRedraw => [.jack, .fresh]
  | .emcySpacingExpired .. => [.faults, .out]
  | .pwrHoldMinLow => [.wakes, .sluice]
  | .nmtResetCommunication | .nmtResetNode => [.live, .can, .out]
  | .onChipFillDone => [.modes, .live, .integ]
  | .counterFetchAdd .. | .meterIdleRefresh .. => [.live, .coh, .results]
  | .wakePinActive .. | .wakePinRelease .. | .wakeHit .. | .sourceHoldExpired .. | .wakeSettleExpired .. | .ackTimeoutExpired ..
  | .gateStepExpired .. | .latchedRewake .. | .wakeTimer .. => [.wakes, .live, .sluice]
  | .cmdAbort .. | .reservationTimeout .. => [.buckets, .tcam, .pair]
  | .pcieLinkUp .. => [.live, .endpoint, .out]
  | .agingSweepRead .. => [.live, .integ, .buckets]
  | .producerIndex .. => [.endpoint, .rings, .out]
  | .resyncRequest .. => [.drowse, .busy, .pair, .out]
  | .scratchpadWindowRead .. => [.live, .scratch, .fresh, .out]
  | .firmwareStageDone .. => [.modes, .busy, .flash, .fresh]
  | .replayTimer .. | .laneLost .. => [.live, .endpoint, .links, .out]
  | .supplyRangeTimer .. | .paceUpdate .. | .telemetryUpdate .. | .faultClearTimer .. => [.faults, .live, .endpoint, .out]
  | .vbatLost => [.clock, .power, .vault, .tamper]
  | .pcieConventionalReset => [.live, .mailbox, .endpoint, .rings]
  | .scratchpadWindowWrite .. | .aliasBitSet .. | .aliasBitClear .. => [.live, .scratch, .integ, .fresh, .out]
  | .haltSkip .. | .fenceTimeout .. => [.live, .keys, .endpoint, .rings, .out]
  | .resyncData .. => [.live, .scratch, .integ, .pair, .fresh]
  | .holdTimeExpired .. => [.wakes, .live, .sluice, .endpoint, .out]
  | .dominoLinkUp => [.faults, .live, .endpoint, .chain, .out]
  | .classAReady => [.modes, .live, .links, .slots, .headgate]
  | .cmdDone .. | .peerDoneTimeout .. => [.live, .keys, .endpoint, .rings, .pair, .out]
  | .resultDigest .. => [.live, .vault, .tally, .endpoint, .pair, .out]
  | .peakReadClear .. | .lastFailedKeyRead .. => [.live, .dict, .tally, .endpoint, .buckets, .out]
  | .sourceMaxAwake .. | .pnMaxAwake .. => [.live, .vault, .tally, .sluice, .endpoint, .out]
  | .linkUp .. => [.live, .keys, .endpoint, .rings, .links, .slots, .out]
  | .stateDigest .. => [.drowse, .busy, .vault, .tally, .endpoint, .pair, .out]
  | .freshnessSnapshot .. => [.faults, .live, .vault, .flash, .endpoint, .fresh, .out]
  | .chainDigest .. => [.faults, .live, .vault, .tally, .endpoint, .chain, .out]
  | .chainTimeoutA .. | .chainTimeoutBc .. => [.live, .endpoint, .buckets, .links, .slots, .headgate, .out]
  | .peerVoteTimeout .. => [.live, .keys, .endpoint, .rings, .buckets, .tcam, .pair, .out]
  | .time .. => [.clock, .live, .vault, .tally, .endpoint, .pair, .fresh, .out]
  | .learnApply .. | .refresh .. | .ageDelete .. => [.live, .vault, .tally, .endpoint, .integ, .coh, .buckets, .out]
  | .discover .. | .memberId .. => [.faults, .live, .vault, .tally, .endpoint, .tcam, .chain, .out]
  | .payloadTimeout .. => [.live, .endpoint, .results, .buckets, .links, .slots, .headgate, .out]
  | .tallyCommit => [.faults, .live, .flash, .tally, .endpoint, .scratch, .integ, .fresh, .out]
  | .sleepEntry => [.faults, .live, .flash, .tally, .sluice, .endpoint, .scratch, .integ, .fresh, .out]
  | .dataParcelReceived .. | .nullParcelReceived .. => [.drowse, .busy, .live, .endpoint, .results, .buckets, .links, .slots, .headgate, .out]
  | .vauxRise .. => [.clock, .power, .mode, .busy, .vault, .tally, .tamper, .sluice, .endpoint, .fresh, .out]
  | .resultTokenSend .. => [.live, .keys, .vault, .tally, .endpoint, .rings, .links, .slots, .headgate, .pair, .out]
  | .resyncEnd .. => [.live, .endpoint, .integ, .coh, .results, .buckets, .tcam, .furrow, .pair, .fresh, .out]
  | .poisonRepair .. => [.live, .integ, .coh, .results, .buckets, .tcam, .furrow, .headgate, .chain, .fresh, .out]
  | .macOperationDone .. => [.live, .vault, .tally, .endpoint, .coh, .results, .buckets, .links, .slots, .headgate, .out]
  | .rootReconstructed .. => [.modes, .mode, .faults, .busy, .live, .keys, .vault, .tally, .endpoint, .integ, .fresh, .out]
  | .weakWordRetest .. => [.live, .vault, .tally, .endpoint, .integ, .coh, .buckets, .tcam, .furrow, .chain, .fresh, .out]
  | .classBReady => [.modes, .live, .keys, .vault, .tally, .endpoint, .integ, .coh, .results, .buckets, .fresh, .out]
  | .configDigest .. | .configGraceExpired | .culvertUp
    => [.mode, .faults, .drowse, .busy, .live, .vault, .tally, .endpoint, .buckets, .tcam, .links, .pair, .out]
  | .dominoLinkLost => [.faults, .live, .keys, .endpoint, .rings, .buckets, .tcam, .links, .slots, .headgate, .pair, .chain, .out]
  | .hello .. => [.mode, .faults, .drowse, .busy, .live, .vault, .tally, .endpoint, .buckets, .tcam, .links, .pair, .chain, .out]
  | .tamperAlarm .. => [.wakes, .modes, .mode, .faults, .drowse, .busy, .live, .keys, .vault, .tally, .tamper, .sluice, .endpoint, .out]
  | .pwrGoodAssert .. => [.clock, .power, .wakes, .modes, .mode, .busy, .can, .vault, .tally, .tamper, .sluice, .endpoint, .integ, .fresh, .out]
  | .culvertLost => [.mode, .faults, .drowse, .busy, .live, .keys, .vault, .tally, .endpoint, .rings, .buckets, .tcam, .links, .pair, .out]
  | .referenceLost ..
    => [.clock, .modes, .faults, .live, .keys, .endpoint, .rings, .buckets, .tcam, .links, .slots, .headgate, .pair, .chain, .out]
  | .rds .. | .rdo .. | .upg .. | .wbd .. | .evc .. | .cmp .. | .rdh .. | .wrh .. | .atm .. | .snpData .. | .snpOwn .. | .snpInv ..
  | .snpRecall .. | .dataFwd .. | .rspI .. | .rspFwd .. | .rspFwdData .. | .rspData .. | .rspEvInFlight .. | .dataH .. | .grant ..
  | .nackRetry .. | .evAck .. | .capacityEviction .. | .holdEnd .. | .snoopTimeout .. | .transactionTimeout ..
    => [.mode, .faults, .busy, .live, .vault, .tally, .endpoint, .rings, .coh, .results, .buckets, .links, .slots, .headgate, .out]
  | .drowseLateralsDrained
    => [.mode, .faults, .drowse, .busy, .live, .vault, .tally, .endpoint, .rings, .integ, .coh, .results, .buckets, .links, .slots, .headgate,
       .out]
  | .writeAck ..
    => [.modes, .mode, .faults, .busy, .live, .keys, .vault, .flash, .tally, .endpoint, .rings, .scratch, .integ, .tcam, .pair, .chain, .fresh,
       .out]
  | .lookup ..
    => [.modes, .mode, .faults, .busy, .live, .vault, .tally, .sluice, .endpoint, .integ, .coh, .results, .buckets, .tcam, .links, .slots,
       .headgate, .out]
  | .searchRun ..
    => [.modes, .mode, .faults, .busy, .live, .vault, .tally, .jack, .sluice, .endpoint, .integ, .coh, .results, .buckets, .tcam, .links,
       .slots, .headgate, .fresh, .out]
  | .firmwareVerified
    => [.modes, .mode, .faults, .busy, .live, .can, .keys, .vault, .flash, .tally, .tamper, .jack, .sluice, .endpoint, .rings, .scratch, .integ,
       .links, .slots, .pair, .chain, .fresh, .out]
  | .quarantine .. | .marionetteHeartbeatTimeout ..
    => [.modes, .mode, .faults, .drowse, .busy, .live, .keys, .vault, .flash, .tally, .sluice, .endpoint, .rings, .scratch, .integ, .coh,
       .results, .buckets, .links, .slots, .headgate, .chain, .fresh, .out]
  | .topScrubVisit .. | .outOfTurnScrub .. | .yoyoScrub ..
    => [.modes, .mode, .faults, .drowse, .busy, .live, .keys, .vault, .flash, .tally, .sluice, .endpoint, .rings, .scratch, .integ, .coh,
       .results, .buckets, .tcam, .furrow, .links, .slots, .headgate, .chain, .fresh, .out]
  | .fillEnd
    => [.wakes, .modes, .mode, .faults, .drowse, .busy, .live, .dict, .can, .keys, .vault, .tally, .tamper, .sluice, .endpoint, .rings,
       .scratch, .integ, .coh, .results, .buckets, .tcam, .links, .slots, .headgate, .pair, .chain, .fresh, .out]
  | .usdoRequest .. | .commit .. | .discardStaging .. | .stagingLock .. | .objectWrite .. | .bankOwner .. | .bankHandover .. | .bankCode ..
  | .linkRetrain .. | .linkDiscardHeld .. | .moveLockClear .. | .freshnessReset .. | .sealNow .. | .advance .. | .cursor ..
  | .attestRequest .. | .tamperClear .. | .jackResponse .. | .jackMemoryRequest .. | .marionetteHalt .. | .traceControl ..
  | .hostRequest .. | .sleepAck .. | .sourceMaskClear .. | .promote .. | .pairRelease .. | .drowseExit .. | .firmwareStage ..
    => [.wakes, .modes, .mode, .faults, .drowse, .busy, .live, .dict, .can, .keys, .vault, .flash, .tally, .tamper, .jack, .sluice, .endpoint,
       .rings, .scratch, .integ, .coh, .results, .buckets, .tcam, .links, .slots, .headgate, .pair, .fresh, .out]
  | .haltRetry .. | .tcamInsert .. | .tcamDelete .. | .tcamModifyResult .. | .trieAdd .. | .trieDelete .. | .bucketInsert ..
  | .bucketDelete .. | .bucketUpdate .. | .resultWrite .. | .meterConfigure .. | .counterReadClear .. | .flowFlush .. | .fence ..
  | .bulkLoad .. | .tableDump .. | .bundleSubmit .. | .cmdPrepare .. | .cmdVote .. | .cmdCommit .. | .imageData ..
    => [.wakes, .modes, .mode, .faults, .drowse, .busy, .live, .dict, .can, .keys, .vault, .flash, .tally, .tamper, .sluice, .endpoint, .rings,
       .scratch, .integ, .coh, .results, .buckets, .tcam, .furrow, .links, .slots, .headgate, .pair, .fresh, .out]
  | .mailboxDoorbell | .bar0RegisterWrite ..
    => [.wakes, .modes, .mode, .faults, .drowse, .busy, .live, .dict, .mailbox, .can, .keys, .vault, .flash, .tally, .tamper, .jack, .sluice,
       .endpoint, .rings, .scratch, .integ, .coh, .results, .buckets, .tcam, .links, .slots, .headgate, .pair, .fresh, .out]
  | .restartComplete | .lpddrTrainingFailed | .shadowReady | .extReady | .drowseExitComplete
    => [.wakes, .modes, .mode, .faults, .drowse, .busy, .live, .dict, .can, .keys, .vault, .flash, .tally, .tamper, .sluice, .endpoint, .rings,
       .scratch, .integ, .coh, .results, .buckets, .tcam, .furrow, .links, .slots, .headgate, .pair, .chain, .fresh, .out]
  | .referenceRestored ..
    => [.clock, .wakes, .modes, .mode, .faults, .drowse, .busy, .live, .dict, .can, .keys, .vault, .flash, .tally, .tamper, .sluice, .endpoint,
       .rings, .scratch, .integ, .coh, .results, .buckets, .tcam, .furrow, .links, .slots, .headgate, .pair, .chain, .fresh, .out]
  | .vauxLoss | .pwrGoodDeassert
    => [.clock, .power, .wakes, .modes, .mode, .faults, .drowse, .busy, .live, .dict, .mailbox, .can, .keys, .vault, .tally, .tamper, .jack,
       .sluice, .endpoint, .rings, .scratch, .integ, .coh, .results, .buckets, .tcam, .furrow, .links, .slots, .headgate, .pair, .chain, .fresh,
       .out]
  | .coreSleep | .sleepEntryTimeout
    => [.clock, .power, .wakes, .modes, .mode, .faults, .drowse, .busy, .live, .dict, .mailbox, .can, .keys, .vault, .flash, .tally, .tamper,
       .jack, .sluice, .endpoint, .rings, .scratch, .integ, .coh, .results, .buckets, .tcam, .furrow, .links, .slots, .headgate, .pair, .chain,
       .fresh, .out]

/-! ### A ring command that executes -/

/-- The next descriptor of ring `r` is `d`, of opcode `op`, with the operand block `b`; it passes every check that comes before its own (R424):
the ring may execute it, it and its block are fetched, it keeps Table 3-5, its tag is not kept, the mode and the pair role let it run, it is not
forwarded, it does not wait for Drowse, and no command under way and no search's mark keeps its tables (R61, R153). -/
def Runs (r op : Nat) (f : Fetch) (d b : Bytes) (s : State) : Prop :=
  r < 8 ∧ ringReady s r = true ∧ f.desc = some d ∧ d.length = 64 ∧ dsOpcode d = op ∧ descriptorOk d = true ∧
    (if dsIndirect d = true then f.block = some b ∧ b.length = dsLength d else b = []) ∧
    (∀ t ∈ (ringAt s r).tags, dsTag d = 0 ∨ t.tag ≠ dsTag d) ∧ modeCheck s op = none ∧ primaryPaired s = false ∧
    (wakesDrowse d b s = true → asleep s = false) ∧ serialized r d b s = false ∧ markHolds d b s = false

/-- The state in which that command executes: ring `r` has taken up the descriptor and its operand block, and a command that ends Drowse has (R399). -/
def takenUp (r : Nat) (d b : Bytes) (s : State) : State :=
  let s := setDesc r d b s
  if wakesDrowse d b s = true then drowseTrigger s else s

/-- The state after the command of ring `r` completed with DONE: its record is written, and fences that it met complete too. -/
def completed (r result : Nat) (f : Fetch) (s : State) : State := settleFences 8 (completeCommand r 0 result f.compOk s)

/-! ### With no command waiting -/

/-- Nothing waits that passing time could let go on (R31, R61, R70, R153, R283): no illegal message of the domain is still to be judged, no TPDO is
due, and, while the core runs, no ring, no command of the peer and no slot write of the chain waits to be tried again. -/
def AtRest (s : State) : Prop :=
  s.coh.illegal = none ∧ s.can.tpdoDue = 0 ∧
    (s.power.core = true →
      (∀ r < 8, (ringAt s r).skip = false ∧ ((ringAt s r).waiting = none ∨ ∃ ts sl, (ringAt s r).waiting = some (.fence ts sl))) ∧
      s.pair.held = [] ∧ s.pair.chainWrites = [] ∧ s.val O.chainState ≠ 1 ∧ s.chain.rewrite.over = true)

/-! ### The coherent domain -/

/-- No message of `m`'s channel that is of its line, or goes between its two ends, was sent before it: a command that names it delivers it. -/
def Oldest (m : Msg) (s : State) : Prop :=
  s.coh.net.find? (fun x => x.kind.channel == m.kind.channel && (x.line == m.line || (x.src == m.src && x.dst == m.dst))) = some m

/-- A transaction, a queued request or a message stands on the line. -/
def lineBusy (s : State) (line : Nat) : Bool :=
  lineOpen s line || s.coh.queues.any (fun q => q.line == line) || s.coh.net.any fun m => m.line == line

/-- No message, no queued or retried request and no transaction of the domain is under way. -/
def Quiet (s : State) : Prop := s.coh.net = [] ∧ s.coh.open_ = [] ∧ s.coh.queues = [] ∧ s.coh.nacked = [] ∧ s.coh.crossing = []

/-- Nothing is under way in the domain, the line has a directory entry or its set has room for one (R277), and its copies are those that its entry
tells of, none of them in its hold time (R273, R274). -/
def Still (s : State) (line : Nat) : Prop :=
  Quiet s ∧ (dirOf s line = none → (setOf s line).length + waysOff s line < 16) ∧
    ∀ a c, cacheLine? s a line = some c → a < 15 ∧ c.hold = false ∧
      ∃ d, dirOf s line = some d ∧ (if d.dx = true then d.owner = a ∧ (c.st = .e ∨ c.st = .m) else c.st = .s)

/-- Nothing is under way in the domain, no unit holds the line, and its set has room for its directory entry. -/
def AtHome (s : State) (line : Nat) : Prop := Still s line ∧ dirOf s line = none

/-- The domain, which ran in `s`, has failed in `t`: it is held where it may not restart (R284, R287, R296), and else restarts; the cause and the unit
are kept, every cache, directory, queue, transaction and message is lost, home memory stays, and DOMAIN_FAILURE is active. -/
def Falls (cause unit : Nat) (s t : State) : Prop :=
  t.val O.domainState =
      (if s.flag O.shadowReady = false ∨ (s.coh.restartEnd ≠ 0 ∧ s.clock.wall + 1 < s.coh.restartEnd + 1000000000) then 2 else 1) ∧
    t.val O.lastFailureCause = cause ∧ t.obj O.lastFailureUnit = unit ∧
    t.coh = { s.coh with caches := [], dir := [], queues := [], open_ := [], net := [], nacked := [], crossing := [], failedAt := s.clock.wall, illegal := none } ∧
    t.results.posted = [] ∧ faultActive 0x0120 t = true

/-! ### Object accesses -/

/-- A write of the whole value `v` to object `k` over `ch` passes checks 2 and 4 to 8 of R423, and the channel serves it. -/
def Writable (ch : Channel) (k : Nat) (v : Bytes) (s : State) : Prop :=
  served ch s = true ∧ ∃ r, objRow? (k / 256) (k % 256) = some r ∧ writeGate ch k r s = none ∧ lengthCheck r v = none ∧ valueCheck k r v s = none

/-- The channel keeps no response for this object and sequence byte: the write is executed (R44). -/
def NewSequence (ch : Channel) (k seq : Nat) (s : State) : Prop := ∀ e ∈ s.dict.kept, e.ch = ch → e.key = k → e.seq ≠ seq

/-- The object that counts a channel's requests. -/
def requestCount : Channel → Nat
  | .pcie => O.pcieRequests
  | .can => O.canRequests

/-- `t` is `u` once the access was answered with these codes: the request is counted, the response is kept where the object is sequenced, and
the answer has left, with vector 0 on PCIe; nothing else changed. -/
def Answers (ch : Channel) (abort detail : Nat) (data : Bytes) (u t : State) : Prop :=
  FramedBy [.live, .dict, .endpoint, .out] u t ∧ t.val (requestCount ch) = (u.val (requestCount ch) + 1) % 2 ^ 32 ∧
    (abort = 0 → ∀ k, k ≠ requestCount ch → t.val k = u.val k) ∧ t.dict.staging = u.dict.staging ∧ t.dict.sealedBy = u.dict.sealedBy ∧
    t.out = (if ch = .pcie ∧ vectorOpen 0 u = true then [Output.msix 0] else []) ++ .answer ch abort detail data :: u.out

/-- The command `c`, an access over `ch`, is answered with these codes and data after an effect that took `s` to a state `u` of which `P` holds: of
what `parts` does not name nothing changed, and of the dictionary but its live values no more than an unfinished mailbox assembly is gone. -/
def Done (c : Instr) (ch : Channel) (abort detail : Nat) (data : Bytes) (parts : List Part) (s : State) (P : State → Prop) : Prop :=
  ∃ u t, exec c s = .next t ∧ Answers ch abort detail data u t ∧ FramedBy (.dict :: parts) s u ∧ u.dict.staging = s.dict.staging ∧
    u.dict.sealedBy = s.dict.sealedBy ∧ u.dict.kept = s.dict.kept ∧ P u

/-- The write `c` is executed: accepted with an effect. -/
def Does (c : Instr) (ch : Channel) (parts : List Part) (s : State) (P : State → Prop) : Prop := Done c ch 0 0 [] parts s P

/-- The write `c` is rejected at check 9, and has no effect. -/
def Refuses (c : Instr) (ch : Channel) (abort detail : Nat) (s : State) : Prop := Done c ch abort detail [] [] s fun _ => True

/-! ### Sluice -/

/-- The record of a PN after an unmasked event of source `src` (Table 16-5). -/
def wokenPn (src : Nat) (r : Pn) : Pn :=
  match r.state with
  | 1 => if r.rewake then r else { r with state := 2, latched := false, rewake := false, waker := src }
  | 4 => { r with state := 3 }
  | 5 => { r with state := 3 }
  | 6 => { r with latched := true, waker := src }
  | _ => r

/-- The event of source `src` reaches PN `p`: both are defined, and the source is not masked for it (R353, R359). -/
def reaches (s : State) (src p : Nat) : Bool := sourceDefined s src && pnDefined s p && !bit (maskOf s src) p

/-- What an event of source `src` does to PN `p` of its mask: the source holds it, and it wakes; nothing where the event does not reach it. -/
def Woken (src p : Nat) (s t : State) : Prop :=
  bit (holdsOf t src) p = (bit (holdsOf s src) p || reaches s src p) ∧ pnOf t p = (if reaches s src p = true then wokenPn src (pnOf s p) else pnOf s p)

/-- What the release of PN `p` by source `src` does: the source holds it no more, and in Awake-Requested with nobody left to hold it Awake-Hold begins. -/
def Released (src p : Nat) (s t : State) : Prop :=
  bit (holdsOf t src) p = false ∧
    pnOf t p = (if bit (holdsOf s src) p = true ∧ (pnOf s p).state = 3 ∧ holders t p = [] ∧ pnAlwaysOn s p = false then { pnOf s p with state := 4 }
      else pnOf s p)

/-! ### What every state keeps -/

/-- A mode of Table 18-1. -/
def legalMode (m : Nat) : Prop := 1 ≤ m ∧ m ≤ 12

/-- An NMT state byte of R29: Stopped, Operational or Pre-operational. -/
def legalNmt (b : Nat) : Prop := b = 0x04 ∨ b = 0x05 ∨ b = 0x7F

/-- What every state of the block keeps: as many rings, links, scrub regions and home slices as the manual gives it, a mode of Table 18-1,
an NMT state of R29, and every byte memory in its canonical form. -/
def Sound (s : State) : Prop :=
  s.host.rings.length = 8 ∧ s.headgate.links.length = 8 ∧ s.integ.regions.length = 18 ∧ s.coh.nextTicket.length = 16 ∧
    legalMode s.modes.mode ∧ legalNmt s.can.nmt ∧ Memory.wf s.scratch.mem = true ∧ Memory.wf s.mailbox.request = true ∧
    Memory.wf s.mailbox.response = true ∧ Memory.wf s.host.msixTable = true

/-- What a command's effect never does, whatever the command: it takes no command from the queue and adds none, no time passes, the number of the
next free value and the burned epoch fuses (R313) never fall, what has left the device stays sent, and what every state keeps is kept. -/
def Evolves (r s : State) : Prop :=
  (Sound r → Sound s) ∧ s.pending = r.pending ∧ s.clock.wall = r.clock.wall ∧ r.fresh ≤ s.fresh ∧
    r.keys.fuses ≤ s.keys.fuses ∧ r.out <:+ s.out

end Sys2Proof.Machine
end

