-- ==== Sys2Proof/Certificates/Slice0/Obligations.lean ====
section
/-! DEFINITION. The statements that the provers prove, family by family. -/

open Sys2Proof Sys2Proof.Machine

/-! ## The machine -/

/-- The command at the front of the queue is the one that runs, on the state whose queue is the rest. DESIGN CHOICE (log entry 2): with no command
in the queue one nanosecond passes; where nothing else waits (`AtRest`) that is all that changes, and whatever waits, the supplies, the straps, the mailbox,
the Jack and the queue are unchanged, and what has left the device stays sent. -/
def Obligations.StepRunsTheFrontCommand : Prop :=
  (∀ (s : State) (c : Instr) (rest : List Instr), s.pending = c :: rest → step s = exec c { s with pending := rest }) ∧
  (∀ s : State, s.pending = [] →
     (∃ t, step s = .next t ∧ t.clock = { s.clock with wall := s.clock.wall + 1 } ∧ Part.power.same s t ∧ t.mailbox = s.mailbox ∧ t.jack = s.jack ∧
       t.pending = [] ∧ s.out <:+ t.out) ∧
     (AtRest s → step s = .next { s with clock := { s.clock with wall := s.clock.wall + 1 } }))

/-- Every command that names units that exist completes, in every state; any other is the fault `noSuchUnit`. -/
def Obligations.WellFormedCommandsComplete : Prop :=
  ∀ (c : Instr) (s : State), (c.wf = true → ∃ t, exec c s = .next t) ∧ (c.wf = false → exec c s = .fault .noSuchUnit)

/-- A frame for every command: it changes no part of the state but those that `reach` names for it. Whatever the command, its effect adds nothing to
the queue and takes nothing from it, passes no time, and never lowers the number of the next free value or the number of burned epoch fuses (R313);
and what has left the device stays sent. -/
def Obligations.CommandsKeepWithinTheirReach : Prop :=
  (∀ (c : Instr) (s t : State), exec c s = .next t → FramedBy (reach c) s t) ∧
  (∀ (c : Instr) (s t : State), exec c s = .next t →
     t.pending = s.pending ∧ t.clock.wall = s.clock.wall ∧ s.fresh ≤ t.fresh ∧ s.keys.fuses ≤ t.keys.fuses ∧ s.out <:+ t.out)

/-- The state after reset: Battery mode, no supply but VBAT, no command waiting, nothing sent, every ring disabled, every link before its first
training, every dictionary object at its default, every memory empty, no key, nothing journalled, no tamper cause latched. What every state keeps
holds after reset. -/
def Obligations.ResetState : Prop :=
  (let s := State.reset
   s.modes.mode = 0x01 ∧ s.power.vaux = false ∧ s.power.vbat = true ∧ s.power.core = false ∧ s.pending = [] ∧ s.out = [] ∧
   (∀ r < 8, ringAt s r = Ring.off) ∧ (∀ m < 8, linkAt s m = Link.off) ∧ (∀ k, s.val k = 0) ∧ s.dict.staging = [] ∧
   (∀ a, s.scratch.mem.read a = 0) ∧ (∀ a, s.mailbox.request.read a = 0 ∧ s.mailbox.response.read a = 0) ∧
   s.keys.slots = [] ∧ s.keys.vault.entries = [] ∧ s.keys.fuses = 0 ∧ s.tally.recs = [] ∧ s.tally.next = 0 ∧
   s.tamper.cause = 0 ∧ s.headgate.slots = [] ∧ s.buckets.entries = [] ∧ s.tcam.slots = [] ∧ s.furrow.prefixes = [] ∧
   s.coh.home = [] ∧ s.coh.caches = [] ∧ s.results.verdict = [] ∧ s.modes.active = [] ∧ s.can.nmt = 0x7F) ∧
  (Sound State.reset)

/-- What every state keeps is kept by every step: eight rings, eight links, 18 scrub regions, 16 home slices, a mode of Table 18-1, an NMT state of
R29, and the canonical form of the scratchpad, the mailbox buffers and the MSI-X table. -/
def Obligations.EveryStepKeepsSound : Prop :=
  ∀ s t : State, Sound s → step s = .next t → Sound t

/-! ## Supplies, the start, faults and modes (R11, R16, R360, R389–R413) -/

/-- VAUX_RISE enters Sleep with PWR_HOLD asserted and SLEW sampled; VAUX_LOSS goes to Battery and discards Sluice's held configuration and states,
and with the main rails up it is a loss of power too; VBAT_LOST with VAUX absent makes the vault decay, returns the arming copy to its defaults and
stops the RTC. Each has no effect where its supply is already so. PWR_GOOD_ASSERT in Sleep, with VAUX and VBAT present and PWR_HOLD asserted, starts
the core in Fill and takes the straps; the StartCause is the first of R426's conditions. -/
def Obligations.SuppliesStartTheCore : Prop :=
  (∀ s : State,
     (∀ slew < 4, s.power.vaux = false → ∃ t, exec (.vauxRise slew) s = .next t ∧ t.power.vaux = true ∧ t.power.vbat = true ∧
       t.power.slew = slew ∧ t.power.vauxRose = true ∧ t.modes.mode = 0x08 ∧ t.sluice = { Sluice.off with pwrHold := true } ∧
       t.clock.rtcOn = true ∧ (s.clock.rtcOn = false → t.clock.rtcStart = s.clock.wall)) ∧
     (s.power.vaux = true → ∃ t, exec .vauxLoss s = .next t ∧ t.power.vaux = false ∧ t.power.core = false ∧ t.modes.mode = 0x01 ∧
       t.sluice = Sluice.off ∧ (s.power.core = true → t.power.unplanned = true ∧ t.scratch = ⟨[], [], [], []⟩ ∧ t.keys.slots = [] ∧ t.host = Pcie.off)) ∧
     (s.power.vaux = false → s.power.vbat = true → ∃ t, exec .vbatLost s = .next t ∧ FramedBy [.clock, .power, .vault, .tamper] s t ∧
       t.power.vbat = false ∧ t.clock.rtcOn = false ∧ t.tamper = Tamper.off ∧ t.keys.vault.decayed = true) ∧
     (s.power.vaux = true → exec .vbatLost s = .next s ∧ ∀ slew < 4, exec (.vauxRise slew) s = .next s) ∧
     (s.power.vaux = false → exec .vauxLoss s = .next s)) ∧
  (∀ (s : State) (id pos : Nat) (sec : Bool), id < 128 → pos < 4 → s.power.vaux = true → s.power.vbat = true → s.power.core = false →
     s.modes.mode = 0x08 → s.sluice.pwrHold = true →
     ∃ t, exec (.pwrGoodAssert id sec pos) s = .next t ∧ t.power.core = true ∧ t.modes.mode = 0x02 ∧ t.clock.coreStart = s.clock.wall ∧
       t.power.strapNode = id ∧ t.power.strapSecondary = sec ∧ t.power.strapChain = pos ∧
       t.modes.startCause =
         (if s.power.vauxRose = true then 1 else if s.power.tamperWake = true then 3
          else if s.power.cleanSleep = true ∧ s.power.wakeReassert = true then 2 else 4) ∧
       t.power.losses = (if s.power.unplanned = true then (s.power.losses + 1) % 2 ^ 32 else s.power.losses) ∧
       t.dict = s.dict ∧ t.flash = s.flash ∧ t.keys.slots = s.keys.slots)

/-- The stages of a start: the root (or PUF_FAIL with the causes of Locked), the PUF array and the Marionettes' memories overwritten with zeros
(R292), the fill with its time, class A ready with its time, class B ready with
its time. FIRMWARE_VERIFIED enters Halt with the fault FIRMWARE and FAULT_N asserted where neither slot verifies; else the chosen slot runs, Ready
and the CAN port are up. FILL_END ends Fill in the mode of R391, with the seeds fixed under the current epoch. Class B ready places the sealed
entries that waited for it: it adds none to those that wait for the extended tables. -/
def Obligations.StartStagesComplete : Prop :=
  (∀ s : State, s.power.core = true →
     (s.modes.rootDone = false → ∃ t, exec (.rootReconstructed false) s = .next t ∧ t.keys.root = 1 ∧ t.keys.rootUp = false ∧
       t.modes.rootDone = true ∧ t.integ.puf = none ∧
       t.modes.locked = s.modes.locked ||| (if alarmNow s = true ∨ s.tamper.early = true then 1 else 0) ||| 2) ∧
     (s.modes.rootDone = false → alarmNow s = false → s.tamper.early = false →
       ∃ t, exec (.rootReconstructed true) s = .next t ∧ t.keys.root = 0 ∧ t.keys.rootUp = true ∧ t.modes.rootDone = true ∧
         t.integ.puf = none ∧ t.modes.locked = s.modes.locked) ∧
     (s.modes.fillDone = false → ∃ t, exec .onChipFillDone s = .next t ∧ FramedBy [.modes, .live, .integ] s t ∧ t.modes.fillDone = true ∧
       t.val O.onChipFillTime = elapsed s / 1000 ∧ ObjectsOnly [O.onChipFillTime] s t ∧ t.integ = { s.integ with puf := none, ownMemory := [] }) ∧
     (s.modes.fillEnded = true → s.modes.halted = false → bit s.modes.classReady 0 = false →
       ∃ t, exec .classAReady s = .next t ∧ FramedBy [.modes, .live, .links, .headgate] s t ∧ t.modes.classReady = s.modes.classReady ||| 1 ∧
         t.val O.classAReadyTime = elapsed s / 1000 ∧ ObjectsOnly [O.classAReadyTime] s t ∧
         t.headgate.authLevel = 65536 ∧ t.headgate.authAt = elapsed s ∧ t.headgate.slots = s.headgate.slots) ∧
     (bit s.modes.classReady 0 = true → s.modes.halted = false → bit s.modes.classReady 1 = false →
       ∃ t, exec .classBReady s = .next t ∧ t.modes.classReady = s.modes.classReady ||| 2 ∧ t.val O.classBReadyTime = elapsed s / 1000 ∧
         ∀ d ∈ t.keys.deferred, d ∈ s.keys.deferred)) ∧
  (∀ s : State, s.power.core = true → s.modes.halted = false → bit s.modes.refLost 5 = false →
     (s.modes.fillDone = true → s.modes.rootDone = true → s.modes.ready = false → chosenSlot s = none →
       ∃ t, exec .firmwareVerified s = .next t ∧ t.modes.halted = true ∧ t.modes.mode = 0x0C ∧ faultActive 0x0160 t = true ∧ faultN t = true) ∧
     (∀ n b, s.modes.fillDone = true → s.modes.rootDone = true → s.modes.ready = false → chosenSlot s = some (n, b) →
       ∃ t, exec .firmwareVerified s = .next t ∧ t.modes.ready = true ∧ t.can.up = true ∧ t.modes.fwSlot = n ∧
         t.modes.fwVersion = imageVersion b ∧ t.modes.fwBuild = slice b 16 32) ∧
     (s.modes.ready = true → s.modes.fillEnded = false →
       ∃ t, exec .fillEnd s = .next t ∧ t.modes.fillEnded = true ∧ t.buckets.seedEpoch = epochNow s ∧ t.modes.mode = modeNow t))

/-- PWR_GOOD_DEASSERT stops the core and counts as an unplanned loss; Sleep entry tells the core, seals, powers the core down with PWR_HOLD
deasserted, or does so at SleepEntryLimit with the fault SLEEP_ENTRY; a tamper wake that came during the entry waits for the minimum low time (R340),
after which a waiting wake reasserts PWR_HOLD. Sleep entry and
PWR_HOLD are Sluice's and need its crystal (R16). -/
def Obligations.PoweringDownCompletes : Prop :=
  ∀ s : State,
    (s.power.core = true → ∃ t, exec .pwrGoodDeassert s = .next t ∧ t.power.core = false ∧ t.power.unplanned = true ∧ t.modes.mode = 0x08 ∧
      t.host = Pcie.off ∧ t.scratch = ⟨[], [], [], []⟩ ∧ t.coh = Coherence.off ∧ t.headgate = Headgate.off ∧ t.buckets = Buckets.off ∧
      t.keys.slots = [] ∧ t.keys.rootUp = false ∧ t.keys.fuses = s.keys.fuses ∧ t.flash = s.flash) ∧
    (sluiceRuns s = true → s.power.core = true → allAsleep s = true → s.sluice.entry < 2 → s.power.goodAt + 1000000000 ≤ s.clock.wall →
      ∃ t, exec .sleepEntry s = .next t ∧ t.sluice.entry = (if s.val O.domainState = 0 then 2 else 1) ∧ t.power = s.power) ∧
    (sluiceRuns s = true → s.power.core = true → (s.power.tamperWake = true → sluiceObj s O.pwrHoldMinLow ≠ 0) →
      ∀ c, (c = Instr.coreSleep ∧ s.sluice.entry = 2) ∨ (c = Instr.sleepEntryTimeout ∧ s.sluice.entry ≠ 0) →
      ∃ t, exec c s = .next t ∧ t.power.core = false ∧ t.power.cleanSleep = true ∧ t.modes.mode = 0x08 ∧ t.headgate = Headgate.off ∧
        t.sluice.pwrHold = false ∧ t.sluice.pwrHoldFell = s.clock.wall ∧ t.sluice.wakeWaits = s.power.tamperWake ∧
        t.power.tamperWake = s.power.tamperWake) ∧
    (sluiceRuns s = true → s.sluice.wakeWaits = true →
      ∃ t, exec .pwrHoldMinLow s = .next t ∧ FramedBy [.sluice, .wakes] s t ∧ t.sluice.pwrHold = true ∧ t.sluice.wakeWaits = false ∧ t.power.wakeReassert = true)

/-- A lost reference is named in the mask and raises REF_LOST with it; restored, it leaves the mask, and the fault clears when none is left. K8
holds the Timebase where it stood. A rail out of range raises SUPPLY_RANGE with its number; the pace window writes the four quadrant paces, their
least and half of it, and raises PACE_LOW below 1,200; the fault timers clear their faults, PACE_LOW from 1,230 on. R406: the telemetry objects take
their new values whole: MaxTemp is the highest quadrant temperature read as two's complement, TotalPower the sum of the block powers. -/
def Obligations.ReferencesPaceAndTelemetryComplete : Prop :=
  (∀ (s : State) (k : Nat), 1 ≤ k → k ≤ 9 → s.power.core = true →
     (bit s.modes.refLost (k - 1) = false → ∃ t, exec (.referenceLost k) s = .next t ∧
       t.modes.refLost = s.modes.refLost + 2 ^ (k - 1) ∧ SMap.find? t.modes.active 0x0110 = some (t.modes.refLost % 65536) ∧
       (k = 8 → s.modes.k8At = 0 → timebase t = timebase s)) ∧
     (bit s.modes.refLost (k - 1) = true → ∃ t, exec (.referenceRestored k) s = .next t ∧
       t.modes.refLost = s.modes.refLost - 2 ^ (k - 1) ∧ (t.modes.refLost = 0 → faultActive 0x0110 t = false) ∧
       (t.modes.refLost ≠ 0 → SMap.find? t.modes.active 0x0110 = some (t.modes.refLost % 65536)))) ∧
  (∀ s : State, s.power.core = true →
     (∀ r, 1 ≤ r → r ≤ 9 → ∃ t, exec (.supplyRangeTimer r) s = .next t ∧ SMap.find? t.modes.active 0x0102 = some r ∧
       t.val O.lastFaultCode = (if faultActive 0x0102 s = true then s.val O.lastFaultCode else 0x0102) ∧ ObjectsOnly faultObjects s t) ∧
     (∀ p0 p1 p2 p3, p0 < 65536 → p1 < 65536 → p2 < 65536 → p3 < 65536 → ∃ t, exec (.paceUpdate p0 p1 p2 p3) s = .next t ∧
       t.val (O.quadrantPace 0) = p0 ∧ t.val (O.quadrantPace 1) = p1 ∧ t.val (O.quadrantPace 2) = p2 ∧ t.val (O.quadrantPace 3) = p3 ∧
       t.val O.minPace = min (min p0 p1) (min p2 p3) ∧ t.val O.pipelineRate = t.val O.minPace / 2 ∧
       (t.val O.minPace < 1200 → SMap.find? t.modes.active 0x0101 = some (t.val O.minPace)) ∧
       (1200 ≤ t.val O.minPace → t.modes = s.modes)) ∧
     (∀ code, code = 0x0102 ∨ code = 0x0170 ∨ code = 0x0172 ∨ (code = 0x0101 ∧ 1230 ≤ s.val O.minPace) →
       ∃ t, exec (.faultClearTimer code) s = .next t ∧ faultActive code t = false ∧ ∀ c, c ≠ code → faultActive c t = faultActive c s) ∧
     (s.val O.minPace < 1230 → exec (.faultClearTimer 0x0101) s = .next s)) ∧
  (∀ (s : State) (x : Telemetry), s.power.core = true → ∃ t, exec (.telemetryUpdate x) s = .next t ∧
     (∀ i < 4, t.val (O.quadrantTemp i) = x.temps.getD i 0 % 65536 ∧ signed 16 (t.val (O.quadrantTemp i)) ≤ signed 16 (t.val O.maxTemp)) ∧
     (∃ i < 4, t.val O.maxTemp = t.val (O.quadrantTemp i)) ∧
     (∀ i < 9, t.val (O.railVoltage i) = x.rails.getD i 0 % 65536) ∧ (∀ i < 10, t.val (O.blockPower i) = x.powers.getD i 0 % 2 ^ 32) ∧
     t.val O.totalPower = ((List.range 10).map fun i => x.powers.getD i 0 % 2 ^ 32).sum % 2 ^ 32 ∧
     t.val O.batteryIslandTemp = x.battery % 65536 ∧ t.val O.searchRate = x.searches % 2 ^ 32 ∧ t.val O.topOperations = x.topOps % 2 ^ 32 ∧
     t.val O.sweepOperations = x.sweepOps % 2 ^ 32 ∧ t.val O.backgroundShare = x.share % 65536)

/-- R402: a fault raised is active with its detail, written to the last-fault objects and counted; raised again while active it only updates its
detail. Cleared, it is no longer active. No other fault's activity changes. EMCY_SPACING_EXPIRED sends the waiting report of its fault code as it was
made at the event (R32), under the CAN-ID and in the frame format of COB-ID EMCY, and no longer holds it. -/
def Obligations.FaultsAreRaisedReportedAndCleared : Prop :=
  (∀ (s : State) (code detail : Nat),
     SMap.find? (raiseFault code detail s).modes.active code = some (detail % 65536) ∧
     (∀ c, c ≠ code → faultActive c (raiseFault code detail s) = faultActive c s ∧ faultActive c (clearFault code s) = faultActive c s) ∧
     faultActive code (clearFault code s) = false ∧
     (faultActive code s = false → (raiseFault code detail s).val O.faultsRaised = (s.val O.faultsRaised + 1) % 2 ^ 32 ∧
       (raiseFault code detail s).val O.lastFaultCode = code ∧ (raiseFault code detail s).val O.lastFaultDetail = detail % 65536 ∧
       (raiseFault code detail s).val O.lastFaultTime = timebase s) ∧
     (faultActive code s = true → (raiseFault code detail s).dict = s.dict ∧ (raiseFault code detail s).out = s.out) ∧
     FramedBy faultParts s (raiseFault code detail s) ∧ ObjectsOnly faultObjects s (raiseFault code detail s)) ∧
  (∀ (s : State) (code : Nat) (b : Bytes),
     (s.modes.emcyWait.find? fun w => w.1 == code) = some (code, b) →
     bit (s.obj O.cobIdEmcy) 31 = false → s.can.nmt ≠ 0x04 → canTalks s = true →
     ∃ t, exec (.emcySpacingExpired code) s = .next t ∧ FramedBy [.faults, .out] s t ∧
       t.out = .can (if bit (s.obj O.cobIdEmcy) 29 = true then bits (s.obj O.cobIdEmcy) 28 0 else bits (s.obj O.cobIdEmcy) 10 0)
         (bit (s.obj O.cobIdEmcy) 29) (brsNow s) b :: s.out ∧ (∀ w ∈ t.modes.emcyWait, w.1 ≠ code))

/-- R403: FAULT_N is asserted while a fault of class C is active and in Halt, and released otherwise; in Sleep it is released, in Battery unpowered;
and FaultNState mirrors it. -/
def Obligations.FaultPinFollowsFaults : Prop :=
  ∀ s : State,
    (s.modes.mode ≠ 0x01 → s.modes.mode ≠ 0x08 → (faultN s = true ↔ s.modes.halted = true ∨ ∃ f ∈ s.modes.active, classC f = true)) ∧
    (s.modes.mode = 0x08 → faultN s = false) ∧ (s.modes.mode = 0x01 → faultN s = false) ∧ derived s 0x305007 = some (b2n (faultN s))

/-- R391: while the core runs and Fill has ended or the device has halted, a settled mode is Halt, else Jack-Open, else Fallback, else Pair-Standby,
else Locked, else Uncommissioned, else Drowse, else Run-Degraded, else Run; a change of mode changes nothing else but the record of it and the instant
from which R398 counts DrowseIdle. -/
def Obligations.ModeFollowsItsConditions : Prop :=
  ∀ s : State,
    (s.power.core = true → (s.modes.fillEnded = true ∨ s.modes.halted = true) → ∀ cause,
      (settleMode cause s).modes.mode =
        (if s.modes.halted = true then 0x0C else if s.jack.opened = true then 0x0B else if s.val O.domainState ≠ 0 then 0x06
         else if s.val O.pairState = 5 then 0x09 else if s.modes.locked ≠ 0 then 0x0A else if commissioned s = false then 0x03
         else if s.modes.drowse = 2 ∨ s.modes.drowse = 3 then 0x07
         else if s.modes.quarantine ≠ 0 ∨ regionWeak s = true then 0x05 else 0x04)) ∧
    (∀ m, FramedBy (.mode :: .busy :: tallyParts) s (changeMode m 0 s) ∧
       (changeMode m 0 s).modes = if s.modes.mode = m then s.modes else { s.modes with mode := m, busyAt := s.clock.wall })

/-- Drowse: entered when R398's conditions have held for DrowseIdle, in effect when Laterals 1 to 7 have drained, ended by a DrowseExit write or
another trigger, and over when the exit completes. -/
def Obligations.DrowseCompletes : Prop :=
  ∀ s : State, s.power.core = true →
    (s.obj O.drowseEnable ≠ 0 → (s.modes.mode = 4 ∨ s.modes.mode = 5) → bit s.modes.quarantine 0 = false → s.flag O.extReady = true →
      s.modes.drowse = 0 → s.modes.fwStage ≠ 1 → exchangeBusy s = false → s.modes.busyAt + s.obj O.drowseIdle * 1000000 ≤ s.clock.wall →
      exec .drowseEntry s = .next { s with modes := { s.modes with drowse := 1 } }) ∧
    (s.modes.drowse = 1 → lateralsBusy s = false → ∃ t, exec .drowseLateralsDrained s = .next t ∧ t.modes.drowse = 2 ∧
      t.val O.drowseEntries = (s.val O.drowseEntries + 1) % 2 ^ 32) ∧
    (s.modes.drowse = 1 → lateralsBusy s = true → exec .drowseLateralsDrained s = .next s) ∧
    ((s.modes.drowse = 3 ∨ s.modes.drowse = 4) → ∃ t, exec .drowseExitComplete s = .next (resumeAll t) ∧
      FramedBy [.mode, .drowse, .busy, .live, .vault, .tally, .endpoint, .out] s t ∧ t.modes.drowse = 0 ∧
      t.val O.drowseExitMax = max (s.val O.drowseExitMax) (min ((s.clock.wall - s.modes.drowseTrigger) / 1000) 65535)) ∧
    (s.modes.drowse = 1 → (drowseTrigger s).modes.drowse = 4) ∧ (s.modes.drowse = 2 → (drowseTrigger s).modes.drowse = 3) ∧
    (drowseTrigger s).modes.busyAt = s.clock.wall

/-- FIRMWARE_STAGE_DONE puts a verified image into the slot that does not run, or fails; the slot that runs is never written. QUARANTINE and a
missing Marionette heartbeat quarantine their unit until the next start, with the fault UNIT_QUARANTINED; a unit quarantined already is left alone;
a unit that the manual does not name is refused. -/
def Obligations.FirmwareStagingAndQuarantineComplete : Prop :=
  (∀ (s : State) (ok : Bool), flashRuns s = true → s.modes.fwStage = 1 →
     ∃ t, exec (.firmwareStageDone ok) s = .next t ∧ FramedBy [.modes, .busy, .flash, .fresh] s t ∧
       t.modes.fwStage = (if imageVerifies s.modes.fwImage = true ∧ ok = true then 2 else 3) ∧ t.modes.fwImage = [] ∧
       (imageVerifies s.modes.fwImage = true → ok = true → (if s.modes.fwSlot = 0 then t.flash.fw1 else t.flash.fw0) = s.modes.fwImage) ∧
       (imageVerifies s.modes.fwImage = false → t.flash = s.flash) ∧
       (if s.modes.fwSlot = 0 then t.flash.fw0 = s.flash.fw0 else t.flash.fw1 = s.flash.fw1)) ∧
  (∀ (s : State), s.power.core = true →
     (∀ u, quarantineUnits u = true → bit s.modes.quarantine u = false → ∃ t, exec (.quarantine u) s = .next t ∧ bit t.modes.quarantine u = true) ∧
     (∀ u, quarantineUnits u = true → bit s.modes.quarantine u = true → exec (.quarantine u) s = .next s) ∧
     (∀ u, quarantineUnits u = false → exec (.quarantine u) s = .fault .noSuchUnit) ∧
     (∀ m < 4, s.modes.ready = true → bit s.modes.quarantine (8 + m) = false →
       ∃ t, exec (.marionetteHeartbeatTimeout m) s = .next t ∧ bit t.modes.quarantine (8 + m) = true))

/-! ## The command rings (R56–R68, R424, R425) -/

/-- R59, R64, R425: a command that completes writes one record of Table 3-6 at its descriptor's place in the completion ring, counts it, keeps its
tag with DONE or ALREADY_APPLIED, raises the ring's vector where Notify is set, and leaves the ring ready for the next descriptor. R67: a command
that fails writes no record; its ring halts with HaltTag and HaltInfo, and the ring's halt vector is raised. A key or bundle event of the command is
announced by vector 23 after that (R55). -/
def Obligations.RingCommandsEnd : Prop :=
  (∀ (s : State) (r status result : Nat) (ok : Bool), r < 8 → s.host.rings.length = 8 → (ringAt s r).disabling = 0 →
     let g := ringAt s r
     let t := completeCommand r status result ok s
     let rec_ := completionRecord (dsTag g.desc) (dsOpcode g.desc) status 0 result g.completion g.sizeLog2 false
     t.keys = { s.keys with event := false } ∧ (ringAt t r).completion = (g.completion + 1) % 2 ^ 32 ∧ (ringAt t r).waiting = none ∧ (ringAt t r).halted = g.halted ∧
     (ringAt t r).enabled = g.enabled ∧ (ringAt t r).producer = g.producer ∧
     (∀ i, i ≠ r → ringAt t i = ringAt s i) ∧
     t.val (O.ringCompletions r) = (s.val (O.ringCompletions r) + 1) % 2 ^ 32 ∧
     t.out = (if s.keys.event = true ∧ vectorOpen 23 s = true then [Output.msix 23] else []) ++
       (if dsNotify g.desc = true ∧ vectorOpen (1 + r) s = true then [Output.msix (1 + r)] else []) ++
       (if ok = true then .hostWrite ((g.compBase + 16 * (g.completion % 2 ^ g.sizeLog2)) % 2 ^ 64) rec_ else .aer) :: s.out ∧
     (status ≤ 1 → dsTag g.desc ≠ 0 → (ringAt t r).tags = (⟨dsTag g.desc, contentDigest g.desc g.block, rec_⟩ :: g.tags).take 256) ∧
     (1 < status → (ringAt t r).tags = g.tags)) ∧
  (∀ (s : State) (r status detail : Nat), r < 8 → s.host.rings.length = 8 → (ringAt s r).disabling = 0 →
     let g := ringAt s r
     let t := haltRing r status detail s
     (ringAt t r).halted = true ∧ (ringAt t r).haltTag = dsTag g.desc ∧
     (ringAt t r).haltInfo = dsOpcode g.desc * 2 ^ 24 + status * 2 ^ 16 + detail ∧
     (ringAt t r).completion = g.completion ∧ (ringAt t r).tags = g.tags ∧ (∀ i, i ≠ r → ringAt t i = ringAt s i) ∧
     t.val (O.ringHalts r) = (s.val (O.ringHalts r) + 1) % 2 ^ 32 ∧
     t.keys = { s.keys with event := false } ∧
     t.out = (if s.keys.event = true ∧ vectorOpen 23 s = true then [Output.msix 23] else []) ++
       (if vectorOpen (9 + r) s = true then [Output.msix (9 + r)] else []) ++ s.out ∧
     (vectorOpen (9 + r) s = false → (9 + r) ∈ t.host.held))

/-- R57: a ProducerIndex write that is neither behind ProducerIndex nor more than N ahead of CompletionIndex is accepted and clears DoorbellOverrun;
any other is discarded, sets DoorbellOverrun and raises the ring's halt vector, which is held back while it cannot be sent (R425). -/
def Obligations.ProducerIndexWritesAreChecked : Prop :=
  ∀ (s : State) (r v : Nat), r < 8 → s.host.rings.length = 8 → (ringAt s r).enabled = true →
    let g := ringAt s r
    let ahead : Nat → Nat := fun v => (v + 2 ^ 32 - g.completion) % 2 ^ 32
    (ahead g.producer ≤ ahead (v % 2 ^ 32) → ahead (v % 2 ^ 32) ≤ 2 ^ g.sizeLog2 → ∃ t, exec (.producerIndex r v) s = .next t ∧ FramedBy [.rings] s t ∧
      ringAt t r = { g with producer := v % 2 ^ 32, overrun := false } ∧ ∀ i, i ≠ r → ringAt t i = ringAt s i) ∧
    ((ahead (v % 2 ^ 32) < ahead g.producer ∨ 2 ^ g.sizeLog2 < ahead (v % 2 ^ 32)) → ∃ t, exec (.producerIndex r v) s = .next t ∧
      FramedBy [.rings, .endpoint, .out] s t ∧ ringAt t r = { g with overrun := true } ∧ (∀ i, i ≠ r → ringAt t i = ringAt s i) ∧
      (vectorOpen (9 + r) s = true → t.out = .msix (9 + r) :: s.out) ∧ (vectorOpen (9 + r) s = false → t.out = s.out ∧ (9 + r) ∈ t.host.held))

/-- R56: enabling clears the counts; disabling clears Enabled and Halted between commands, or when the command in execution is finished. R67, R68:
HALT_RETRY clears Halted and executes the failed descriptor again; HALT_SKIP writes the failed descriptor's record and goes on, or on a paused ring
waits for the pause to end (log entry 145); FENCE_TIMEOUT halts the ring of a waiting fence. -/
def Obligations.RingRegistersAndHaltsComplete : Prop :=
  (∀ (s : State) (r : Nat), r < 8 → s.host.rings.length = 8 → ringsServed s = true →
     let g := ringAt s r
     (g.enabled = false → ∃ t, exec (.ringEnable r) s = .next t ∧ FramedBy [.rings] s t ∧
       ringAt t r = { g with enabled := true, producer := 0, completion := 0, waiting := none, disabling := 0, skip := false } ∧
       ∀ i, i ≠ r → ringAt t i = ringAt s i) ∧
     (g.enabled = true → g.waiting = none → ∃ t, exec (.ringDisable r) s = .next t ∧ FramedBy [.rings] s t ∧
       (ringAt t r).enabled = false ∧ (ringAt t r).halted = false ∧ (ringAt t r).tags = g.tags) ∧
     (g.waiting ≠ none → ∃ t, exec (.ringDisable r) s = .next t ∧ FramedBy [.rings] s t ∧
       ringAt t r = { g with disabling := max 1 g.disabling } ∧ ∀ i, i ≠ r → ringAt t i = ringAt s i)) ∧
  (∀ (s : State) (r : Nat), r < 8 → s.host.rings.length = 8 →
     (∀ f, (ringAt s r).enabled = true → (ringAt s r).halted = true →
       ∃ t, exec (.haltRetry r f) s = .next (execute r 0xFF f t) ∧ FramedBy [.rings] s t ∧
         ringAt t r = { ringAt s r with halted := false, skip := false }) ∧
     ((ringAt s r).enabled = true → (ringAt s r).halted = true → ringPaused s r = false →
       ∃ t, exec (.haltSkip r) s = .next (settleFences 8 t) ∧ (ringAt t r).halted = false ∧
         (ringAt t r).completion = ((ringAt s r).completion + 1) % 2 ^ 32 ∧ (ringAt t r).tags = (ringAt s r).tags) ∧
     ((ringAt s r).enabled = true → (ringAt s r).halted = true → ringPaused s r = true →
       ∃ t, exec (.haltSkip r) s = .next t ∧ FramedBy [.rings] s t ∧ ringAt t r = { ringAt s r with skip := true }) ∧
     (∀ ts sl, (ringAt s r).waiting = some (.fence ts sl) → (ringAt s r).disabling = 0 → s.val O.domainState = 0 → s.modes.halted = false →
       bit s.modes.refLost 3 = false → ∃ t, exec (.fenceTimeout r) s = .next t ∧ (ringAt t r).halted = true ∧ (ringAt t r).waiting = none ∧
         (ringAt t r).haltInfo = dsOpcode (ringAt s r).desc * 2 ^ 24 + 0x18 * 2 ^ 16 + 0x2116))

/-- R68: FENCE waits for the completion counts that its RingMask names, taken now, and with Searches for the slots now occupied. Met at once, with no
other ring waiting at a fence, it completes within its command: its record is written and its ring goes on. Not met, it waits, and the command changes
no more than its ring. Fences that stand on several rings are completed in ring order. -/
def Obligations.FenceCompletes : Prop :=
  ∀ (s : State) (r : Nat) (f : Fetch) (d b : Bytes), Runs r 0x30 f d b s → s.host.rings.length = 8 →
    bits (u8 d 9) 7 1 = 0 → allZero d 10 2 = true → 1 ≤ le d 12 4 → le d 12 4 ≤ 1000000 → allZero d 16 48 = true →
    let ts := ((bitList 8 (u8 d 8)).filter (· != r)).map fun i => if (ringAt s i).enabled = true then (i, (ringAt s i).producer) else (8, 0)
    let sl := if bit (u8 d 9) 0 = true then s.headgate.slots.map (·.id) else []
    let u := onRing r (fun g => { g with waiting := some (.fence ts sl) }) (setDesc r d b s)
    let runs := s.val O.domainState = 0 ∧ s.modes.halted = false ∧ bit s.modes.refLost 3 = false
    let alone := ∀ i < 8, i ≠ r → ∀ a c, (ringAt s i).waiting ≠ some (.fence a c)
    exec (.fence r f) s = .next (settleFences 8 u) ∧
    (runs → fenceMet s ts sl = true → alone →
      let t := completeCommand r 0 0 s.host.canSend u
      exec (.fence r f) s = .next t ∧ (ringAt t r).waiting = none ∧ (ringAt t r).completion = ((ringAt s r).completion + 1) % 2 ^ 32 ∧
        t.val (O.ringCompletions r) = (s.val (O.ringCompletions r) + 1) % 2 ^ 32 ∧ ∀ i, i ≠ r → ringAt t i = ringAt s i) ∧
    (¬runs ∨ (fenceMet s ts sl = false ∧ alone) → exec (.fence r f) s = .next u ∧ FramedBy [.rings] s u) ∧
    (runs → fenceMet s ts sl = true → (∀ i < r, ∀ a c, (ringAt s i).waiting = some (.fence a c) → fenceMet u a c = false) →
      settleFence u = some (completeCommand r 0 0 s.host.canSend u))

/-! ## Commands on tables (R82–R84, R145–R152, R170–R177, R192–R195, R227–R235) -/

/-- R149, R151, R152: an insertion that finds its place makes its entry valid there; a deletion invalidates the entry, and the group's last entry
moves into its place; a modification changes the RecordIndex in the entry's shadow and nothing else of the array or of another slot. -/
def Obligations.TcamCommandsComplete : Prop :=
  ∀ (s : State) (r : Nat) (f : Fetch) (d b : Bytes) (i : Nat),
    let q := u8 b 0 % 4
    let def_ := tcamDef s.dict.live q i
    let e := tcamBlockEntry def_ b
    quarterOut s q = false → tcamTable s.dict.live q (u8 b 1) = some i → ringBroken s def_ = false →
    (∀ p ws n, Runs r 0x01 f d b s → tcamDetail s 1 b = none → findTcam s q i e.key e.mask = none → planTcam q i e s = .inl (p, ws, n) →
      (∀ w ∈ ws, w.1 < 32768) →
      ∃ t, exec (.tcamInsert r f) s = .next (completed r (p % 8192) f t) ∧ FramedBy [.tcam, .live, .rings] s t ∧
        entryIn t (tdWide def_) p = some e ∧ t.val O.moves = (s.val O.moves + n) % 2 ^ 32) ∧
    (∀ p x, Runs r 0x02 f d b s → tcamDetail s 2 b = none → findTcam s q i e.key e.mask = some (p, x) → x.sealed = false →
      (∀ p ∈ tablePlaces s q i, p < 32768 - tdStride def_) →
      ∃ t, exec (.tcamDelete r f) s = .next (completed r (p % 8192) f t) ∧ FramedBy [.tcam, .live, .rings] s t ∧
        (((deleteWrites s q i p x).2 = 0 ∧ entryIn t (tdWide def_) p = none) ∨
          ∃ l y, (l, y) ∈ tcamEntries s q i ∧ l ≠ p ∧ rankOf def_ y = rankOf def_ x ∧ entryIn t (tdWide def_) p = some y ∧
            entryIn t (tdWide def_) l = none)) ∧
    (∀ p x, Runs r 0x03 f d b s → tcamDetail s 3 b = none → findTcam s q i e.key e.mask = some (p, x) → x.sealed = false → p < 32768 →
      ∃ t, exec (.tcamModifyResult r f) s = .next (completed r 0 f t) ∧ FramedBy [.tcam, .live, .rings] s t ∧
        shadowAt t p = { shadowAt s p with record := e.record } ∧ (∀ k, k ≠ p → slotAt t k = slotAt s k) ∧
        ((shadowAt s p).upper = false → slotAt t p = { slotAt s p with shadow := { shadowAt s p with record := e.record } }))

/-- R171, R175: where the nodes to be built find their places (log entry 45), an addition puts its prefix into the table with its RecordIndex; a
deletion takes it out; both publish once where they change the table, and the Result is the table's number of nodes; an addition that changes nothing
completes too. R145, R173: a ternary block without a valid slot powers down and no other changes; the blocks that the publish of a table's oldest
marker superseded are free, and no others. -/
def Obligations.TrieCommandsComplete : Prop :=
  (∀ (s : State) (r : Nat) (f : Fetch) (d b : Bytes),
     let o := d.drop 8
     let tb := u8 o 0
     let k := prefixKey tb (le o 8 8) (u8 o 1)
     let def_ := trieDef s.dict.live tb
     let words : SMap Nat → Nat := fun m => trieWords (triePlan def_) (triePrefixes m tb)
     let copies : SMap Nat → Nat := fun m => copyWords (triePlan def_) (triePrefixes s.furrow.prefixes tb) (triePrefixes m tb)
     let fits : SMap Nat → Prop := fun m => ∃ v,
       publish tb (publishingWrite (triePlan def_) (triePrefixes s.furrow.prefixes tb) (triePrefixes m tb)) false m (takenUp r d b s) = some v
     trieGate s = none → allZero d 24 40 = true →
     (Runs r 0x08 f d b s → trieDetail s.dict.live false o = none → (SMap.find? s.furrow.prefixes k = none ∨ bit (u8 o 2) 0 = true) →
       (trieQuota def_ = 0 ∨ words (SMap.insert s.furrow.prefixes k (le o 4 4)) ≤ trieQuota def_) →
       wordsInUse s + copies (SMap.insert s.furrow.prefixes k (le o 4 4)) ≤ trieCapacity - s.obj O.cowReserve →
       (SMap.find? s.furrow.prefixes k ≠ some (le o 4 4) → fits (SMap.insert s.furrow.prefixes k (le o 4 4))) →
       ∃ n t, exec (.trieAdd r f) s = .next (completed r n f t) ∧ FramedBy [.furrow, .live, .rings, .fresh, .drowse, .busy] s t ∧ n = tableNodes t tb ∧
         SMap.find? t.furrow.prefixes k = some (le o 4 4) ∧ ∀ j, j ≠ k → SMap.find? t.furrow.prefixes j = SMap.find? s.furrow.prefixes j) ∧
     (Runs r 0x09 f d b s → trieDetail s.dict.live true o = none → (∃ x, SMap.find? s.furrow.prefixes k = some x) →
       wordsInUse s + copies (SMap.erase s.furrow.prefixes k) ≤ trieCapacity → fits (SMap.erase s.furrow.prefixes k) →
       ∃ n t, exec (.trieDelete r f) s = .next (completed r n f t) ∧ FramedBy [.furrow, .live, .rings, .fresh, .drowse, .busy] s t ∧ n = tableNodes t tb ∧
         SMap.find? t.furrow.prefixes k = none ∧ ∀ j, j ≠ k → SMap.find? t.furrow.prefixes j = SMap.find? s.furrow.prefixes j)) ∧
  (∀ s : State,
     (∀ q b, q < 4 → b < 8 →
       ((∀ e ∈ s.tcam.slots, e.1 / 1024 = 8 * q + b → e.2.v = false) → ∃ t, exec (.blockPowerDown q b) s = .next t ∧ FramedBy [.tcam] s t ∧
         t.tcam.slots = s.tcam.slots ∧ bit t.tcam.powered (8 * q + b) = false ∧ ∀ j, j ≠ 8 * q + b → bit t.tcam.powered j = bit s.tcam.powered j) ∧
       ((∃ e ∈ s.tcam.slots, e.1 / 1024 = 8 * q + b ∧ e.2.v = true) → exec (.blockPowerDown q b) s = .next s)) ∧
     (∀ tb < 16,
       (∀ m, (s.furrow.draining.find? fun x => x.1 == tb) = some m → ∃ t, exec (.drainMarkerDone tb) s = .next t ∧ FramedBy [.furrow] s t ∧
         t.furrow = { s.furrow with draining := s.furrow.draining.erase m, used := t.furrow.used } ∧
         ∀ w, SMap.find? t.furrow.used w = if w ∈ m.2 then none else SMap.find? s.furrow.used w) ∧
       ((∀ m ∈ s.furrow.draining, m.1 ≠ tb) → exec (.drainMarkerDone tb) s = .next s)))

/-- R192, R193, R191: behind the operations that wait at its slice, an insertion puts the entry of its block at the place found, and the Result
tells the place; an update changes the entry where it stands; a deletion removes it, or an overflow entry of its bucket takes its place; the tag
word of an extended bucket is readable. R194: a flush removes, behind the operations that wait at every slice, the entries of its table that
Select and RecordMatch name, in the extended store where no copy and no poison stands in the way of their tag words; the entries of other tables
stay, and with no overflow entry to promote those of its table that are not named stay too. -/
def Obligations.BucketCommandsComplete : Prop :=
  (∀ (s : State) (r : Nat) (f : Fetch) (d b : Bytes),
     let tb := u8 b 0
     let key := blockKey b
     let u := drainOps (fun sl => sl == keyBucket s tb key % 16) (takenUp r d b s)
     extGate s tb = none → tagPoisoned u tb key = false →
     (∀ p, Runs r 0x10 f d b s → blockDetail s false b = none → findPlace u tb key = none → planInsert u tb key = .inl p →
       ∃ t, exec (.bucketInsert r f) s = .next (completed r (placeResult p) f t) ∧
         entryAt? t p = some (hostEntry u tb key (le b 4 4) (bit (u8 b 1) 1) (le b 8 4)) ∧ ∀ j, j ≠ p → entryAt? t j = entryAt? u j) ∧
     (∀ p e, Runs r 0x12 f d b s → blockDetail s false b = none → findPlace u tb key = some p → entryAt? u p = some e → e.sealed = false →
       ∃ t, exec (.bucketUpdate r f) s = .next (completed r 0 f t) ∧
         entryAt? t p = some { e with record := le b 4 4, static := bit (u8 b 1) 1, hostState := le b 8 4, learned := false, flap := 0,
                                      timestamp := tickNow u tb } ∧ ∀ j, j ≠ p → entryAt? t j = entryAt? u j) ∧
     (∀ p e, Runs r 0x11 f d b s → blockDetail s true b = none → findPlace u tb key = some p → entryAt? u p = some e → e.sealed = false →
       tagBad u p = false →
       ∃ t, exec (.bucketDelete r f) s = .next (completed r 0 f t) ∧
         (entryAt? t p = none ∨ ∃ o x, p < 0x40000 ∧ isOverflow o = true ∧ (o, x) ∈ u.buckets.entries ∧ x.table = tb ∧
           keyBucket u tb x.key = placeBucket p ∧ entryAt? t p = some x ∧ entryAt? t o = none))) ∧
  (∀ (s : State) (r : Nat) (f : Fetch) (d b : Bytes),
     let tb := u8 d 8
     let u := drainOps (fun _ => true) (takenUp r d b s)
     Runs r 0x20 f d b s → tb ≤ 63 → defDefined (tableDef u.dict.live tb) = true → bits (u8 d 9) 7 3 = 0 → allZero d 10 2 = true →
     bits (le d 12 4) 30 18 = 0 → allZero d 16 48 = true → extGate u tb = none →
     ∃ n t, exec (.flowFlush r f) s = .next (completed r n f t) ∧
       ((∀ e ∈ u.buckets.entries, isOverflow e.1 = false) →
         (∀ p e, entryAt? u p = some e → (e.table ≠ tb ∨ flushSelects (u8 d 9) (le d 12 4) e = false) → entryAt? t p = some e) ∧
         ((∀ e ∈ u.buckets.entries, e.1 < 0x100000) ∨
             (Quiet u ∧ u.coh.caches = [] ∧ u.coh.dir = [] ∧ u.coh.poison = []) →
           ∀ p e, entryAt? t p = some e → e.table = tb → flushSelects (u8 d 9) (le d 12 4) e = false)))

/-- R227, R233, R235: a record written reads as written, in the Reservoir where nothing else is under way in the domain; meters configured are full
and take E as LastTime; counter pairs whose lines are current at home are written to host memory and, with Clear, become 0; without Clear a pair keeps
its value. -/
def Obligations.ResultCommandsComplete : Prop :=
  ∀ (s : State) (r : Nat) (f : Fetch) (d b : Bytes),
    let store := u8 d 8
    (Runs r 0x18 f d b s → store ≤ 1 → allZero d 9 3 = true → allZero d 32 32 = true → le d 12 4 < recordCount store →
      recordFormatOk store (le d 16 16) = true → recSealed (readRecord store (le d 12 4) s) = false →
      (store = 0 → s.val O.shadowReady ≠ 0 ∨ s.val O.lpddrState = 4) →
      ∃ t, exec (.resultWrite r f) s = .next (completed r 0 f t) ∧ FramedBy [.results, .coh, .live, .rings] s t ∧
        ((store = 1 ∨ Still s (lineOf (le d 12 4))) → readRecord store (le d 12 4) t = le d 16 16) ∧
        (store = 1 → ∀ i, i ≠ le d 12 4 → readRecord 1 i t = readRecord 1 i s)) ∧
    (Runs r 0x19 f d b s → store ≤ 1 → u8 d 9 ≤ 1 → allZero d 18 46 = true → le d 12 4 + le d 16 2 ≤ meterCount store → le d 10 2 ≤ 1023 →
      1 ≤ le d 16 2 → le d 16 2 ≤ 4096 → (∀ j < le d 16 2, meterSealed store (le d 12 4 + j) s = false) →
      ∃ t, exec (.meterConfigure r f) s = .next (completed r 0 f t) ∧ FramedBy [.results, .coh, .live, .rings] s t ∧
        (store = 1 → ∀ i, readMeter 1 i t =
          if le d 12 4 ≤ i ∧ i < le d 12 4 + le d 16 2 then freshMeter s (le d 10 2) (u8 d 9 == 1) else readMeter 1 i s)) ∧
    (Runs r 0x1A f d b s → u8 d 24 ≤ 1 → allZero d 25 39 = true → le d 16 8 % 16 = 0 → 1 ≤ le d 12 4 → le d 12 4 ≤ 65536 →
      le d 8 4 + le d 12 4 ≤ 262144 → f.dataOk = true →
      ∃ t, exec (.counterReadClear r f) s = .next (completed r (le d 12 4) f t) ∧ FramedBy [.coh, .live, .rings, .out] s t ∧
        ((∀ j < le d 12 4, AtHome s (lineOf (counterGranule (le d 8 4 + j)))) →
          t.out = .hostWrite (le d 16 8) (((List.range (le d 12 4)).map fun j => leBytes 16 (pairRead (le d 8 4 + j) s)).flatten) :: s.out) ∧
        (u8 d 24 = 0 → le d 12 4 = 1 → Still s (lineOf (counterGranule (le d 8 4))) →
          readGranule t (counterGranule (le d 8 4)) = readGranule s (counterGranule (le d 8 4))) ∧
        (u8 d 24 = 1 → le d 12 4 = 1 → Still s (lineOf (counterGranule (le d 8 4))) → readGranule t (counterGranule (le d 8 4)) = 0))

/-- R82–R84: a dump writes its image into the ring's banks and its Result is the image's length, records and meters of the Reservoir read at home first
(R279); a bulk load whose image passes its table's checks
completes, and one of Verdict Store records leaves every record of the image in the store. What other masters' conflicts with these accesses count is
left open (R72, R78). -/
def Obligations.BulkCommandsComplete : Prop :=
  ∀ (s : State) (r : Nat) (f : Fetch) (d b : Bytes),
    let m := s.obj (O.ringExecutor r)
    let u := takenUp r d b s
    bulkGate d s = none → bulkCheck m d s = none →
    (∀ img, Runs r 0x32 f d b s → dumpImage (blKind d) (blTable d) (dumpReads (blKind d) (blTable d) u) = .inl img → img.length ≤ blLength d →
      exec (.tableDump r f) s =
        .next (completed r img.length f (writeImage (blMask d) img (bulkContend m d true (dumpReads (blKind d) (blTable d) u))))) ∧
    (∀ img x t, Runs r 0x31 f d b s → readImage s (blMask d) (blLength d) = some img →
      loadImage (blKind d) (blTable d) img (bulkContend m d false u) = .done 0 x t → exec (.bulkLoad r f) s = .next (completed r x f t)) ∧
    (∀ img, Runs r 0x31 f d b s → readImage s (blMask d) (blLength d) = some img → blKind d = 5 → blTable d = 1 → img.length % 32 = 0 →
      (records 32 img).all (recordImageOk 1) = true → indicesDistinct (records 32 img) = true →
      (∀ x ∈ records 32 img, recSealed (readRecord 1 (le x 0 4) s) = false) →
      ∃ t, exec (.bulkLoad r f) s = .next (completed r (records 32 img).length f t) ∧ FramedBy [.results, .rings, .live, .fresh, .scratch] s t ∧
        (∀ x ∈ records 32 img, readRecord 1 (le x 0 4) t = le x 8 16) ∧
        (∀ i, (∀ x ∈ records 32 img, le x 0 4 ≠ i) → readRecord 1 i t = readRecord 1 i s))

/-! ## Headgate: links and searches (R87–R136, R139–R143, R169, R251) -/

/-- A parcel that arrives whole on a link that is up: `p` has the framing, the lengths and the CRC that R93 and R97 ask. -/
def Obligations.ParcelsComplete : Prop :=
  ∀ (s : State) (m : Nat) (p : Parcel), m < 8 → s.headgate.links.length = 8 → linkUp (linkAt s m) = true →
    ∀ c, c = Instr.dataParcelReceived m p ∨ c = Instr.nullParcelReceived m p →
    (framedWrongly p = true → ∃ t, exec c s = .next t ∧ FramedBy [.live, .links, .out] s t ∧
      t.val (O.framingErrors m) = (s.val (O.framingErrors m) + 1) % 2 ^ 32 ∧ (linkAt t m).rxSeq = (linkAt s m).rxSeq) ∧
    (framedWrongly p = false → crcGood p = false → ∃ t, exec c s = .next t ∧ FramedBy [.live, .links, .out] s t ∧
      t.val (O.crcErrors m) = (s.val (O.crcErrors m) + 1) % 2 ^ 32 ∧ (linkAt t m).rxSeq = (linkAt s m).rxSeq ∧
      ((linkAt s m).nakked.2 = 0 → t.out = .parcel m 0 0 (ackSeq (linkAt s m)) true [] false :: s.out)) ∧
    (framedWrongly p = false → crcGood p = true → phType p = 0 → phNak p = false → ∃ t, exec c s = .next t ∧ FramedBy [.links] s t ∧
      (linkAt t m).unacked = (if (linkAt s m).unacked.any (fun x => x.1 == phAck p) = true
        then ((linkAt s m).unacked.dropWhile fun x => x.1 != phAck p).drop 1 else (linkAt s m).unacked) ∧
      (linkAt t m).rxSeq = (linkAt s m).rxSeq) ∧
    (framedWrongly p = false → crcGood p = true → phType p = 1 → phNak p = false → 1 ≤ ((linkAt s m).rxSeq + 4096 - phSeq p) % 4096 →
      ((linkAt s m).rxSeq + 4096 - phSeq p) % 4096 ≤ 2047 → phSeq p ≠ (linkAt s m).rxSeq →
      ∃ t, exec c s = .next t ∧ FramedBy [.live, .links, .out] s t ∧
        t.val (O.duplicateParcels m) = (s.val (O.duplicateParcels m) + 1) % 2 ^ 32 ∧ (linkAt t m).rxSeq = (linkAt s m).rxSeq ∧
        t.out = .parcel m 0 0 (ackSeq (linkAt s m)) false [] false :: s.out)

/-- R94, R101, R106: an expected Data parcel whose body is one Key Token within its credits advances the expected Seq and is accepted into the
lowest free slot of its class's pool, with its header, its snapshot and the configuration that is live; it is acknowledged. -/
def Obligations.KeyTokenIsAccepted : Prop :=
  ∀ (s : State) (m id : Nat) (p : Parcel),
    let l := linkAt s m
    let h := be p.body 0 16
    let c := ktClass h
    m < 8 → s.headgate.links.length = 8 → linkUp l = true → framedWrongly p = false → crcGood p = true → phType p = 1 → phNak p = false →
    phSeq p = l.rxSeq → u8 p.body 0 = 0x10 → c ≠ 0 → p.body.length = 16 + ceil8 (ktSnapshot h) → ktSnapshot h ≤ 128 → awaiting s m c none = none →
    l.used.getD (c - 1) 0 < l.granted.getD (c - 1) 0 →
    l.unitsUsed.getD (c - 1) 0 + unitsOf (ktPayload h) ≤ l.unitsGranted.getD (c - 1) 0 → freeSlot s c = some id →
    ∃ t x, exec (.dataParcelReceived m p) s = .next t ∧ t.headgate.slots = s.headgate.slots ++ [x] ∧ x.id = id ∧ x.link = m ∧ x.header = h ∧
      x.snapshot = slice p.body 16 (ktSnapshot h) ∧ (x.phase = .assigned ∨ (x.phase = .done ∧ x.verdict.status ≠ 0)) ∧
      (linkAt t m).rxSeq = (l.rxSeq + 1) % 4096 ∧
      t.out.head? = some (.parcel m 0 0 l.rxSeq false [] false)

/-- R90–R92, R100: a trained link whose switch sent version 0x01 comes up on the lanes it has, in a new credit epoch; where either side is Fresh the
sequence state starts anew and every result held for the link is discarded, while searches that still run keep their slots. Another version leaves
it down. R91, R92, R98, R100–R102: a lost lane retrains the link, on one lane where it has another and AllowDegrade lets it, else on two, or leaves it down
while K1 has no reference (R16); the replay timer, the credit timer, and an undefined control block. -/
def Obligations.LinksTrainAndTimeOut : Prop :=
  (∀ (s : State) (m : Nat) (x : Training),
     let l := linkAt s m
     m < 8 → s.headgate.links.length = 8 → (l.state = 1 ∨ l.state = 4) → bit s.modes.refLost 0 = false → s.power.core = true → s.modes.halted = false →
     (x.version = 1 → ∃ t, exec (.linkUp m x) s = .next t ∧
       (linkAt t m).state = (if x.lanes = 1 ∨ l.lost ≠ 0 then 3 else 2) ∧ (linkAt t m).fresh = false ∧ (linkAt t m).used = [0, 0, 0] ∧
       (linkAt t m).unitsUsed = [0, 0, 0] ∧ t.val (O.peerPort m) = x.port % 256 ∧
       ((x.fresh = true ∨ l.fresh = true) → (linkAt t m).rxSeq = 0 ∧
         t.headgate.slots = s.headgate.slots.filter fun y => !(y.link == m && y.phase == .done)) ∧
       (x.fresh = false → l.fresh = false → (linkAt t m).rxSeq = l.rxSeq ∧ t.headgate.slots = s.headgate.slots)) ∧
     (x.version ≠ 1 → exec (.linkUp m x) s = .next s)) ∧
  (∀ (s : State) (m : Nat),
     let l := linkAt s m
     m < 8 → s.headgate.links.length = 8 → linkUp l = true →
     (∀ lane < 2, bit l.lost lane = false → ∃ t, exec (.laneLost m lane) s = .next t ∧
       (linkAt t m).state = (if bit s.modes.refLost 0 = true then 4 else 1) ∧
       (linkAt t m).lost = (if bit l.lost (1 - lane) = false ∧ s.obj (O.allowDegrade m) ≠ 0 then 2 ^ lane else 0) ∧
       t.val (O.retrains m) = (s.val (O.retrains m) + 1) % 2 ^ 32 ∧ (bit s.modes.refLost 0 = false → .training m (trainingOf m t) ∈ t.out)) ∧
     (l.unacked ≠ [] → l.resends < 8 → ∃ t, exec (.replayTimer m) s = .next t ∧ (linkAt t m).resends = l.resends + 1 ∧
       t.out = (l.unacked.reverse.map fun x => Output.parcel m 1 x.1 (ackSeq l) false x.2 true) ++ s.out) ∧
     (l.unacked ≠ [] → 8 ≤ l.resends → ∃ t, exec (.replayTimer m) s = .next t ∧
       (linkAt t m).state = (if bit s.modes.refLost 0 = true then 4 else 1) ∧ (linkAt t m).resends = 0) ∧
     (l.unacked = [] → exec (.replayTimer m) s = .next s) ∧
     (replayRoom l 16 = true → ∃ t, exec (.creditTokenTimer m) s = .next t ∧ FramedBy [.links, .out] s t ∧
       (linkAt t m).granted = (newGrants s m).1 ∧ (linkAt t m).unitsGranted = (newGrants s m).2 ∧ (linkAt t m).txSeq = (l.txSeq + 1) % 4096 ∧
       t.out = .parcel m 1 l.txSeq (ackSeq l) false (creditToken (linkAt t m)) false :: s.out) ∧
     (∃ t, exec (.undefinedControlBlock m) s = .next t ∧ FramedBy [.live] s t ∧ ObjectsOnly [O.protocolErrors m] s t ∧
       t.val (O.protocolErrors m) = (s.val (O.protocolErrors m) + 1) % 2 ^ 32))

/-- R17, R121: an assigned search, or one held before a step, that its Lateral, or the Flume, can take runs: it ends with a verdict, or goes on to wait
for its payload, a MAC context, a MAC operation, the chain or a step that is held (R399). A program that has no step left and no candidate ends NO_MATCH
with DROP, or LEN_MISMATCH where its payload is inconsistent already, and with its payload still awaited it waits for that (R125). With every Lateral
quarantined it ends ERR_DATA. -/
def Obligations.SearchRunCompletes : Prop :=
  ∀ (s : State) (id : Nat) (x : Slot), id < 256 → slotById s id = some x → (x.phase = .assigned ∨ x.phase = .stepWait) →
    let a := slotClass x == 1
    let p := slotProgram x
    (((a = true ∨ (s.modes.quarantine % 256 ≠ 255 ∧ (x.lateral < 8 ∨ chooseLateral s < 8))) →
      ∃ t y, exec (.searchRun id) s = .next t ∧ slotById t id = some y ∧ y.phase ≠ .assigned ∧ y.header = x.header ∧ y.link = x.link ∧
        (pgSteps p ≤ x.step → x.cand = none → y.verdict.action = 1 ∧
          (if x.payState = .awaited then y.phase = .payloadWait
           else y.phase = .done ∧ y.verdict.status = (if x.payState = .inconsistent then 0x21 else 1)))) ∧
    (a = false → s.modes.quarantine % 256 = 255 →
      ∃ t y, exec (.searchRun id) s = .next t ∧ slotById t id = some y ∧ y.phase = .done ∧ y.verdict.status = 0x40 ∧
        y.verdict.action = pgFallback p))

/-- R105: the search whose payload is not complete in time is taken to have an inconsistent one, and its units are free. R251: a MAC operation ends
its search, and the contexts that it frees go to searches that wait for one; a search whose MAC differs, its keys still served and its freshness counter
sound (R280), ends AUTH_FAIL. R133, R384: a chain-wide lookup that is not answered in time ends its search CHAIN_TIMEOUT with the program's FallbackAction. -/
def Obligations.SearchWaitsEnd : Prop :=
  (∀ (s : State) (m c tag : Nat), m < 8 → 1 ≤ c → c ≤ 3 →
     (∀ x, awaiting s m c (some tag) = some x → x.phase ≠ .payloadWait →
       ∃ t, exec (.payloadTimeout m c tag) s = .next t ∧ FramedBy [.slots, .links, .out] s t ∧
         slotById t x.id = some { x with payState := .inconsistent, payload := [], units := 0 }) ∧
     (awaiting s m c (some tag) = none → ∃ t, exec (.payloadTimeout m c tag) s = .next t ∧ FramedBy [.links] s t ∧
       ∀ a ∈ (linkAt t m).absorbed, ¬(a.1 = c ∧ a.2.1 = tag))) ∧
  (∀ (s : State) (id : Nat) (x : Slot) (w : MacWork), id < 256 → slotById s id = some x → x.phase = .mac → x.mac = some w →
     ∃ u y, exec (.macOperationDone id) s = .next (settleGrants (releaseContexts u)) ∧ slotById u id = some y ∧ y.phase = .done ∧ y.mac = none ∧
       y.header = x.header ∧
       (∀ i j, s.keys.closed = false → fieldPlaces w.profile x.payload.length = some (i, j) → apGenerate w.profile = false →
         macOver w.profile w.key (authenticData w.profile i j x.payload) w.candidate ≠ slice x.payload i (apMacBytes w.profile) →
           (let counter := freshnessId w.profile x.verdict.record
          apN w.profile = 0 ∨ (freshPoisoned (apStore w.profile) counter s = false ∧
            (apStore w.profile = 1 ∨ AtHome s (lineOf (freshGranule counter))))) →
         y.verdict.status = 0x10)) ∧
  (∀ (s : State) (id : Nat) (x : Slot), slotById s id = some x → x.phase = .chainWait →
     (id < 64 → slotClass x = 1 → ∃ t y, exec (.chainTimeoutA id) s = .next t ∧ slotById t id = some y ∧ y.phase = .done ∧
       y.verdict.status = 0x42 ∧ y.verdict.action = pgFallback (slotProgram x)) ∧
     (id < 256 → slotClass x ≠ 1 → ∃ t y, exec (.chainTimeoutBc id) s = .next t ∧ slotById t id = some y ∧ y.phase = .done ∧
       y.verdict.status = 0x42 ∧ y.verdict.action = pgFallback (slotProgram x)))

/-- R107, R109: the oldest result of a link and class leaves as a Result Token at the end of its parcel, and its slot is returned. R99: a class B or
C result leaves only while no class A result is ready. R134: an authenticated class A result of a payload of 65 to 4,096 B marks the class A searches
behind it on its link (`late`). -/
def Obligations.ResultTokenIsSent : Prop :=
  ∀ (s : State) (m c span : Nat) (x : Slot) (rest : List Slot),
    let ext := if x.verdict.ext = 0 then [] else beBytes 32 x.verdict.ext
    m < 8 → s.headgate.links.length = 8 → 1 ≤ c → c ≤ 3 → slotsOf s m c = x :: rest → x.phase = .done → linkUp (linkAt s m) = true →
    replayRoom (linkAt s m) (48 + ext.length) = true → (c = 1 ∨ classAWaits s m = false) →
    ∃ t pre, exec (.resultTokenSend m c span) s = .next t ∧ pre.length ≤ 16 ∧
      t.headgate.slots = (s.headgate.slots.filter fun y => y.id != x.id).map (fun y =>
        if c = 1 ∧ longAuth x = true ∧ y.link = m ∧ slotClass y = 1 then { y with late := true } else y) ∧
      .parcel m 1 (linkAt s m).txSeq (ackSeq (linkAt s m)) false (pre ++ beBytes 32 (resultToken x) ++ ext) false ∈ t.out ∧
      (linkAt t m).txSeq = ((linkAt s m).txSeq + 1) % 4096

/-- R169: a trie lookup answers the record of a prefix of its table that covers the key, and no longer one covers it; it misses where none does.
R142, R143: a quarter's lookup answers the first matching slot with the shadow that proves it; a winner whose check fails is a mismatch, and its
slot is written again from its shadow. R400: the third of one slot within a lap quarantines the quarter, which until then nothing else of the device
notices. -/
def Obligations.LookupsAnswerTheBestMatch : Prop :=
  (∀ (s : State) (n t key : Nat),
     let plan := triePlan (trieDef s.dict.live t)
     let k := key / 2 ^ (320 - planBits plan)
     let ps := triePrefixes s.furrow.prefixes t
     FramedBy [.live] s (trieLookup s.dict.live n t key s).2 ∧
     (∀ r, (trieLookup s.dict.live n t key s).1 = some r → ∃ p ∈ ps, p.record = r ∧ covers p (planBits plan) k = true ∧
       ∀ q ∈ ps, covers q (planBits plan) k = true → q.length ≤ p.length) ∧
     ((trieLookup s.dict.live n t key s).1 = none ↔ ∀ p ∈ ps, covers p (planBits plan) k = false)) ∧
  (∀ (s : State) (q t : Nat) (wide : Bool) (word : Nat),
     let r := tcamLookup q t wide word s
     let matches_ : Nat × TcamSlot → Bool := fun e => slotMatches s wide word (tcamGen s q t) e.1 e.2
     (∀ k h, r.1 = .hit k h → r.2 = s ∧ ∃ pre x post, s.tcam.slots = pre ++ (k, x) :: post ∧ h = x.shadow ∧ matches_ (k, x) = true ∧
       (∀ e ∈ pre, e.1 / 8192 = q → matches_ e = false) ∧ (word / (if wide = true then 2 ^ 192 else 1) ^^^ h.value) &&& h.slotMask = 0) ∧
     (r.1 = .miss ↔ ∀ e ∈ s.tcam.slots, e.1 / 8192 = q → matches_ e = false) ∧
     (r.1 = .mismatch → r.2.val O.winnerMismatches = (s.val O.winnerMismatches + 1) % 2 ^ 32 ∧
       r.2.val O.shadowRewrites = (s.val O.shadowRewrites + 1) % 2 ^ 32 ∧
       ∃ pre k x post, s.tcam.slots = pre ++ (k, x) :: post ∧ k / 8192 = q ∧ matches_ (k, x) = true ∧
         (∀ e ∈ pre, e.1 / 8192 = q → matches_ e = false) ∧ (wide = false → slotAt r.2 k = slotOf x.shadow) ∧
         (s.tcam.mismatched.count k < 2 → FramedBy [.tcam, .live] s r.2) ∧
         (2 ≤ s.tcam.mismatched.count k → bit r.2.modes.quarantine (0x10 + q) = true)))

/-! ## Counters, meters, learning and aging (R207–R217, R231, R234) -/

/-- R234, R280: the oldest counter fetch-add posted to a home slice takes its turn at its line, adds its frames and bytes, each modulo 2^64, and is
posted no longer; on a pair that is poisoned there it is discarded and counted. R231, R236: a valid meter that no search has updated for 2^42 ns is
updated at no cost, and keeps its validity and profile; one that is poisoned is counted and left (R280), and a Flume meter whose word is lost is left.
R215: a read of the aging sweep clears the FlapCount of every way of its bucket whose window has run out, posts a compare-and-delete for every way
whose entry is neither static nor sealed and has expired, and goes on to the next bucket, the overflow entries, or the next lap. -/
def Obligations.CountersMetersAndSweepsComplete : Prop :=
  (∀ (s : State) (home : Nat), home < 16 →
     let mine : Nat × Nat × Nat → Bool := fun p => sliceOf (lineOf (counterGranule p.1)) == home
     (∀ p, s.results.posted.find? mine = some p → s.val O.domainState = 0 →
       let g := counterGranule p.1
       let u := atHome g { s with results := { s.results with posted := s.results.posted.erase p } }
       ∃ t, exec (.counterFetchAdd home) s = .next t ∧ t.results = { s.results with posted := s.results.posted.erase p } ∧
         (poisoned u g = true → t.coh = u.coh ∧ t.val O.poisonedAtomics = (u.val O.poisonedAtomics + 1) % 2 ^ 32) ∧
         (poisoned u g = false → Still s (lineOf g) → readGranule t g = addPair (readGranule s g) p.2.1 p.2.2)) ∧
     (s.results.posted.find? mine = none → exec (.counterFetchAdd home) s = .next s)) ∧
  (∀ (s : State) (flume : Bool) (m : Nat),
     let v := readMeter (b2n flume) m s
     let prof := meterProfileIn s.dict.live (meterProfileId v)
     m < meterCount (b2n flume) → s.power.core = true → meterValid v = true → profMode prof ≠ 0 →
     2 ^ 42 ≤ (elapsed s + 2 ^ 44 - bits v 115 72) % 2 ^ 44 →
     ((if flume = true then SMap.get false s.results.bad (2 ^ 21 + m) = false
       else s.val O.domainState = 0 ∧ meterPoisoned false m (reachMeter false m s) = false) →
       ∃ t, exec (.meterIdleRefresh flume m) s = .next t ∧ t.val O.idleRefreshes = (s.val O.idleRefreshes + 1) % 2 ^ 32 ∧
         (flume = true → t.coh = s.coh ∧ readMeter 1 m t = (meterStep prof (elapsed s) 0 0 v).2 ∧
           ∀ i, i ≠ m → readMeter 1 i t = readMeter 1 i s)) ∧
     (flume = true → SMap.get false s.results.bad (2 ^ 21 + m) = true → exec (.meterIdleRefresh flume m) s = .next s) ∧
     (flume = false → s.val O.domainState = 0 → meterPoisoned false m (reachMeter false m s) = true →
       exec (.meterIdleRefresh flume m) s = .next (poisonHit (reachMeter false m s)))) ∧
  (∀ (s : State) (tb : Nat) (sw : Sweep),
     let d := tableDef s.dict.live tb
     let a := agingDef s.dict.live tb
     let base := bucketPlace (defExt d) (regionBase tb s)
     tb < 64 → sweepRuns tb s = true → (SMap.find? s.buckets.sweeps tb).getD ⟨0, tickNow s tb, false⟩ = sw → sw.pos < 2 ^ defLog2 d →
     (∀ i < 16, sliceLength s i ≤ 60) →
     ∃ t sw', exec (.agingSweepRead tb) s = .next t ∧ SMap.find? t.buckets.sweeps tb = some sw' ∧
       sw'.pos = (if sw.pos + 1 = 2 ^ defLog2 d ∧ (tableEntries tb s).all (fun e => !isOverflow e.1) = true then 0 else sw.pos + 1) ∧
       ∀ w < 4, ∀ e, entryAt? s (base + 4 * sw.pos + w) = some e → e.table = tb →
         (e.static = false → e.sealed = false → ageTicks a ≤ (tickNow s tb + 65536 - e.timestamp) % 65536 →
           (keyBucket s tb e.key % 16, SliceOp.ageDelete tb e.key e.timestamp) ∈ t.buckets.queue) ∧
         (flapWindow (learnDef s.dict.live tb) ≤ (tickNow s tb + 65536 - e.flapStart) % 65536 →
           entryAt? t (base + 4 * sw.pos + w) = some { e with flap := 0 }))

/-- R207, R206: a learn at the head of its slice's queue makes the entry of a new station, moves a learned one, or is counted as failed. R214: a
refresh writes the present tick as the entry's Timestamp, and nothing where it stands there already or the table does not age (Table 9-4); without an
entry it is an orphan. -/
def Obligations.LearnsAndRefreshesComplete : Prop :=
  (∀ (s : State) (slice tb key rec_ ch : Nat),
     let q : Nat × SliceOp := (slice, .learn tb key rec_ ch)
     let u : State := { s with buckets := { s.buckets with queue := s.buckets.queue.erase q } }
     slice < 16 → s.buckets.queue.find? (fun x => x.1 == slice) = some q → s.power.core = true →
     (opNeedsHome s q.2 = false ∨ s.val O.domainState = 0) → tagPoisoned u tb key = false →
     (findPlace u tb key = none → (s.val (O.learnLimit tb) = 0 ∨ learnedOf tb s < s.val (O.learnLimit tb)) →
       (∀ p, planInsert u tb key = .inl p → ∃ t, exec (.learnApply slice) s = .next t ∧
         t.val O.learnsApplied = (s.val O.learnsApplied + 1) % 2 ^ 32 ∧
         entryAt? t p = some { hostEntry u tb key rec_ false 0 with learned := true, channel := ch, flapStart := tickNow u tb }) ∧
       (∀ d, planInsert u tb key = .inr d → ∃ t, exec (.learnApply slice) s = .next t ∧ t.buckets.entries = s.buckets.entries ∧
         t.val (O.insertFailures tb) = (s.val (O.insertFailures tb) + 1) % 2 ^ 32)) ∧
     (∀ p e, findPlace u tb key = some p → entryAt? u p = some e → e.static = false → e.sealed = false → e.learned = true → e.moveLocked = false →
       e.record ≠ rec_ → ∃ t e', exec (.learnApply slice) s = .next t ∧ t.val O.stationMoves = (s.val O.stationMoves + 1) % 2 ^ 32 ∧
         entryAt? t p = some e' ∧ e'.key = e.key ∧ e'.record = rec_ ∧ e'.channel = ch ∧ e'.timestamp = tickNow u tb ∧
         (e'.moveLocked = true ↔ flapLimit (learnDef s.dict.live tb) ≠ 0 ∧ flapLimit (learnDef s.dict.live tb) < e'.flap)) ∧
     (∀ p e, findPlace u tb key = some p → entryAt? u p = some e → (e.static = true ∨ e.sealed = true ∨ e.learned = false) →
       ∃ t, exec (.learnApply slice) s = .next t ∧ t.buckets.entries = s.buckets.entries ∧
         t.val O.staticConflicts = (s.val O.staticConflicts + 1) % 2 ^ 32)) ∧
  (∀ (s : State) (slice tb key : Nat),
     let q : Nat × SliceOp := (slice, .refresh tb key)
     let u : State := { s with buckets := { s.buckets with queue := s.buckets.queue.erase q } }
     slice < 16 → s.buckets.queue.find? (fun x => x.1 == slice) = some q → s.power.core = true →
     (opNeedsHome s q.2 = false ∨ s.val O.domainState = 0) → tagPoisoned u tb key = false →
     (∀ p e, findPlace u tb key = some p → entryAt? u p = some e → agingOn (agingDef s.dict.live tb) = false →
       exec (.refresh slice) s = .next u) ∧
     (∀ p e, findPlace u tb key = some p → entryAt? u p = some e → agingOn (agingDef s.dict.live tb) = true → ∃ t, exec (.refresh slice) s = .next t ∧
       entryAt? t p = some { e with timestamp := tickNow u tb } ∧ (∀ j, j ≠ p → entryAt? t j = entryAt? s j) ∧
       (e.timestamp = tickNow u tb → t = u) ∧
       (e.timestamp ≠ tickNow u tb → t.val O.refreshWrites = (s.val O.refreshWrites + 1) % 2 ^ 32)) ∧
     (findPlace u tb key = none → ∃ t, exec (.refresh slice) s = .next t ∧ t.buckets.entries = s.buckets.entries ∧
       t.val O.refreshOrphans = (s.val O.refreshOrphans + 1) % 2 ^ 32))

/-- R217, R191: an aging delete removes the entry of its key only if its Static and Sealed are 0 and its Timestamp is the one that the sweep read,
and is counted in AgedOut; the overflow entry of the lowest slot of the same table and bucket then takes the freed way. Otherwise it fails and is
counted in AgeDeleteLost. -/
def Obligations.AgingDeleteIsACompareAndDelete : Prop :=
  ∀ (s : State) (slice tb key ts : Nat),
    let q : Nat × SliceOp := (slice, .ageDelete tb key ts)
    let u : State := { s with buckets := { s.buckets with queue := s.buckets.queue.erase q } }
    slice < 16 → s.buckets.queue.find? (fun x => x.1 == slice) = some q → s.power.core = true →
    (opNeedsHome s q.2 = false ∨ s.val O.domainState = 0) → tagPoisoned u tb key = false →
    (∀ p e, findPlace u tb key = some p → entryAt? u p = some e → tagBad u p = false → e.static = false → e.sealed = false → e.timestamp = ts →
      let w := dropEntry p u
      let next := List.find? (fun x => isOverflow x.1 && x.2.table == tb && keyBucket w tb x.2.key == placeBucket p) w.buckets.entries
      ∃ t, exec (.ageDelete slice) s = .next t ∧ t.val O.agedOut = (s.val O.agedOut + 1) % 2 ^ 32 ∧
        (∀ o x, next = some (o, x) → p < 0x40000 → placeFree w p = true → entryAt? t p = some x ∧ entryAt? t o = none) ∧
        ((next = none ∨ 0x40000 ≤ p ∨ placeFree w p = false) → entryAt? t p = none ∧ ∀ j, j ≠ p → entryAt? t j = entryAt? s j)) ∧
    ((findPlace u tb key = none ∨ ∃ p e, findPlace u tb key = some p ∧ entryAt? u p = some e ∧ (e.static = true ∨ e.sealed = true ∨ e.timestamp ≠ ts)) →
      ∃ t, exec (.ageDelete slice) s = .next t ∧ t.buckets.entries = s.buckets.entries ∧
        t.val O.ageDeleteLost = (s.val O.ageDeleteLost + 1) % 2 ^ 32)

/-! ## The pair and the chain (R367–R386) -/

/-- R368, R370: a HELLO of another PairId is counted, whatever the pair's state; while pairing, one of another version or build splits the pair, the
secondary to Standby; one whose configuration differs starts ConfigGrace, with the role resolved; one that agrees makes the pair Paired, with its role
resolved. R369, R370: a paired peer's digest that differs starts ConfigGrace and one that agrees ends it; in Split and Standby agreement pairs anew;
at the end of ConfigGrace a difference splits the pair. -/
def Obligations.PairingCompletes : Prop :=
  (∀ (s : State) (m : Hello), pairState s ≠ 0 → m.pairId ≠ s.val O.pairId → ∃ t, exec (.hello m) s = .next t ∧ FramedBy [.live] s t ∧
     ObjectsOnly [O.pairIdMismatches] s t ∧ t.val O.pairIdMismatches = (s.val O.pairIdMismatches + 1) % 2 ^ 32) ∧
  (∀ (s : State) (m : Hello), pairState s = 1 →
     let u : State := onPair (fun p => { p with peerDigest := some m.digest }) (s.put O.peerUid (leNat (beBytes 16 m.uid)))
     (m.pairId = s.val O.pairId → (m.version ≠ 1 ∨ m.build ≠ beNat (fit 32 s.modes.fwBuild)) →
       ∃ t, exec (.hello m) s = .next t ∧ pairState t = (if resolvedRole s m = 2 then 5 else 4) ∧ faultActive 0x0142 t = true) ∧
     (m.pairId = s.val O.pairId → m.version = 1 → m.build = beNat (fit 32 s.modes.fwBuild) → m.digest ≠ beNat (pairConfigDigest u) →
       ∃ t, exec (.hello m) s = .next t ∧ FramedBy [.live, .pair] s t ∧ t.pair.grace ≠ 0 ∧ pairState t = 1 ∧
         t.val O.pairRole = resolvedRole s m) ∧
     (m.pairId = s.val O.pairId → m.version = 1 → m.build = beNat (fit 32 s.modes.fwBuild) → m.digest = beNat (pairConfigDigest u) →
       ∃ t, exec (.hello m) s = .next t ∧ pairState t = 2 ∧ t.val O.pairRole = resolvedRole s m ∧ t.pair.seq = 0 ∧ t.pair.doneSeq = 0)) ∧
  (∀ (s : State) (count digest : Nat),
     let u : State := onPair (fun p => { p with peerDigest := some digest }) s
     let agree : Prop := digest = beNat (pairConfigDigest u)
     (pairState s = 2 → ¬agree → ∃ t, exec (.configDigest count digest) s = .next t ∧ FramedBy [.pair] s t ∧ t.pair.grace ≠ 0) ∧
     (pairState s = 2 → agree → ∃ t, exec (.configDigest count digest) s = .next t ∧ FramedBy [.pair] s t ∧ t.pair.grace = 0) ∧
     ((pairState s = 4 ∨ pairState s = 5) → agree → ∃ t, exec (.configDigest count digest) s = .next t ∧ pairState t = 1) ∧
     (pairState s = 0 → exec (.configDigest count digest) s = .next s) ∧
     (s.pair.grace ≠ 0 → (pairState s = 1 ∨ pairState s = 2) → s.pair.peerDigest = some digest → digest ≠ beNat (pairConfigDigest s) →
       ∃ t, exec .configGraceExpired s = .next t ∧ pairState t = (if s.val O.pairRole = 2 then 5 else 4) ∧ t.pair.grace = 0) ∧
     (s.pair.grace ≠ 0 → (pairState s = 1 ∨ pairState s = 2) → s.pair.peerDigest = some digest → digest = beNat (pairConfigDigest s) →
       ∃ t, exec .configGraceExpired s = .next t ∧ FramedBy [.pair] s t ∧ t.pair.grace = 0))

/-- R368, R378, R379, Table 17-2: the pair's timers send their messages while Culvert is up; Culvert lost leaves the pair Solo, and up again it
pairs. R378: the secondary echoes the primary's times and, with each, takes over the primary's elapsed count; the primary adds when the echo
came; the secondary then notes its offset, steps its Timebase by one above 100 us, and slews it by no more than 100 ns otherwise. The slew is a free
value. -/
def Obligations.PairTimersAndTimeComplete : Prop :=
  (∀ s : State,
     (pairState s = 1 → culvertUp s = true → ∃ t body, exec .helloTimer s = .next t ∧ FramedBy [.out] s t ∧ t.out = .culvert 0x01 body :: s.out ∧
       body.head? = some (BitVec.ofNat 8 (claimedRole s))) ∧
     (pairedAs 1 s = true → culvertUp s = true → ∃ t, exec .timeTimer s = .next t ∧ FramedBy [.out] s t ∧
       t.out = .culvert 0x30 (zeros 7 ++ beBytes 8 (timebase s) ++ beBytes 8 (elapsed s) ++ zeros 16) :: s.out) ∧
     (∀ d, pairedAs 1 s = true → culvertUp s = true → s.pair.digests.find? (fun x => x.1 == s.pair.doneSeq) = some d →
       ∃ t, exec .stateDigestTimer s = .next t ∧ FramedBy [.out] s t ∧ t.out.length = s.out.length + ((allRegions s).length + 19) / 20) ∧
     (s.val O.culvertLinkState ≠ 0 → ∃ t, exec .culvertLost s = .next t ∧ (pairState s ≠ 2 → t.val O.culvertLinkState = 4) ∧
       (pairState s = 1 ∨ pairState s = 2 → pairState t = 3) ∧ (pairState s ≠ 1 → pairState s ≠ 2 → pairState t = pairState s)) ∧
     (s.power.core = true → s.val O.culvertLinkState ≠ 0 → culvertUp s = false → s.modes.halted = false → bit s.modes.refLost 1 = false →
       ∃ t, exec .culvertUp s = .next t ∧ t.val O.culvertLinkState = 2 ∧ pairState t = (if pairState s = 3 then 1 else pairState s))) ∧
  (∀ (s : State) (t1 t2 t3 t4 : Nat),
     (pairedAs 1 s = true → culvertUp s = true → t3 ≠ 0 → t4 = 0 → ∃ t, exec (.time t1 t2 t3 t4) s = .next t ∧ FramedBy [.out] s t ∧
       t.out = .culvert 0x30 (zeros 7 ++ beBytes 8 t1 ++ beBytes 8 t2 ++ beBytes 8 t3 ++ beBytes 8 (timebase s)) :: s.out) ∧
     (pairedAs 2 s = true → t3 = 0 → t4 = 0 → ∃ t, exec (.time t1 t2 t3 t4) s = .next t ∧ FramedBy [.clock, .pair, .out] s t ∧
       t.clock = { s.clock with tickAdj := (t2 : Int) - elapsed s }) ∧
     (pairedAs 2 s = true → t4 ≠ 0 → ∃ t, exec (.time t1 t2 t3 t4) s = .next t ∧
       let o := timeOffsetOf t1 t2 t3 t4
       t.val O.timeOffset = unsigned 32 o ∧ t.clock.tickAdj = s.clock.tickAdj ∧
       (100000 < o.natAbs → t.clock.timeAdj = s.clock.timeAdj - o) ∧
       (o.natAbs ≤ 100000 → (t.clock.timeAdj - s.clock.timeAdj).natAbs ≤ 100 ∧ (t.clock.timeAdj - s.clock.timeAdj).natAbs ≤ o.natAbs) ∧
       (1000 < o.natAbs → t.val O.timeUnsynced ≠ 0) ∧ (o.natAbs < 500 → t.val O.timeUnsynced = 0)))

/-- R371–R373: a vote against the command halts its ring with PEER_FAIL; a vote for it makes the primary's effect write and sends CMD_COMMIT;
CMD_DONE, or its timeout, writes the record; a vote that does not come halts the ring with PEER_TIMEOUT. -/
def Obligations.ForwardedCommandsComplete : Prop :=
  ∀ (s : State) (r seq : Nat), Sound s → (ringAt s r).disabling = 0 →
    (∀ st d, ringVoting s seq = some r → 0x10 ≤ st → ∃ t, exec (.cmdVote st d seq) s = .next t ∧ (ringAt t r).halted = true ∧
      (ringAt t r).waiting = none ∧ (ringAt t r).haltInfo = dsOpcode (ringAt s r).desc * 2 ^ 24 + 0x1B * 2 ^ 16 + (0x2F00 + st % 256)) ∧
    (∀ st d st' x v, ringVoting s seq = some r → st < 0x10 →
      let u := unhold seq s
      ringPaused u r = false → effectHeld (ringAt u r).desc (ringAt u r).block u = false →
      ringOp (u.obj (O.ringExecutor r)) true (ringAt u r).desc (ringAt u r).block u = .done st' x v →
      ∃ t, exec (.cmdVote st d seq) s = .next t ∧ (ringAt t r).waiting = some (.done seq st' 0 x)) ∧
    (∀ st d x, seq ≠ 0 → ringDoing s seq = some r → (ringAt s r).waiting = some (.done seq st d x) → s.val O.domainState = 0 → s.modes.halted = false →
      (∃ u, exec (.cmdDone seq) s = .next (settleFences 8 (completeCommand r st x s.host.canSend u)) ∧ FramedBy [.pair] s u ∧
        u.pair.doneSeq = max s.pair.doneSeq seq) ∧
      (∃ u, exec (.peerDoneTimeout seq) s = .next (settleFences 8 (completeCommand r st x s.host.canSend u)) ∧ FramedBy [.live, .pair] s u ∧
        u.val O.peerCommitLost = (s.val O.peerCommitLost + 1) % 2 ^ 32)) ∧
    (ringVoting s seq = some r → ∃ t, exec (.peerVoteTimeout seq) s = .next t ∧ (ringAt t r).halted = true ∧
      (ringAt t r).haltInfo = dsOpcode (ringAt s r).desc * 2 ^ 24 + 0x1B * 2 ^ 16 + 0x2F1F)

/-- R371, R373: a command prepared at the secondary is voted on: it passes with its places reserved, or it fails and is dropped. R371–R373, R381:
CMD_COMMIT applies a command that was voted for, unless a search's mark or slot writes under way keep its tables, and CMD_DONE goes back; CMD_ABORT and
the end of the reservation drop it; IMAGE_DATA lands at its offset, in the Culvert banks. -/
def Obligations.HeldCommandsComplete : Prop :=
  (∀ (s : State) (seq : Nat) (desc block : Bytes),
     let p : Prepared := ⟨seq, fit 64 desc, block, [], none, false, false⟩
     let u : State := onPair (fun x => { x with seq }) (hold p s)
     pairedAs 2 s = true → s.pair.seq < seq → seq < 2 ^ 64 → s.val O.domainState = 0 → s.modes.halted = false →
     dsOpcode p.desc ≠ 0x31 → wakesDrowse p.desc block s = false →
     (∀ st x v, peerOp p u = .done st x v → culvertUp s = true → ∃ t q, exec (.cmdPrepare seq desc block) s = .next t ∧ t.pair.seq = seq ∧
       heldAt t seq = some q ∧ q.voted = true ∧ q.desc = p.desc ∧ q.places = newPlaces u v [] ∧
       t.out = .culvert 0x11 (beBytes 1 0 ++ beBytes 2 0 ++ zeros 4 ++ beBytes 8 seq) :: s.out) ∧
     (∀ st d v, peerOp p u = .fail st d v → ∃ t, exec (.cmdPrepare seq desc block) s = .next t ∧ heldAt t seq = none)) ∧
  (∀ (s : State) (seq : Nat) (p : Prepared), heldAt s seq = some p →
     (∀ st x v, pairedAs 2 s = true → p.voted = true → s.val O.domainState = 0 → s.modes.halted = false →
       let q := { p with committed := true }
       let u := onPair (fun x => { x with held := x.held.map fun y => if y.seq = seq then q else y }) s
       effectHeld p.desc p.block u = false → (commandRegions p.desc p.block u).any (regionBusy u) = false →
       peerOp q (freeHeld q u) = .done st x v →
       ∃ t, exec (.cmdCommit seq) s = .next t ∧ heldAt t seq = none ∧
         (culvertUp v = true → .culvert 0x14 (zeros 7 ++ beBytes 8 seq) ∈ t.out)) ∧
     (s.val O.pairRole = 2 → ∃ t, exec (.cmdAbort seq) s = .next t ∧ FramedBy [.buckets, .tcam, .pair] s t ∧ heldAt t seq = none ∧
       ∀ x ∈ p.places, x ∉ t.buckets.reserved ∧ (2 ^ 21 ≤ x → x - 2 ^ 21 ∉ t.tcam.reserved)) ∧
     (s.val O.pairRole = 2 → p.voted = true → p.committed = false →
       ∃ t, exec (.reservationTimeout seq) s = .next t ∧ FramedBy [.buckets, .tcam, .pair] s t ∧ heldAt t seq = none) ∧
     (∀ off data, pairedAs 2 s = true → p.voted = false → data.length ≤ 496 → off ≤ 4194304 → p.seq = seq → dsOpcode p.desc = 0x31 →
       s.val O.lpddrState ≠ 4 →
       let old := ((s.pair.images.find? fun i => i.1 == seq).map (·.2)).getD []
       (landAt off data old).length < blLength p.desc →
       ∃ t, exec (.imageData off seq data) s = .next t ∧ FramedBy [.live, .scratch, .integ, .pair, .fresh] s t ∧
         t.pair.images.find? (fun i => i.1 == seq) = some (seq, landAt off data old)))

/-- R379–R381: a region asked for is resyncing at the primary until RESYNC_DONE; its image lands at the secondary, in the Culvert banks. RESYNC_END of
an image of the length it names applies it and ends the resync; of a record store or of meters it does so always, and the Verdict Store then holds
the image's records and zeros elsewhere; with a wrong length it is discarded. A digest that differs asks for its region. R375, R376: a digest that meets the
secondary's own result of its link and tag is compared, once; one without a partner waits, and an own or a peer's result without one is counted as
missing after 100 us, the older first, unless the comparison is suspended. -/
def Obligations.ResyncAndCompareComplete : Prop :=
  (∀ (s : State) (r : Nat),
     (pairedAs 1 s = true → (allRegions s).contains r = true → (s.val O.lpddrState ≠ 4 ∨ regionSleeps s r = false) →
       ∃ t, exec (.resyncRequest r) s = .next t ∧ r ∈ t.pair.resyncs) ∧
     (∀ off data, pairedAs 2 s = true → s.pair.resyncs.contains r = true → data.length ≤ 504 → off < 2 ^ 32 →
       ∃ t, exec (.resyncData r off data) s = .next t ∧ FramedBy [.live, .scratch, .integ, .pair, .fresh] s t ∧
         t.pair.incoming.find? (fun i => i.region == r) =
         some ⟨r, landAt off data (((s.pair.incoming.find? fun i => i.region == r).map (·.data)).getD []), none⟩) ∧
     (∀ len seq dg, pairedAs 2 s = true → s.pair.resyncs.contains r = true → s.val O.domainState = 0 → s.modes.halted = false →
       s.val O.lpddrState ≠ 4 → s.val O.shadowReady ≠ 0 → (regionSleeps s r = false ∨ asleep s = false) → regionBusy s r = false →
       (r / 4096 = 1 ∨ tableMarked s r = false) →
       let data := ((s.pair.incoming.find? fun i => i.region == r).map (·.data)).getD []
       let u := onPair (fun p => { p with incoming := ⟨r, data, some (len, seq % 2 ^ 64, dg)⟩ :: p.incoming.filter fun i => i.region != r }) s
       (data.length ≠ len → ∃ t, exec (.resyncEnd r len seq dg) s = .next t ∧ FramedBy [.pair, .live, .out] s t ∧ r ∉ t.pair.resyncs ∧
         t.val O.resyncs = (s.val O.resyncs + 1) % 2 ^ 32) ∧
       (∀ st x v, data.length = len → applyRegion r data u = .done st x v →
         exec (.resyncEnd r len seq dg) s = .next (resyncApplied r (seq % 2 ^ 64) v)) ∧
       (data.length = len → 4 ≤ r / 4096 → ∃ v, exec (.resyncEnd r len seq dg) s = .next (resyncApplied r (seq % 2 ^ 64) v)) ∧
       (data.length = len → r = 0x5000 → indicesDistinct (records 32 data) = true →
         ∃ t, exec (.resyncEnd r len seq dg) s = .next t ∧ FramedBy [.pair, .live, .results, .out] s t ∧ r ∉ t.pair.resyncs ∧
           t.val O.resyncs = (s.val O.resyncs + 1) % 2 ^ 32 ∧ (∀ b ∈ records 32 data, readRecord 1 (le b 0 4) t = le b 8 16) ∧
           ∀ i, (∀ b ∈ records 32 data, le b 0 4 ≠ i) → readRecord 1 i t = 0)) ∧
     (pairedAs 1 s = true → s.pair.resyncs.contains r = true → ∃ t, exec (.resyncDone r) s = .next t ∧ FramedBy [.pair, .live] s t ∧
       r ∉ t.pair.resyncs ∧ (∀ x, x ≠ r → (x ∈ t.pair.resyncs ↔ x ∈ s.pair.resyncs)) ∧ t.val O.resyncs = (s.val O.resyncs + 1) % 2 ^ 32) ∧
     (∀ seq dg last d, pairedAs 2 s = true → s.pair.digests.find? (fun x => decide (x.1 ≤ seq)) = some d → (allRegions s).contains r = true →
       s.val O.lpddrState ≠ 4 → s.pair.resyncs.contains r = false →
       (SMap.get 0 d.2 r ≠ dg → ∃ t, exec (.stateDigest seq [(r, dg)] last) s = .next t ∧ r ∈ t.pair.resyncs) ∧
       (SMap.get 0 d.2 r = dg → exec (.stateDigest seq [(r, dg)] last) s = .next s))) ∧
  (∀ (s : State) (m token : Nat) (tr : Bool), m < 8 →
     let d := token % 2 ^ 192
     let mine : PairResult → Bool := fun r => r.link == m && digestTag r.digest == digestTag d && !r.flag
     (pairedAs 2 s = true → compareSuspended s = false →
       (∀ r, s.pair.ownResults.find? mine = some r → ∃ t, exec (.resultDigest m tr token) s = .next t ∧
         t.pair.ownResults = (s.pair.ownResults.map fun q => if q = r then { q with flag := true } else q) ∧
         (r.digest = d → t.val O.resultsCompared = (s.val O.resultsCompared + 1) % 2 ^ 32) ∧
         (r.digest ≠ d → tr = true → t.val O.compareSkipped = (s.val O.compareSkipped + 1) % 2 ^ 32) ∧
         (r.digest ≠ d → tr = false → t.val O.resultDisagreements = (s.val O.resultDisagreements + 1) % 2 ^ 32)) ∧
       (s.pair.ownResults.find? mine = none → ∃ t, exec (.resultDigest m tr token) s = .next t ∧ FramedBy [.pair] s t ∧
         t.pair.peerResults = s.pair.peerResults ++ [⟨m, d, s.clock.wall, tr⟩])) ∧
     (let own := s.pair.ownResults.find? fun r => r.link == m && !r.flag
      let peer := s.pair.peerResults.find? fun r => r.link == m
      (compareSuspended s = true ∨ (own = none ∧ peer = none) → exec (.compareTimeout m) s = .next s) ∧
      (compareSuspended s = false → (∀ o, own = some o → (∀ p, peer = some p → o.at_ ≤ p.at_) →
         ∃ t, exec (.compareTimeout m) s = .next t ∧ FramedBy [.pair, .live] s t ∧ t.pair.peerResults = s.pair.peerResults ∧
           t.pair.ownResults = (s.pair.ownResults.map fun q => if q = o then { q with flag := true } else q) ∧
           t.val O.compareMissing = (s.val O.compareMissing + 1) % 2 ^ 32) ∧
       (∀ p, peer = some p → (∀ o, own = some o → p.at_ < o.at_) →
         ∃ t, exec (.compareTimeout m) s = .next t ∧ FramedBy [.pair, .live] s t ∧ t.pair.peerResults = s.pair.peerResults.erase p ∧
           t.pair.ownResults = s.pair.ownResults ∧ t.val O.compareMissing = (s.val O.compareMissing + 1) % 2 ^ 32))))

/-- R382, R385: with its ring up discovery begins anew; a member adds its position to the DISCOVER that passes and sends its MEMBER_ID and its
CHAIN_DIGEST behind it; the head takes what returns. R383, R384: a member passes a lookup on, with its own hit where none came before it; the head
goes on with the search that waits for the ticket, and counts a late answer. -/
def Obligations.ChainDiscoveryAndLookupComplete : Prop :=
  (∀ s : State,
     (s.power.core = true → s.chain.up = false → s.modes.halted = false → bit s.modes.refLost 2 = false →
       ∃ t, exec .dominoLinkUp s = .next t ∧ t.chain = { Chain.off with up := true } ∧ t.val O.chainState = 1) ∧
     (∀ ps, member s = true → ∃ t, exec (.discover ps) s = .next t ∧ FramedBy [.out] s t ∧
       ∃ body, body.head? = some (BitVec.ofNat 8 (ps.length + 1)) ∧
         t.out = .domino 0x84 (beBytes 1 (position s) ++ zeros 6 ++ chainDigest s) ::
           .domino 0x85 (beBytes 1 (position s) ++ zeros 6 ++ beBytes 16 Config.deviceUid.toNat) :: .domino 0x80 body :: s.out) ∧
     (∀ ps, headUp s = true → ∃ t, exec (.discover ps) s = .next t ∧ t.chain.found = some ps ∧ t.chain.ids = s.chain.ids) ∧
     (∀ p uid, member s = true → ∃ t, exec (.memberId p uid) s = .next t ∧ FramedBy [.out] s t ∧
       t.out = .domino 0x85 (beBytes 1 p ++ zeros 6 ++ beBytes 16 uid) :: s.out) ∧
     (∀ p uid, headUp s = true → ∃ t, exec (.memberId p uid) s = .next t ∧ SMap.find? t.chain.ids p = some uid ∧ t.chain.found = s.chain.found) ∧
     (∀ p dg, member s = true → p ≠ position s → ∃ t, exec (.chainDigest p dg) s = .next t ∧ FramedBy [.out] s t ∧
       t.out = .domino 0x84 (beBytes 1 p ++ zeros 6 ++ beBytes 32 dg) :: s.out) ∧
     (∀ p dg, headUp s = true → p ≠ 0 → ∃ t, exec (.chainDigest p dg) s = .next t ∧ SMap.find? t.chain.digests p = some dg)) ∧
  (∀ (s : State) (m : LookupMsg),
     (member s = true → ∃ t, exec (.lookup m) s = .next t ∧ t.out.head? = (forwardLookup (memberSearch m s).1 s).out.head? ∧
       ∃ body, t.out.head? = some (.domino 0x81 body)) ∧
     (headUp s = true → (∀ x ∈ s.headgate.slots, x.phase = .chainWait → x.ticket ≠ m.ticket) →
       ∃ t, exec (.lookup m) s = .next t ∧ t.headgate.slots = s.headgate.slots ∧ t.val O.chainLateAnswers = (s.val O.chainLateAnswers + 1) % 2 ^ 32) ∧
     (∀ x, headUp s = true → s.headgate.slots.find? (fun x => x.phase == .chainWait && x.ticket == m.ticket) = some x →
       ∃ t y, exec (.lookup m) s = .next t ∧ slotById t x.id = some y ∧ y.phase ≠ .assigned ∧ y.header = x.header ∧
         (y.phase = .chainWait → x.step < y.step)))

/-- R386: the member that a write names writes its slot and acknowledges, and takes its table's generation from a write that leaves the slot invalid
(the model's choice, log entry 42); another passes it on; at the head the last acknowledgement completes the command that waits for it. R384, R386:
when the ring breaks, ChainState is 3, no search waits for the chain, and no ring or command of the peer waits for a member: slot writes of tables
that are not chain-wide go on. -/
def Obligations.ChainWritesComplete : Prop :=
  (∀ (s : State) (p q i : Nat), q < 4 → i < 8192 →
     (∀ h, member s = true → p = position s → ∃ t, exec (.write p q i h) s = .next t ∧ FramedBy [.tcam, .out] s t ∧
       slotAt t (slotKey q i) = slotOf (Shadow.ofNat h) ∧ (∀ k, k ≠ slotKey q i → slotAt t k = slotAt s k) ∧
       ((Shadow.ofNat h).valid = false → (Shadow.ofNat h).upper = false →
         tcamGen t q ((Shadow.ofNat h).value / 2 ^ 184) = (Shadow.ofNat h).gen) ∧
       t.out = .domino 0x83 (beBytes 1 p ++ beBytes 1 q ++ beBytes 2 i ++ zeros 3) :: s.out) ∧
     (∀ h, member s = true → p ≠ position s → ∃ t, exec (.write p q i h) s = .next t ∧ FramedBy [.out] s t ∧
       t.out = .domino 0x82 (beBytes 1 p ++ beBytes 1 q ++ beBytes 2 i ++ zeros 3 ++ beBytes 52 h ++ zeros 4) :: s.out) ∧
     (member s = true → ∃ t, exec (.writeAck p q i) s = .next t ∧ FramedBy [.out] s t ∧
       t.out = .domino 0x83 (beBytes 1 p ++ beBytes 1 q ++ beBytes 2 i ++ zeros 3) :: s.out) ∧
     (∀ r h x undo held tables gate old, headUp s = true → writesStopped s = false → r < 8 →
       (ringAt s r).waiting = some (.chain ⟨[(32768 * p + slotKey q i, some h)], [], [], undo, held, tables, gate, old, [], []⟩ x 0) →
       (∀ j < 8, j ≠ r → ∀ job y z, (ringAt s j).waiting = some (.chain job y z) → awaits (32768 * p + slotKey q i) job = false) →
       ∃ u, exec (.writeAck p q i) s = .next (settleFences 8 (completeCommand r 0 x s.host.canSend u)) ∧ FramedBy [.tcam, .busy] s u ∧
         SMap.get Shadow.zero u.tcam.remote (32768 * p + slotKey q i) = h)) ∧
  (∀ s : State, s.power.core = true → s.chain.up = true → (s.headgate.slots.map (·.id)).Nodup → s.host.rings.length = 8 →
     ∃ t, exec .dominoLinkLost s = .next t ∧ t.chain.up = false ∧ t.val O.chainState = 3 ∧ t.chain.rewrite = ChainJob.none ∧
       t.pair.chainWrites = s.pair.chainWrites.filter (fun e => !chainJob s e.2) ∧ (∀ x ∈ t.headgate.slots, x.phase ≠ .chainWait) ∧
       ∀ r < 8, ∀ job x q, (ringAt t r).waiting = some (.chain job x q) → chainJob s job = false)

/-! ## The coherent domain (R262–R288) -/

/-- R269, R274, Table 12-6: a request that reaches its home slice with nothing before it, in a set with room for an entry. A line that nobody holds is
granted E to a reader and M to a writer with home's data; a line that
another agent owns is asked of its owner; an upgrade of the only sharer is granted M without data; an uncached read answers home's data, a write
stores the granules that its mask names, and an atomic on a sound granule its operation's outcome, or nothing where it is posted. R270: a request
that meets a full slice, or one whose free entries are kept for earlier tickets, is answered Nack with the slice's next ticket; its retry, with no
earlier message of its unit to the slice on the request channel (R266), is admitted once no lower ticket is outstanding and an entry is free, and else
answered Nack with the same ticket. -/
def Obligations.RequestsAreServedAtHome : Prop :=
  (∀ (s : State) (src line : Nat),
     let home := homeUnit line
     let n := granuleCount line
     let room : Prop := admitted s (sliceOf line) + (tickets s (sliceOf line)).length < 8
     let entry : Prop := (setOf s line).length + waysOff s line < 16
     let miss : Prop := agentUp s src = true ∧ mayCache src line = true ∧ cacheLine? s src line = none ∧
       (s.coh.caches.filter fun e => e.1 / 262144 == src).length < cacheLines src
     let data : Msg := ⟨.dataH, home, src, line, 0, homeLine s line, poisonMask s line⟩
     let elsewhere : State → Prop := fun t => (∀ r ∈ s.coh.redirects, r.1 ≠ line) → ∀ g, lineOf g ≠ line →
       SMap.get 0 t.coh.home g = SMap.get 0 s.coh.home g
     line < reservoirLines → domainRuns s = true → s.coh.illegal = none → s.coh.queues = [] → lineOpen s line = false →
     (oldestOf s src home 0).isNone = true → room →
     (src < 15 → miss → dirOf s line = none → entry →
       ∃ t d, exec (.rds src line) s = .next t ∧ FramedBy [.live, .coh] s t ∧
         t.coh.net = s.coh.net ++ [data, ⟨.grant .e, home, src, line, 0, [], 0⟩] ∧ dirOf t line = some d ∧ d.dx = true ∧ d.owner = src ∧
         t.coh.home = s.coh.home) ∧
     (8 ≤ src → src < 15 → miss → dirOf s line = none → entry → ∃ t d, exec (.rdo src line) s = .next t ∧ FramedBy [.live, .coh] s t ∧
       t.coh.net = s.coh.net ++ [data, ⟨.grant .m, home, src, line, 0, [], 0⟩] ∧ dirOf t line = some d ∧ d.dx = true ∧ d.owner = src ∧
       t.coh.home = s.coh.home) ∧
     (∀ d, src < 15 → miss → dirOf s line = some d → d.dx = true →
       (∃ t, exec (.rds src line) s = .next t ∧ FramedBy [.live, .coh] s t ∧
         t.coh.net = s.coh.net ++ [⟨.snpData, home, d.owner, line, src, [], 0⟩]) ∧
       (8 ≤ src → ∃ t, exec (.rdo src line) s = .next t ∧ FramedBy [.live, .coh] s t ∧
         t.coh.net = s.coh.net ++ [⟨.snpOwn, home, d.owner, line, src, [], 0⟩])) ∧
     (∀ c d, 8 ≤ src → src < 15 → agentUp s src = true → cacheLine? s src line = some c → c.st = .s → dirOf s line = some d → d.dx = false →
       d.sharers = [src] → d.bcast = false → ∃ t e, exec (.upg src line) s = .next t ∧ FramedBy [.live, .coh] s t ∧
         t.coh.net = s.coh.net ++ [⟨.grant .m, home, src, line, 0, [], 0⟩] ∧ dirOf t line = some e ∧ e.dx = true ∧ e.owner = src) ∧
     (∀ c, 8 ≤ src → src < 15 → cacheLine? s src line = some c → c.st = .e → ∃ t, exec (.rdo src line) s = .next t ∧ FramedBy [.coh] s t ∧
       cacheLine? t src line = some { c with st := .m } ∧ t.coh.net = s.coh.net) ∧
     (∀ mask, homeRequester src line = true → dirOf s line = none → entry →
       ∃ t, exec (.rdh src line mask) s = .next t ∧ FramedBy [.live, .coh] s t ∧
         t.coh.net = s.coh.net ++ [⟨.rdRsp, home, src, line, mask % 2 ^ n, homeLine s line, poisonMask s line⟩] ∧ t.coh.home = s.coh.home) ∧
     (∀ mask vs, homeRequester src line = true → dirOf s line = none → entry →
       ∃ t, exec (.wrh src line mask vs) s = .next t ∧ FramedBy [.live, .coh] s t ∧ elsewhere t ∧
         t.coh.net = s.coh.net ++ [⟨.wrAck, home, src, line, 0, [], 0⟩] ∧
         ∀ i < n, (bit mask i = true → homeGranule t line i = vs.getD i 0 % 2 ^ (512 / n) ∧ wordPoisoned t (granuleWord line i) = false) ∧
           (bit mask i = false → homeGranule t line i = homeGranule s line i ∧
             wordPoisoned t (granuleWord line i) = wordPoisoned s (granuleWord line i))) ∧
     (∀ i posted op, src < 64 → src ≠ 15 → i < n → dirOf s line = none → entry → (∀ p len pre, op = .tokenBucket p len pre → p < 1024) →
       let r := atomEffect s op (homeGranule s line i)
       let answer : Nat → List Msg := fun v => if posted = true then [] else [⟨.atmRsp v, home, src, line, 0, [], 0⟩]
       (wordPoisoned s (granuleWord line i) = false → ∃ t, exec (.atm src ⟨line, i⟩ ⟨posted, op⟩) s = .next t ∧ FramedBy [.live, .coh] s t ∧
         t.coh.net = s.coh.net ++ answer r.1 ∧ homeGranule t line i = r.2 % 2 ^ (512 / n) ∧ elsewhere t ∧
         ∀ j < n, j ≠ i → homeGranule t line j = homeGranule s line j) ∧
       (wordPoisoned s (granuleWord line i) = true → ∃ t, exec (.atm src ⟨line, i⟩ ⟨posted, op⟩) s = .next t ∧ FramedBy [.live, .coh] s t ∧
         t.coh.home = s.coh.home ∧ t.coh.net = s.coh.net ++ answer 0 ∧
         t.val O.poisonedAtomics = (s.val O.poisonedAtomics + 1) % 2 ^ 32))) ∧
  (∀ (s : State) (src line mask : Nat),
     let sl := sliceOf line
     let q : Req := ⟨.rdh, src, line, mask % 2 ^ granuleCount line, [], 0, none, false, false⟩
     let t0 := s.coh.nextTicket.getD sl 0
     homeRequester src line = true → line < reservoirLines → domainRuns s = true → s.coh.illegal = none →
     (8 ≤ admitted s sl + (tickets s sl).length → (oldestOf s src (homeUnit line) 0).isNone = true →
       ∃ t, exec (.rdh src line mask) s = .next t ∧ FramedBy [.live, .coh] s t ∧
         t.coh.net = s.coh.net ++ [⟨.nack t0, homeUnit line, src, line, 0, [], 0⟩] ∧ t.coh.nacked = s.coh.nacked ++ [(t0, q)] ∧
         t.val O.nacks = (s.val O.nacks + 1) % 2 ^ 32) ∧
     (∀ k, Oldest ⟨.nack k, homeUnit line, src, line, 0, [], 0⟩ s →
       exec (.nack src line) s = .next { s with coh := { s.coh with net := s.coh.net.erase ⟨.nack k, homeUnit line, src, line, 0, [], 0⟩ } }) ∧
     (∀ n, s.coh.nacked.find? (fun x => x.2.src == src && x.2.line == line) = some (n, q) →
       (∀ m ∈ s.coh.net, m.dst = src → m.line = line → ∀ k, m.kind ≠ .nack k) → (oldestOf s src (homeUnit line) 0).isNone = true →
       ((∀ x ∈ tickets s sl, n ≤ x.1) → admitted s sl < 8 → s.coh.queues = [] → lineOpen s line = false → dirOf s line = none →
         (setOf s line).length + waysOff s line < 16 →
         ∃ t, exec (.nackRetry src line) s = .next t ∧ FramedBy [.live, .coh] s t ∧ t.coh.nacked = s.coh.nacked.erase (n, q) ∧
           t.coh.net = s.coh.net ++ [⟨.rdRsp, homeUnit line, src, line, q.mask, homeLine s line, poisonMask s line⟩]) ∧
       ((∃ x ∈ tickets s sl, x.1 < n) ∨ 8 ≤ admitted s sl → ∃ t, exec (.nackRetry src line) s = .next t ∧ FramedBy [.live, .coh] s t ∧
         t.coh.nacked = s.coh.nacked ∧ t.coh.net = s.coh.net ++ [⟨.nack n, homeUnit line, src, line, 0, [], 0⟩] ∧
         t.val O.nacks = (s.val O.nacks + 1) % 2 ^ 32)))

/-- Table 12-5, R273, R278, R280: an agent gives up a line that is not in its hold time: M data goes home with the granules found uncorrectable
poisoned, an announced clean line tells home, another is dropped without a word. Home takes an eviction of the recorded owner: the line is DI and the
agent is told. A transaction closes with Cmp. R263, R272: what an uncached operation answers reaches its requester, which keeps an atomic's result;
nothing else changes. -/
def Obligations.EvictionsAndAnswersArrive : Prop :=
  (∀ (s : State) (agent line found : Nat),
     let home := homeUnit line
     let lost := found % 2 ^ granuleCount line
     agent < 15 → line < reservoirLines → domainRuns s = true → s.coh.illegal = none → arrayLost found = false →
     (∀ c, cacheLine? s agent line = some c →
       let gone : CacheLine := { c with st := .ie, poison := c.poison ||| lost }
       (c.hold = true → exec (.capacityEviction agent ⟨line, found⟩) s = .next s) ∧
       (c.hold = false → c.st = .m → ∃ t, exec (.capacityEviction agent ⟨line, found⟩) s = .next t ∧ FramedBy [.live, .coh] s t ∧
         cacheLine? t agent line = some gone ∧ t.coh.net = s.coh.net ++ [⟨.wbd, agent, home, line, 0, c.data, gone.poison⟩]) ∧
       (c.hold = false → c.st = .e → 12 ≤ agent → ∃ t, exec (.capacityEviction agent ⟨line, found⟩) s = .next t ∧
         FramedBy [.live, .coh] s t ∧ cacheLine? t agent line = some gone ∧ t.coh.net = s.coh.net ++ [⟨.evc, agent, home, line, 0, [], 0⟩]) ∧
       (c.hold = false → (c.st = .s ∨ (c.st = .e ∧ agent < 12)) → ∃ t, exec (.capacityEviction agent ⟨line, found⟩) s = .next t ∧
         FramedBy [.live, .coh] s t ∧ cacheLine? t agent line = none ∧ t.coh.net = s.coh.net ∧ t.coh.dir = s.coh.dir)) ∧
     (∀ m d, Oldest m s → m.src = agent → m.dst = home → m.line = line → s.coh.queues = [] → lineOpen s line = false → dirOf s line = some d →
       d.dx = true → d.owner = agent → (agent, line) ∉ s.coh.crossing →
       (∀ y ∈ s.coh.net.erase m, y.src = agent → y.dst = home → y.kind.channel ≠ 0) →
       (m.kind = .wbd → m.data ≠ [] → ∃ t, exec (.wbd agent ⟨line, found⟩) s = .next t ∧ FramedBy [.live, .coh] s t ∧ dirOf t line = none ∧
         t.coh.net = s.coh.net.erase m ++ [⟨.evAck, home, agent, line, 0, [], 0⟩] ∧
         (∀ i < 4, SMap.get 0 t.coh.home (4 * line + i) = m.data.getD i 0) ∧
         (∀ i < granuleCount line, wordPoisoned t (granuleWord line i) = bit (m.poison ||| lost) i) ∧
         ((∀ r ∈ s.coh.redirects, r.1 ≠ line) → ∀ g, lineOf g ≠ line → SMap.get 0 t.coh.home g = SMap.get 0 s.coh.home g)) ∧
       (m.kind = .evc → ∃ t, exec (.evc agent line) s = .next t ∧ FramedBy [.live, .coh] s t ∧ dirOf t line = none ∧
         t.coh.net = s.coh.net.erase m ++ [⟨.evAck, home, agent, line, 0, [], 0⟩] ∧ t.coh.home = s.coh.home)) ∧
     (∀ m, Oldest m s → m.kind = .evAck → m.dst = agent → m.line = line → ∃ t, exec (.evAck agent line) s = .next t ∧ FramedBy [.coh] s t ∧
       t.coh.net = s.coh.net.erase m ∧ cacheLine? t agent line = none) ∧
     (∀ m, Oldest m s → m.kind = .cmp → m.data = [] → m.src = agent → m.line = line → s.coh.queues = [] →
       exec (.cmp agent line) s = .next { s with coh := { s.coh with net := s.coh.net.erase m
                                                                     open_ := s.coh.open_.filter fun x => x.req.line != line } })) ∧
  (∀ (s : State) (src line : Nat) (m : Msg), src < 64 → src ≠ 15 → line < reservoirLines → domainRuns s = true → Oldest m s → m.dst = src →
     m.line = line →
     let t : State := { s with coh := { s.coh with net := s.coh.net.erase m } }
     (m.kind = .rdRsp → exec (.rdRsp src line) s = .next t) ∧ (m.kind = .wrAck → exec (.wrAck src line) s = .next t) ∧
     (∀ r, m.kind = .atmRsp r → exec (.atmRsp src line) s =
       .next { t with coh := { t.coh with results := (t.coh.results.filter fun x => x.1 != src) ++ [(src, r)] } }))

/-- Table 12-5, R273, R280: a snoop takes the agent's copy as its row says, with the granules found uncorrectable poisoned: data goes to the
requester, M data home too where the copy is shared or recalled, and the answer goes home. An agent that holds no line in S (Table 12-1) drops one
that it shares (the model's choice, log entry 156). A snoop within the hold time waits for its end. R273: at the end of the hold time a snoop that
waited is answered as Table 12-5 says; without one the hold just ends. -/
def Obligations.SnoopsAreAnswered : Prop :=
  (∀ (s : State) (agent line found : Nat) (m : Msg),
     let home := homeUnit line
     let read : CacheLine → CacheLine := fun c =>
       if c.live = true then { c with poison := c.poison ||| found % 2 ^ granuleCount line } else c
     let gone : Instr → List Msg → Prop := fun i out => ∃ t, exec i s = .next t ∧ FramedBy [.live, .coh] s t ∧
       cacheLine? t agent line = none ∧ t.coh.net = s.coh.net.erase m ++ out ∧ t.coh.home = s.coh.home
     agent < 15 → line < reservoirLines → domainRuns s = true → s.coh.illegal = none → arrayLost found = false →
     Oldest m s → m.dst = agent → m.line = line →
     (∀ c, cacheLine? s agent line = some c → c.hold = false →
       let p := (read c).poison
       (m.kind = .snpData → c.st = .m → 12 ≤ agent → gone (.snpData agent ⟨line, found⟩ m.req)
         [⟨.dataFwd, agent, m.req, line, 0, c.data, p⟩, ⟨.rspFwdData, agent, home, line, 0, c.data, p⟩]) ∧
       (m.kind = .snpData → c.st = .e → 12 ≤ agent → gone (.snpData agent ⟨line, found⟩ m.req)
         [⟨.dataFwd, agent, m.req, line, 0, c.data, p⟩, ⟨.rspFwd, agent, home, line, 0, [], 0⟩]) ∧
       (m.kind = .snpData → c.st = .m → agent < 12 → ∃ t, exec (.snpData agent ⟨line, found⟩ m.req) s = .next t ∧ FramedBy [.live, .coh] s t ∧
         cacheLine? t agent line = some { read c with st := .s, snoop := none } ∧ t.coh.net = s.coh.net.erase m ++
           [⟨.dataFwd, agent, m.req, line, 0, c.data, p⟩, ⟨.rspFwdData, agent, home, line, 0, c.data, p⟩]) ∧
       (m.kind = .snpData → c.st = .e → agent < 12 → ∃ t, exec (.snpData agent ⟨line, found⟩ m.req) s = .next t ∧ FramedBy [.live, .coh] s t ∧
         cacheLine? t agent line = some { read c with st := .s, snoop := none } ∧ t.coh.net = s.coh.net.erase m ++
           [⟨.dataFwd, agent, m.req, line, 0, c.data, p⟩, ⟨.rspFwd, agent, home, line, 0, [], 0⟩]) ∧
       (m.kind = .snpOwn → (c.st = .m ∨ c.st = .e) → gone (.snpOwn agent ⟨line, found⟩ m.req)
         [⟨.dataFwd, agent, m.req, line, 0, c.data, p⟩, ⟨.rspFwd, agent, home, line, 0, [], 0⟩]) ∧
       (m.kind = .snpInv → (c.st = .e ∨ c.st = .s) → gone (.snpInv agent ⟨line, found⟩) [⟨.rspI, agent, home, line, 0, [], 0⟩]) ∧
       (∀ b, m.kind = .snpRecall b → (c.st = .e ∨ c.st = .s) → gone (.snpRecall agent ⟨line, found⟩ b) [⟨.rspI, agent, home, line, 0, [], 0⟩]) ∧
       (∀ b, m.kind = .snpRecall b → c.st = .m → gone (.snpRecall agent ⟨line, found⟩ b) [⟨.rspData, agent, home, line, 0, c.data, p⟩])) ∧
     (∀ i, ((m.kind = .snpData ∧ i = Instr.snpData agent ⟨line, found⟩ m.req) ∨ (m.kind = .snpOwn ∧ i = Instr.snpOwn agent ⟨line, found⟩ m.req) ∨
         (m.kind = .snpInv ∧ i = Instr.snpInv agent ⟨line, found⟩) ∨ ∃ b, m.kind = .snpRecall b ∧ i = Instr.snpRecall agent ⟨line, found⟩ b) →
       (∀ c, cacheLine? s agent line = some c → c.hold = true → ∃ t, exec i s = .next t ∧ FramedBy [.live, .coh] s t ∧
         cacheLine? t agent line = some { read c with snoop := some (snoopCode m.kind, m.req) } ∧ t.coh.net = s.coh.net.erase m) ∧
       (cacheLine? s agent line = none → ∃ t, exec i s = .next t ∧ FramedBy [.coh] s t ∧ t.coh.caches = s.coh.caches ∧
         t.coh.net = s.coh.net.erase m ++ [⟨.rspI, agent, home, line, 1, [], 0⟩]))) ∧
  (∀ (s : State) (agent line : Nat) (c : CacheLine), agent < 15 → line < reservoirLines → domainRuns s = true → s.coh.illegal = none →
     cacheLine? s agent line = some c → c.hold = true →
     (c.snoop = none → ∃ t, exec (.holdEnd agent line) s = .next t ∧ FramedBy [.coh] s t ∧
       cacheLine? t agent line = some { c with hold := false } ∧ t.coh.net = s.coh.net) ∧
     (∀ r, c.st = .m → c.snoop = some (snoopCode .snpOwn, r) → ∃ t, exec (.holdEnd agent line) s = .next t ∧ FramedBy [.coh] s t ∧
       cacheLine? t agent line = none ∧ t.coh.net = s.coh.net ++
         [⟨.dataFwd, agent, r, line, 0, c.data, c.poison⟩, ⟨.rspFwd, agent, homeUnit line, line, 0, [], 0⟩]))

/-- Table 12-5, R280: a line is installed at an agent that is up in the granted state once both its data and its grant are there, with the granules
found uncorrectable poisoned, the hold time begins, and Cmp goes home; data alone waits for its grant. An agent that holds no line in S (Table 12-1) drops
one that is granted so (the model's choice, log entry 156). -/
def Obligations.DataAndGrantsInstallALine : Prop :=
  ∀ (s : State) (agent line found : Nat) (c : CacheLine) (m : Msg),
    let cmp : Msg := ⟨.cmp, agent, homeUnit line, line, 0, [], 0⟩
    let kept : LineState → CacheLine → Option CacheLine := fun g x => if g = .s ∧ 12 ≤ agent then none else some x
    agent < 15 → line < reservoirLines → domainRuns s = true → s.coh.illegal = none → agentUp s agent = true → arrayLost found = false →
    cacheLine? s agent line = some c → Oldest m s → m.dst = agent → m.line = line →
    (∀ i, (m.kind = .dataFwd ∧ i = Instr.dataFwd agent ⟨line, found⟩) ∨ (m.kind = .dataH ∧ i = Instr.dataH agent ⟨line, found⟩) → c.st = .fetching →
      m.data ≠ [] →
      let p := m.poison ||| found % 2 ^ granuleCount line
      (c.granted = none → ∃ t, exec i s = .next t ∧ FramedBy [.live, .coh] s t ∧
        cacheLine? t agent line = some { c with data := m.data, poison := p, gotData := true } ∧ t.coh.net = s.coh.net.erase m) ∧
      (∀ g, c.granted = some g → ∃ t, exec i s = .next t ∧ FramedBy [.live, .coh] s t ∧ t.coh.net = s.coh.net.erase m ++ [cmp] ∧
        cacheLine? t agent line = kept g { c with data := m.data, poison := p, st := g, gotData := false, granted := none, hold := true,
                                                  snoop := none })) ∧
    (∀ g, m.kind = .grant g → m.data = [] →
      (((c.st = .fetching ∧ c.gotData = true) ∨ c.st = .upgrading) → ∃ t, exec (.grant agent line) s = .next t ∧ FramedBy [.coh] s t ∧
        t.coh.net = s.coh.net.erase m ++ [cmp] ∧
        cacheLine? t agent line = kept g { c with st := g, gotData := false, granted := none, hold := true, snoop := none }) ∧
      (c.st = .fetching → c.gotData = false → ∃ t, exec (.grant agent line) s = .next t ∧ FramedBy [.coh] s t ∧
        t.coh.net = s.coh.net.erase m ∧ cacheLine? t agent line = some { c with granted := some g }))

/-- Table 12-6, R276, R278, R280: the last answer to a transaction's snoops lets it go on: a forward grants the line, RspI makes home supply the
data, M data that comes with an answer is written home first with its poison, and an eviction that crossed the snoop is taken as the answer: at once
where it is queued, or as it arrives. -/
def Obligations.SnoopAnswersReachHome : Prop :=
  ∀ (s : State) (agent line found : Nat) (m : Msg) (x : Txn) (d : DirEntry),
    let home := homeUnit line
    let src := x.req.src
    let n := granuleCount line
    let grant : LineState → Msg := fun g => ⟨.grant g, home, src, line, 0, [], 0⟩
    agent < 15 → line < reservoirLines → domainRuns s = true → s.coh.illegal = none → arrayLost found = false → Oldest m s →
    m.src = agent → m.line = line → (m.kind = .rspFwdData ∨ m.kind = .rspData ∨ m.kind = .wbd ↔ m.data ≠ []) →
    s.coh.open_.find? (fun t => t.req.line == line && t.await.contains agent) = some x → x.await = [agent] → x.fromHome = false → src ≠ agent →
    dirOf s line = some d → d.dx = true → d.owner = agent →
    let crossed : List Msg → List Nat → Nat → State → Prop := fun rest data poison t =>
      t.coh.net = rest ++ [⟨.evAck, home, agent, line, 0, [], 0⟩,
        ⟨.dataH, home, src, line, 0, (List.range 4).map fun i => data.getD i 0, poison % 2 ^ n⟩, grant .m] ∧
      ∀ i < 4, SMap.get 0 t.coh.home (4 * line + i) = data.getD i 0
    (s.coh.queues = [] → m.kind = .rspFwd → x.req.kind = .rdo → ∃ t e, exec (.rspFwd agent line) s = .next t ∧ FramedBy [.coh] s t ∧
      t.coh.net = s.coh.net.erase m ++ [grant .m] ∧ dirOf t line = some e ∧ e.dx = true ∧ e.owner = src ∧ t.coh.home = s.coh.home) ∧
    (s.coh.queues = [] → m.kind = .rspFwdData → x.req.kind = .rds → ∃ t e, exec (.rspFwdData agent ⟨line, found⟩) s = .next t ∧ FramedBy [.live, .coh] s t ∧
      t.coh.net = s.coh.net.erase m ++ [grant .s] ∧ dirOf t line = some e ∧ e.dx = false ∧ e.sharers = [agent, src] ∧
      (∀ i < 4, SMap.get 0 t.coh.home (4 * line + i) = m.data.getD i 0) ∧
      ∀ i < n, wordPoisoned t (granuleWord line i) = bit (m.poison ||| found % 2 ^ n) i) ∧
    (s.coh.queues = [] → m.kind = .rspI → x.req.kind = .rdo → ∃ t e, exec (.rspI agent line) s = .next t ∧ FramedBy [.live, .coh] s t ∧
      t.coh.net = s.coh.net.erase m ++ [⟨.dataH, home, src, line, 0, homeLine s line, poisonMask s line⟩, grant .m] ∧
      dirOf t line = some e ∧ e.dx = true ∧ e.owner = src ∧
      (m.req = 1 → t.val O.staleSnoops = (s.val O.staleSnoops + 1) % 2 ^ 32)) ∧
    (s.coh.queues = [] → m.kind = .rspData → x.req.kind = .rdh → ∃ t, exec (.rspData agent ⟨line, found⟩) s = .next t ∧ FramedBy [.live, .coh] s t ∧
      t.coh.net = s.coh.net.erase m ++
        [⟨.rdRsp, home, src, line, x.req.mask, (List.range 4).map fun i => m.data.getD i 0, (m.poison ||| found % 2 ^ n) % 2 ^ n⟩] ∧
      dirOf t line = none ∧ ∀ i < 4, SMap.get 0 t.coh.home (4 * line + i) = m.data.getD i 0) ∧
    (∀ w ∈ s.coh.net, s.coh.queues = [] → m.kind = .rspEvInFlight → w.src = agent → w.line = line → (w.kind = .wbd ∨ w.kind = .evc) →
      ∃ t, exec (.rspEvInFlight agent line) s = .next t ∧ FramedBy [.live, .coh] s t ∧
        t.val O.evictionCrossings = (s.val O.evictionCrossings + 1) % 2 ^ 32 ∧
        t.coh = { s.coh with net := s.coh.net.erase m, crossing := s.coh.crossing ++ [(agent, line)] }) ∧
    (∀ q, s.coh.queues = [q] → m.kind = .rspEvInFlight → x.req.kind = .rdo → q.kind = .wbd → q.src = agent → q.line = line →
      ∃ t, exec (.rspEvInFlight agent line) s = .next t ∧ FramedBy [.live, .coh] s t ∧
        t.val O.evictionCrossings = (s.val O.evictionCrossings + 1) % 2 ^ 32 ∧ t.coh.queues = [] ∧
        crossed (s.coh.net.erase m) q.data q.poison t) ∧
    (s.coh.queues = [] → m.kind = .wbd → x.req.kind = .rdo → (agent, line) ∈ s.coh.crossing →
      (∀ y ∈ s.coh.net.erase m, y.src = agent → y.dst = m.dst → y.kind.channel ≠ 0) →
      ∃ t, exec (.wbd agent ⟨line, found⟩) s = .next t ∧ FramedBy [.live, .coh] s t ∧
        t.coh.crossing = s.coh.crossing.erase (agent, line) ∧ crossed (s.coh.net.erase m) m.data (m.poison ||| found % 2 ^ n) t)

/-- R283–R287, R16, R281: a snoop or a transaction without its answer for 10 us, an uncorrectable entry of an agent's tag or state array or of a
directory, and a grant that nothing waits for fail the domain; a restart that completes restores it, and what waited goes on, a Sleep entry that waited for
it too (R361); a checkpoint reads its
lines at their homes and overwrites the older copy with the counter and freshness regions; a repair writes a poisoned granule, a lost record or a lost
Flume meter from its source. The sources lie in LPDDR5, and a restart, a checkpoint or a repair waits while its crossings hold. -/
def Obligations.DomainFailuresRestartsAndRepairsComplete : Prop :=
  ∀ s : State,
    (∀ agent line, domainRuns s = true → agent < 15 → line < reservoirLines → awaited s agent line = true →
      ∃ t, exec (.snoopTimeout agent line) s = .next t ∧ Falls 3 agent s t) ∧
    (∀ line, domainRuns s = true → line < reservoirLines → (∃ x ∈ s.coh.open_, x.req.line = line) →
      ∃ t, exec (.transactionTimeout line) s = .next t ∧ Falls 4 (0x10 + sliceOf line) s t) ∧
    (∀ agent line found, domainRuns s = true → agent < 15 → line < reservoirLines → arrayLost found = true →
      (∃ t, exec (.capacityEviction agent ⟨line, found⟩) s = .next t ∧ Falls 2 agent s t) ∧
      ∃ t, exec (.wbd agent ⟨line, found⟩) s = .next t ∧ Falls 1 (0x10 + sliceOf line) s t) ∧
    (∀ agent line, domainRuns s = true → agent < 15 → line < reservoirLines → s.coh.illegal = none → fetches s agent line = false →
      (∀ m ∈ s.coh.net, m.dst = agent → m.line = line → ∀ g, m.kind ≠ .grant g) →
      ∃ t, exec (.grant agent line) s = .next t ∧ Falls 5 agent s t) ∧
    (s.power.core = true → s.val O.domainState = 1 → (lpddrRuns s = true ∨ s.val O.lpddrState = 4) →
      ∃ t, exec .restartComplete s = .next (sleepSeal (resumeAll t)) ∧ t.val O.domainState = 0 ∧ t.coh.poison = [] ∧
      t.coh.restartEnd = s.clock.wall + 1 ∧ t.coh.shadow = s.coh.shadow ∧ t.val O.counterLoss = 1 ∧
      ∀ g, SMap.get 0 t.coh.home g = restoredGranule s g) ∧
    (domainRuns s = true → s.flag O.shadowReady = true → lpddrRuns s = true →
      let u := readCheckpointLines s
      ∃ t, exec .checkpoint s = .next t ∧ FramedBy [.live, .coh] s t ∧
        (let copy : CheckCopy := ⟨u.coh.home.filter fun e => checkpointed e.1, s.clock.wall + 1⟩
         t.coh = (if u.coh.copy0.marker ≤ u.coh.copy1.marker then { u.coh with copy0 := copy, freshSet := [] }
                  else { u.coh with copy1 := copy, freshSet := [] })) ∧
        t.val O.checkpointsCommitted = (s.val O.checkpointsCommitted + 1) % 2 ^ 32 ∧
        (s.coh.dir = [] → s.coh.open_ = [] → s.coh.queues = [] →
          u.coh = s.coh ∧ ∀ h < 16, t.val (O.sliceOperations h) = (s.val (O.sliceOperations h) + 5120) % 2 ^ 32)) ∧
    (∀ w < 2 ^ 21, domainRuns s = true → s.flag O.shadowReady = true → lpddrRuns s = true → s.obj O.poisonRepair ≠ 0 → wordPoisoned s w = true →
      ∃ t, exec (.poisonRepair 0 w) s = .next t ∧ FramedBy [.live, .coh] s t ∧ wordPoisoned t w = false ∧
        (wordPoisoned (writeTurn homeUser (w / 8) s) w = true → t.val O.poisonRepairs = (s.val O.poisonRepairs + 1) % 2 ^ 32) ∧
        (AtHome s (w / 8) → t.val O.poisonRepairs = (s.val O.poisonRepairs + 1) % 2 ^ 32 ∧
          (w < 0x160000 → SMap.get 0 t.coh.home (w / 2) = restoredGranule s (w / 2) % 2 ^ 128) ∧
          (0x80000 ≤ w → w < 0x100000 → t.val O.counterLoss = 1))) ∧
    (∀ i < 16384, s.power.core = true → s.flag O.shadowReady = true → lpddrRuns s = true →
      (SMap.get false s.results.bad (2 ^ 20 + i) = true → ∃ t, exec (.poisonRepair 1 i) s = .next t ∧ FramedBy [.results] s t ∧
        SMap.get 0 t.results.verdict i = SMap.get 0 s.results.verdictShadow i ∧ SMap.get false t.results.bad (2 ^ 20 + i) = false) ∧
      (SMap.get false s.results.bad (2 ^ 21 + i) = true → ∃ t, exec (.poisonRepair 2 i) s = .next t ∧ FramedBy [.results] s t ∧
        SMap.get 0 t.results.flumeMeters i =
          freshMeter s (meterProfileId (SMap.get 0 s.results.flumeShadow i)) (meterValid (SMap.get 0 s.results.flumeShadow i)) ∧
        SMap.get false t.results.bad (2 ^ 21 + i) = false ∧ t.results.verdict = s.results.verdict))

/-! ## Scrubbing, weak words and LPDDR5 (R289–R308, R428) -/

/-- R299, R300, R302: a scrub visit of Top, or of Yo-yo in its mode, goes on to the next unit, or begins the next lap; a corrected word is counted
and is a candidate, a clean one is no candidate any more; a lap that takes too long goes to Top; and the 64th operation retires a merge entry. R291,
R303, R304, Table 13-6: an out-of-turn scrub counts the foreground correction; a word it finds uncorrectable is counted, and is poisoned in the
Reservoir, bad in the scratchpad, whose bank the eighth within a lap quarantines (R400), and a failure of the domain in a directory. A weak word whose
retest passes is out of suspicion; one that fails is retired, or stays in use where nothing takes its place, and so does one of the Flume path without a
retest. -/
def Obligations.ScrubsAndRetestsComplete : Prop :=
  (∀ (s : State) (g : Nat), g < 18 → Sound s →
     let r := scrubOf s g
     let n := regionUnits s g
     let row : Observation → Instr → Prop := fun o i =>
       (i = .topScrubVisit g o ∧ (s.obj (O.scrubMode g) = 0 ∨ r.topFinishes = true)) ∨
       (i = .yoyoScrub g o ∧ s.obj (O.scrubMode g) = 1 ∧ yoyoAllowed g = true ∧ r.topFinishes = false)
     let lap : List Part := if r.pos + 1 < n then [] else if g = 0x0F then [.scratch] else if 4 ≤ g ∧ g ≤ 7 then [.tcam] else []
     let moved : State → Prop := fun t => if r.pos + 1 < n then
         (scrubOf t g).pos = r.pos + 1 ∧ (scrubOf t g).lap = r.lap ∧ (scrubOf t g).topFinishes = r.topFinishes
       else (scrubOf t g).pos = 0 ∧ (scrubOf t g).lap = r.lap + 1 ∧ (scrubOf t g).lapStart = elapsed s ∧ (scrubOf t g).topFinishes = false ∧
         (scrubOf t g).interrupted = false ∧ (r.interrupted = false → t.val (O.lapTime g) = (elapsed s - r.lapStart) / 1000000 % 2 ^ 32)
     (scrubbable s g = true → n ≠ 0 →
       (∀ i, row .clean i → ∃ t, exec i s = .next t ∧ FramedBy ([.live, .integ] ++ lap) s t ∧ moved t ∧ (scrubOf t g).weak = r.weak ∧
         (scrubOf t g).candidates = (candidatesOf s g).filter fun c => unitOf g c.word != unitAt s g r.pos) ∧
       (∀ w i, row (.corrected w) i → unitOf g w = unitAt s g r.pos → (g < 4 ∨ 7 < g) → r.candidates = [] →
         ∃ t, exec i s = .next t ∧ FramedBy ([.live, .integ] ++ lap) s t ∧ moved t ∧ (scrubOf t g).weak = r.weak ∧
           (scrubOf t g).candidates = [⟨w, 1, r.lap, wordHeld s g w⟩] ∧ t.val (O.corrections g) = (s.val (O.corrections g) + 1) % 2 ^ 32)) ∧
     (s.obj (O.scrubMode g) = 1 → r.topFinishes = false → scrubbable s g = true → ∃ t, exec (.yoyoLapTimeout g) s = .next t ∧
       FramedBy [.live, .integ] s t ∧ scrubOf t g = { r with topFinishes := true } ∧
       t.val (O.yoyoFallbacks g) = (s.val (O.yoyoFallbacks g) + 1) % 2 ^ 32) ∧
     (∀ bank word, bank < 64 →
       (∀ e, mergeOf s bank word = some e → ∃ t, exec (.mergeEntryRetire bank word) s = .next t ∧ FramedBy [.live, .integ] s t ∧
         t.integ = { s.integ with merge := s.integ.merge.erase e } ∧
         t.val O.mergeReadModifyWrites = (s.val O.mergeReadModifyWrites + 1) % 2 ^ 32) ∧
       (mergeOf s bank word = none → exec (.mergeEntryRetire bank word) s = .next s))) ∧
  (∀ (s : State) (g w : Nat), g < 18 → Sound s → scrubbable s g = true →
     (unitOf g w < 8192 → g ≠ 0x0F → g ≠ 9 → ∃ t, exec (.outOfTurnScrub g w .clean) s = .next t ∧ FramedBy [.live] s t ∧
       ObjectsOnly [O.corrections g] s t ∧ t.val (O.corrections g) = (s.val (O.corrections g) + 1) % 2 ^ 32) ∧
     (g = 0x0B → w < 2097152 → wordPoisoned s w = false → ∃ t, exec (.outOfTurnScrub g w (.uncorrectable w)) s = .next t ∧
       FramedBy [.live, .coh] s t ∧ wordPoisoned t w = true ∧ t.coh.home = s.coh.home ∧
       t.val O.poisonedGranules = (s.val O.poisonedGranules + 1) % 2 ^ 32 ∧
       t.val (O.uncorrectables g) = (s.val (O.uncorrectables g) + 1) % 2 ^ 32) ∧
     (g = 0x0F → w < 524288 →
       let others := s.scratch.lapLost.filter fun v => v % 32 == w % 32
       ∃ t, exec (.outOfTurnScrub g w (.uncorrectable w)) s = .next t ∧ wordBad t w = true ∧ t.scratch.mem = s.scratch.mem ∧
         (∀ v, v ≠ w → wordBad t v = wordBad s v) ∧ (others.length < 7 → FramedBy [.live, .integ, .scratch] s t) ∧
         (7 ≤ (others.filter fun v => v != w && wordBad s v).length → bit t.modes.quarantine (0x20 + w % 32) = true)) ∧
     (g = 0x0C → w < 65536 → domainRuns s = true → ∃ t, exec (.outOfTurnScrub g w (.uncorrectable w)) s = .next t ∧ Falls 1 (0x10 + w / 4096) s t) ∧
     (∀ hard, (w, 1) ∈ (scrubOf s g).weak → (g = 8 → hard = true → wordMarked s w = false) → ∃ t st, exec (.weakWordRetest g w hard) s = .next t ∧ (w, st) ∈ (scrubOf t g).weak ∧
       (∀ x ∈ (scrubOf t g).weak, x.1 = w → x.2 = st) ∧ (∀ x, x.1 ≠ w → (x ∈ (scrubOf t g).weak ↔ x ∈ (scrubOf s g).weak)) ∧
       (if flumePath s g w = true then st = 4 ∨ st = 5 else if hard = true then st = 3 ∨ st = 5 else st = 2 ∧ ∀ c ∈ (scrubOf t g).candidates, c.word ≠ w)))

/-- R294–R296, R200, R395, R428: the LPDDR5 part trains and gives its capacity, or fails with LPDDR_ABSENT; the shadow is ready with the regions of
Table 12-2 written through; the extended table is ready, and class C with it, and the sealed entries that waited for it are placed once class B is
ready; and the fill is done. What waited for LPDDR5 goes on. None of it happens while the reference of its crossings is lost (R16). -/
def Obligations.LpddrBringUpCompletes : Prop :=
  (∀ (s : State) (c : Instr), lpddrRuns s = false → ((∃ d, c = .lpddrTrained d) ∨ c = .lpddrTrainingFailed ∨ c = .shadowReady ∨ c = .extReady ∨
     c = .lpddrFillDone) → exec c s = .next s) ∧
  ∀ s : State, s.power.core = true → lpddrRuns s = true →
    (s.val O.lpddrState = 1 →
      (∀ d, d = 8 ∨ d = 12 ∨ d = 16 → ∃ t, exec (.lpddrTrained d) s = .next t ∧ FramedBy [.live] s t ∧
        ObjectsOnly [O.lpddrUserCapacity, O.lpddrState] s t ∧ t.val O.lpddrState = 2 ∧ t.val O.lpddrUserCapacity = 112 * d) ∧
      (∃ t, exec .lpddrTrainingFailed s = .next (resumeAll t) ∧ FramedBy faultParts s t ∧ ObjectsOnly (O.lpddrState :: faultObjects) s t ∧
        t.val O.lpddrState = 4 ∧ faultActive 0x0140 t = true)) ∧
    (s.val O.lpddrState = 2 →
      (s.flag O.shadowReady = false → ∃ t, exec .shadowReady s = .next (resumeAll t) ∧ FramedBy [.live, .coh, .results] s t ∧
        ObjectsOnly [O.shadowReady] s t ∧ t.val O.shadowReady = 1 ∧ t.coh.home = s.coh.home ∧ t.results.verdict = s.results.verdict ∧
        t.results.verdictShadow = s.results.verdict ∧
        (∀ e ∈ s.coh.home, ∀ v, shadowOf e.1 e.2 = some v → v ≠ 0 → (e.1, v) ∈ t.coh.shadow) ∧
        (∀ x ∈ t.coh.shadow, ∃ v, (x.1, v) ∈ s.coh.home ∧ shadowOf x.1 v = some x.2)) ∧
      (s.flag O.shadowReady = true → s.flag O.extReady = false →
        ∃ t, exec .extReady s = .next (resumeAll (if bit t.modes.classReady 1 = true then placeDeferred t else t)) ∧ FramedBy [.live, .modes, .busy] s t ∧
        ObjectsOnly [O.extReady, O.classCReadyTime] s t ∧ t.val O.extReady = 1 ∧ t.val O.classCReadyTime = elapsed s / 1000 ∧
        t.modes = { s.modes with classReady := s.modes.classReady ||| 4, busyAt := s.clock.wall }) ∧
      (s.flag O.extReady = true → ∃ t, exec .lpddrFillDone s = .next t ∧ FramedBy [.live] s t ∧ ObjectsOnly [O.lpddrState] s t ∧
        t.val O.lpddrState = 3))

/-! ## The management port, objects, the endpoint and the scratchpad (R17–R57, R71–R81, R423) -/

/-- R28, R29, R31, R50: the NMT commands set the port's state while it takes part in bus traffic; a reset boots it up in Pre-operational and ends
its transfer and its lock; heartbeats and TPDOs are sent, a TPDO inside its inhibit time being due at the end of it; bus-off silences the port and is
counted; and the port recovers and rejoins. That a COB-ID with bit 29 clear sends its low 11 bits is the model's choice (log entry 141). -/
def Obligations.CanPortCommandsComplete : Prop :=
  ∀ s : State,
    let with_ : (Can → Can) → State := fun f => { s with can := f s.can }
    (canTalks s = true →
      exec .nmtStart s = .next (with_ fun c => { c with nmt := 0x05 }) ∧ exec .nmtStop s = .next (with_ fun c => { c with nmt := 0x04 }) ∧
      exec .nmtEnterPreOperational s = .next (with_ fun c => { c with nmt := 0x7F }) ∧
      (∀ i, i = Instr.nmtResetCommunication ∨ i = Instr.nmtResetNode → ∃ t, exec i s = .next t ∧ FramedBy [.can, .live, .out] s t ∧
        ObjectsOnly [O.stagingLock] s t ∧ t.can = { s.can with nmt := 0x7F, transfer := none, abandoned := none } ∧
        t.val O.stagingLock = (if s.val O.stagingLock = 2 then 0 else s.val O.stagingLock) ∧
        (s.can.nodeId < 128 → t.out = .can (0x700 + s.can.nodeId) false (brsNow s) [0#8] :: s.out)) ∧
      (s.obj O.producerHeartbeatTime ≠ 0 → s.can.nodeId < 128 →
        exec .heartbeatTimer s = .next { s with out := .can (0x700 + s.can.nodeId) false (brsNow s) (leBytes 1 s.can.nmt) :: s.out }) ∧
      (∀ n < 16, s.can.nmt = 0x05 → bit (s.obj (O.tpdoCobId n)) 31 = false → s.obj (O.tpdoEventTimer n) ≠ 0 → s.obj (O.tpdoMappingCount n) ≠ 0 →
        let id := s.obj (O.tpdoCobId n)
        let inside : Prop := SMap.get 0 s.can.tpdoAt n ≠ 0 ∧ s.clock.wall + 1 < SMap.get 0 s.can.tpdoAt n + s.obj (O.tpdoInhibitTime n) * 100000
        (¬inside → ∃ t, exec (.tpdoEventTimer n) s = .next t ∧ FramedBy [.can, .out] s t ∧ SMap.get 0 t.can.tpdoAt n = s.clock.wall + 1 ∧
          bit t.can.tpdoDue n = false ∧
          t.out = .can (if bit id 29 = true then bits id 28 0 else bits id 10 0) (bit id 29) (brsNow s) (tpdoData n s) :: s.out) ∧
        (inside → exec (.tpdoEventTimer n) s = .next (with_ fun c => { c with tpdoDue := c.tpdoDue ||| 2 ^ n }))) ∧
      (∃ t, exec .canBusOff s = .next t ∧ FramedBy [.can, .live] s t ∧ ObjectsOnly [O.canBusOffCount] s t ∧ t.can = { s.can with busOff := true } ∧
        t.val O.canBusOffCount = (s.val O.canBusOffCount + 1) % 2 ^ 32 ∧ canTalks t = false)) ∧
    (canTalks s = false → ∀ i, i = Instr.nmtStart ∨ i = Instr.nmtStop ∨ i = Instr.nmtEnterPreOperational ∨ i = Instr.nmtResetCommunication ∨
      i = Instr.nmtResetNode ∨ i = Instr.canBusOff ∨ i = Instr.heartbeatTimer → exec i s = .next s) ∧
    exec .busOffRecovery s = .next (with_ fun c => { c with busOff := false }) ∧
    (s.can.rejoining = true → ∃ t, exec .canRejoin s = .next t ∧ FramedBy [.can, .out] s t ∧
      t.can = { s.can with rejoining := false, bootOnRejoin := false, nmt := if s.can.bootOnRejoin = true then 0x7F else s.can.nmt })

/-- R30: a client's upload of an object answers its value, or its size and then its segments; a download is a write of the object, in one frame or
in segments that end with the announced length; another client is refused while a transfer is open; an idle transfer is abandoned and counted. -/
def Obligations.UsdoTransfersComplete : Prop :=
  ∀ (s : State) (c i u : Nat), 1 ≤ c → c < 128 → i < 65536 → u < 256 → served .can s = true →
    let mine : Prop := s.can.transfer = none ∨ ∃ x, s.can.transfer = some x ∧ x.client = c
    let answers : Usdo → (State → Nat → Nat → Bytes → Prop) → Prop := fun q p => ∃ t a d b, exec (.usdoRequest c q) s = .next t ∧
      t.out = .usdo (0x580 + t.can.nodeId) (brsNow s) c a d b :: s.out ∧ t.val O.canRequests = (s.val O.canRequests + 1) % 2 ^ 32 ∧ p t a d b
    (∀ v, mine → readChecked i u 0 s = .inr v →
      (v.length ≤ 56 → answers (.upload i u) fun t a d b => a = 0 ∧ d = 0 ∧ b = v ∧ t.can.transfer = none) ∧
      (56 < v.length → v.length ≤ 65536 → answers (.upload i u) fun t a _ b => a = 0 ∧ b = leBytes 4 v.length ∧
        t.can.transfer = some ⟨c, objKey i u, false, v, v.length⟩)) ∧
    (∀ e, mine → readChecked i u 0 s = .inl e → answers (.upload i u) fun t a d b => (a, d) = e ∧ b = [] ∧ t.val O.lastAbortCan = a) ∧
    (∀ x, s.can.transfer = some x → x.client = c → x.download = false → answers .uploadSegment fun t a _ b => a = 0 ∧ b = x.data.take 56 ∧
      t.can.transfer = (if x.data.drop 56 = [] then none else some { x with data := x.data.drop 56 })) ∧
    (∀ x q, s.can.transfer = some x → x.client ≠ c → (q = .upload i u ∨ (∃ b, q = .download i u b) ∨ ∃ n, q = .downloadInit i u n) →
      answers q fun t a d _ => a = 0x08000022 ∧ d = 0x2011 ∧ t.can.transfer = s.can.transfer) ∧
    (∀ r n, mine → objRow? i u = some r → (r.sequenced = true ∨ writeGate .can (objKey i u) r s = none) →
      answers (.downloadInit i u n) fun t a _ _ => a = 0 ∧ t.can.transfer = some ⟨c, objKey i u, true, [], n⟩) ∧
    (∀ x b, s.can.transfer = some x → x.client = c → x.download = true → (x.data ++ b).length ≤ x.size →
      answers (.downloadSegment b false) fun t a _ _ => a = 0 ∧ t.can.transfer = some { x with data := x.data ++ b }) ∧
    (∀ b r, objRow? i u = some r → r.access = .staged → r.sequenced = false → Writable .can (objKey i u) b s → s.dict.staging.length < 1024 →
      let staged : State → Nat → Nat → Bytes → Prop := fun t a _ _ => a = 0 ∧ t.can.transfer = none ∧
        SMap.find? t.dict.staging (objKey i u) = some (leNat b) ∧ ∀ k, k ≠ objKey i u → SMap.find? t.dict.staging k = SMap.find? s.dict.staging k
      (mine → answers (.download i u b) staged) ∧
      ∀ x y, s.can.transfer = some x → x.client = c → x.download = true → x.key = objKey i u → x.data ++ y = b → b.length = x.size →
        answers (.downloadSegment y true) staged) ∧
    (∀ x, s.can.transfer = some x → ∃ t, exec .usdoTimeout s = .next t ∧ FramedBy [.can, .live] s t ∧
      t.can = { s.can with transfer := none, abandoned := some x.client } ∧
      t.val O.transfersAbandoned = (s.val O.transfersAbandoned + 1) % 2 ^ 32)

/-- R37–R39: a write of a staged object is staged and changes no live value, or finds the staging set full; the discard empties the set; the lock
takes its value; and a commit that passes its checks makes every staged value live and empties the set, while one that fails leaves both and names
the check's detail and object. R43, R44: a write of a sequenced object whose sequence byte the channel still keeps is not executed: with the same
data it is answered again as before, and with other data it is SEQUENCE_MISMATCH. -/
def Obligations.StagingAndCommitComplete : Prop :=
  (∀ (s : State) (ch : Channel),
     (∀ i u v r, i < 65536 → u < 256 → objRow? i u = some r → r.access = .staged → r.sequenced = false → Writable ch (objKey i u) v s →
       let k := objKey i u
       (((SMap.find? s.dict.staging k).isSome = true ∨ s.dict.staging.length < 1024) → ∃ w t, exec (.objectWrite ch i u v) s = .next t ∧
         Answers ch 0 0 [] w t ∧ FramedBy [.dict] s w ∧ SMap.find? w.dict.staging k = some (leNat v) ∧
         ∀ j, j ≠ k → SMap.find? w.dict.staging j = SMap.find? s.dict.staging j) ∧
       (SMap.find? s.dict.staging k = none → 1024 ≤ s.dict.staging.length → Refuses (.objectWrite ch i u v) ch 0x08000022 0x200A s)) ∧
     (∀ i u v, i < 65536 → u < 256 → objRow? i u = none → served ch s = true →
       Refuses (.objectWrite ch i u v) ch (if indexExists i = true then 0x06090011 else 0x06020000) (if indexExists i = true then 0x2002 else 0x2001) s) ∧
     (∀ v < 256, Writable ch O.stagingLock (leBytes 1 v) s → Does (.stagingLock ch v) ch [.live] s fun w => ObjectsOnly [O.stagingLock] s { w with
       dict := { w.dict with assembly := s.dict.assembly } } ∧ w.val O.stagingLock = v) ∧
     (∀ q < 256, NewSequence ch O.commit q s →
       (Writable ch O.commit [2#8] s → ∃ w t, exec (.discardStaging ch q) s = .next t ∧ Answers ch 0 0 [] w t ∧ FramedBy [.dict] s w ∧
         w.dict.staging = []) ∧
       (Writable ch O.commit [1#8] s → commitFailure s (mergedLive s s.dict.staging) (s.dict.staging.map (·.1)) = none →
         (s.dict.staging.map (·.1)).Nodup → ∃ w t, exec (.commit ch q) s = .next t ∧ Answers ch 0 0 [] w t ∧ w.dict.staging = [] ∧
         (∀ e ∈ s.dict.staging, (∃ r, objRow? (e.1 / 256) (e.1 % 256) = some r ∧ (r.access = .staged ∨ r.access = .stagedSealable)) →
           w.obj e.1 = e.2)) ∧
       (∀ n d k, Writable ch O.commit [1#8] s → commitFailure s (mergedLive s s.dict.staging) (s.dict.staging.map (·.1)) = some (n, d, k) →
         Done (.commit ch q) ch (checkAbort n) d [] [.live] s fun w => w.val O.commitDetail = d ∧ w.val O.commitConflict = k ∧
           ∀ j, j ≠ O.commitDetail → j ≠ O.commitConflict → w.val j = s.val j))) ∧
  (∀ (s : State) (ch : Channel) (i u : Nat) (q : Byte) (v : Bytes) (r : ObjRow) (e : Kept), i < 65536 → u < 256 → served ch s = true →
     objRow? i u = some r → r.sequenced = true →
     s.dict.kept.find? (fun e => e.ch == ch && e.key == objKey i u && e.seq == q.toNat) = some e →
     (e.resp.status = 1 ↔ e.resp.abort ≠ 0) →
     (e.digest = sha256 v → Done (.objectWrite ch i u (q :: v)) ch e.resp.abort e.resp.detail e.resp.data [.live] s fun w =>
       w.val O.keptResponses = (s.val O.keptResponses + 1) % 2 ^ 32 ∧ ∀ k, k ≠ O.keptResponses → w.val k = s.val k) ∧
     (e.digest ≠ sha256 v → Refuses (.objectWrite ch i u (q :: v)) ch 0x08000020 0x200B s))

/-- R33, R45, R110, R195, Tables 2-5 and 2-6: a mailbox transaction runs its request record and puts the response record into the response buffer,
with vector 0; a doorbell before Ready is discarded and one while Busy is counted; a read of a peak answers its value and clears it; and a read of
LastFailedKey arms its table's vector again. R52–R57, R425, Tables 3-2 and 3-3: a conventional reset of the endpoint clears its rings, buffers and
vectors' table, disables MSI-X and is counted; a trained link shows its speed and width and raises the vectors held back that MSI-X and their Mask
bits let go; a BAR0 read answers its words, an access beyond the BAR is an Unsupported Request, a poisoned write is logged, and a write of the request
buffer lands there. -/
def Obligations.MailboxAndEndpointComplete : Prop :=
  (∀ s : State,
     let b := Memory.readBytes s.mailbox.request 0 4096
     let q := requestOf b
     let answered : State → Resp → Prop := fun t r =>
       Memory.readBytes t.mailbox.response 0 (responseBytes q r).length = responseBytes q r ∧ t.mailbox.request = s.mailbox.request ∧
         t.val O.pcieRequests = (s.val O.pcieRequests + 1) % 2 ^ 32 ∧
         t.out = (if vectorOpen 0 s = true then [Output.msix 0] else []) ++ s.out
     (served .pcie s = false → exec .mailboxDoorbell s = .next s) ∧
     (served .pcie s = true → s.mailbox.busy = true → ∃ t, exec .mailboxDoorbell s = .next t ∧ FramedBy [.live] s t ∧
       ObjectsOnly [O.mailboxBusyDoorbells] s t ∧ t.val O.mailboxBusyDoorbells = (s.val O.mailboxBusyDoorbells + 1) % 2 ^ 32) ∧
     (served .pcie s = true → s.mailbox.busy = false →
       (∀ v, requestOk b q = true → q.op = 1 → readChecked q.index q.sub q.offset s = .inr v → ∃ t, exec .mailboxDoorbell s = .next t ∧
         FramedBy [.live, .dict, .mailbox, .tally, .endpoint, .buckets, .out] s t ∧ answered t ⟨0, 0, 0, v.length, (v.drop q.offset).take (min q.length 4072)⟩) ∧
       (requestOk b q = false → ∃ t, exec .mailboxDoorbell s = .next t ∧ FramedBy [.live, .mailbox, .endpoint, .out] s t ∧
         answered t ⟨1, 0x06010000, 0x200D, 0, []⟩ ∧ t.val O.lastDetailPcie = 0x200D)) ∧
     (∀ ch i u v, i < 65536 → u < 256 → served ch s = true → readChecked i u 0 s = .inr v → v.length ≤ 65536 →
       (clearedByReading (objKey i u) = true → Done (.peakReadClear ch i u) ch 0 0 v [.live] s fun w => w.val (objKey i u) = 0 ∧
         ∀ k, k ≠ objKey i u → w.val k = s.val k)) ∧
     (∀ ch n v, n < 64 → served ch s = true → readChecked (O.lastFailedKey n / 256) (O.lastFailedKey n % 256) 0 s = .inr v → v.length ≤ 65536 →
       Done (.lastFailedKeyRead ch n) ch 0 0 v [.buckets] s fun w => bit w.buckets.disarmed n = false ∧
         w.buckets = { s.buckets with disarmed := w.buckets.disarmed } ∧ ∀ j, j ≠ n → bit w.buckets.disarmed j = bit s.buckets.disarmed j)) ∧
  (∀ s : State, Sound s →
     (s.power.core = true → ∃ t, exec .pcieConventionalReset s = .next t ∧ FramedBy [.live, .mailbox, .endpoint, .rings] s t ∧
       t.host.canSend = false ∧ t.host.msixOn = false ∧ t.host.msixTable = msixReset ∧ t.mailbox.request = [] ∧ t.mailbox.response = [] ∧ t.mailbox.busy = s.mailbox.busy ∧
       t.val O.pcieResets = (s.val O.pcieResets + 1) % 2 ^ 32 ∧
       ∀ r < 8, (ringAt s r).waiting = none → (ringAt t r).enabled = false ∧ (ringAt t r).halted = false) ∧
     (∀ speed width master msix, 1 ≤ speed → speed ≤ 4 → (width = 1 ∨ width = 2 ∨ width = 4) → s.power.core = true → bit s.modes.refLost 3 = false →
       let goes : Nat → Bool := fun v => master && msix && !bit (Memory.read s.host.msixTable (16 * v + 12)).toNat 0
       ∃ t, exec (.pcieLinkUp speed ⟨width, master, msix⟩) s = .next t ∧ FramedBy [.live, .endpoint, .out] s t ∧ t.host.canSend = master ∧
         t.host.msixOn = msix ∧ (∀ v, v ∈ t.host.held ↔ v ∈ s.host.held ∧ goes v = false) ∧
         t.val O.pcieLinkSpeed = speed ∧ t.val O.pcieLinkWidth = width ∧ t.out = ((s.host.held.filter goes).map Output.msix).reverse ++ s.out) ∧
     (∀ acc : BarAccess, endpointPowered s = true →
       (acc.write = false → 0x10000 < acc.offset + acc.size → exec (.bar0RegisterWrite acc) s = .next { s with out := .pcie 1 [] :: s.out }) ∧
       (acc.write = false → acc.offset + acc.size ≤ 0x10000 →
         exec (.bar0RegisterWrite acc) s = .next { s with out := .pcie 0 (barRead s acc.offset acc.size) :: s.out }) ∧
       (acc.write = true → (acc.poisoned = true ∨ 0x10000 < acc.offset + acc.value.length) →
         exec (.bar0RegisterWrite acc) s = .next { s with out := .aer :: s.out }) ∧
       (acc.write = true → acc.poisoned = false → acc.offset + acc.value.length ≤ 0x1000 → s.mailbox.busy = false → acc.offset < 0x1000 →
         ∃ t, exec (.bar0RegisterWrite acc) s = .next t ∧ FramedBy [.mailbox] s t ∧ t.mailbox.response = s.mailbox.response ∧
           Memory.readBytes t.mailbox.request acc.offset acc.value.length = acc.value ∧
           ∀ a, (a < acc.offset ∨ acc.offset + acc.value.length ≤ a) → t.mailbox.request.read a = s.mailbox.request.read a) ∧
       (acc.write = true → acc.poisoned = false → 0x1000 ≤ acc.offset → acc.offset < 0x2000 → acc.offset + acc.value.length ≤ 0x10000 →
         exec (.bar0RegisterWrite acc) s = .next s) ∧
       (∀ r < 8, acc.write = true → acc.poisoned = false → acc.value.length = 4 → acc.offset = 0x3018 + 64 * r →
         exec (.bar0RegisterWrite acc) s = exec (.producerIndex r (le acc.value 0 4)) s)))

/-- R71, R75, R77, R80: a window access to banks that the host owns writes its bytes and nothing else, or answers them; a bit-set access ORs and a
bit-clear access clears its bits; an access that touches another owner's bank is refused, counted and changes no byte; and a read that meets an
uncorrectable word is poisoned, with free bytes for that word. A read through either alias window answers as the window of BAR2 does; a poisoned
write, or one beyond the window, is discarded and logged. R74, R76, R79: BankOwner and BankHandover give banks to their new owner together,
unless one is reserved or in use; BankCode of a bank that the host owns takes its value and fills the bank with zeros. -/
def Obligations.ScratchpadAndBanksComplete : Prop :=
  (∀ (s : State) (off : Nat), Sound s → windowUp s = true →
     let mine : Nat → Prop := fun n => ∀ b ∈ banksTouched off n, mayAccess s 0 b = true
     let others : State → Nat → Prop := fun t n => ∀ a, (a < off ∨ off + n ≤ a) → t.scratch.mem.read a = s.scratch.mem.read a
     let byte : Nat → Byte := s.scratch.mem.read
     (∀ d : Bytes, off + d.length ≤ scratchBytes → mine d.length →
       (∃ t, exec (.scratchpadWindowWrite off d false) s = .next t ∧ FramedBy [.live, .scratch, .integ, .fresh] s t ∧ others t d.length ∧
         ∀ i < d.length, t.scratch.mem.read (off + i) = d.getD i 0) ∧
       (∃ t, exec (.aliasBitSet off ⟨d, false⟩) s = .next t ∧ FramedBy [.live, .scratch, .integ, .fresh] s t ∧ others t d.length ∧
         ∀ i < d.length, t.scratch.mem.read (off + i) = byte (off + i) ||| d.getD i 0) ∧
       (∃ t, exec (.aliasBitClear off ⟨d, false⟩) s = .next t ∧ FramedBy [.live, .scratch, .integ, .fresh] s t ∧ others t d.length ∧
         ∀ i < d.length, t.scratch.mem.read (off + i) = byte (off + i) &&& ~~~(d.getD i 0))) ∧
     (∀ n i, off + n ≤ scratchBytes → off < scratchBytes → mine n → (i = Instr.scratchpadWindowRead ⟨false, off⟩ n ∨
         i = Instr.scratchpadWindowRead ⟨true, off⟩ n ∨ i = Instr.scratchpadWindowRead ⟨true, scratchBytes + off⟩ n) →
       ((∀ w ∈ wordsTouched off n, wordBad s w = false) → ∃ t, exec i s = .next t ∧ FramedBy [.live, .scratch, .fresh, .out] s t ∧ t.scratch.mem = s.scratch.mem ∧
         t.out = .pcie 0 (Memory.readBytes s.scratch.mem off n) :: s.out) ∧
       ((∃ w ∈ wordsTouched off n, wordBad s w = true) → ∃ t b, exec i s = .next t ∧ FramedBy [.live, .scratch, .fresh, .out] s t ∧ t.scratch.mem = s.scratch.mem ∧
         t.out = .aer :: .pcie 8 b :: s.out ∧ b.length = n ∧ ∀ i < n, wordBad s ((off + i) / 8) = false → b.getD i 0 = byte (off + i))) ∧
     (∀ d : Bytes, off + d.length ≤ scratchBytes → (∃ b ∈ banksTouched off d.length, mayAccess s 0 b = false) →
       ∀ i, (i = Instr.scratchpadWindowWrite off d false ∨ i = Instr.aliasBitSet off ⟨d, false⟩ ∨ i = Instr.aliasBitClear off ⟨d, false⟩ ∨
           i = Instr.scratchpadWindowRead ⟨false, off⟩ d.length) → ∃ t, exec i s = .next t ∧ FramedBy [.live, .out] s t ∧
         (∀ b < 32, t.val (O.bankRefusals b) = if b ∈ banksTouched off d.length ∧ mayAccess s 0 b = false
           then (s.val (O.bankRefusals b) + 1) % 2 ^ 32 else s.val (O.bankRefusals b)) ∧
         t.val O.refusedWindowAccesses = (s.val O.refusedWindowAccesses + 1) % 2 ^ 32) ∧
     (∀ (d : Bytes) (bad : Bool), (bad = true ∨ scratchBytes < off + d.length) →
       ∀ i, (i = Instr.scratchpadWindowWrite off d bad ∨ i = Instr.aliasBitSet off ⟨d, bad⟩ ∨ i = Instr.aliasBitClear off ⟨d, bad⟩) →
         exec i s = .next { s with out := .aer :: s.out })) ∧
  (∀ (s : State) (ch : Channel),
     let reserved := s.val O.tallyBanks ||| s.val O.culvertBanks
     let handed : Nat → Nat → State → Prop := fun mask code u =>
       (∀ b < 32, u.val (O.bankOwner b) = if bit mask b = true then code else s.val (O.bankOwner b)) ∧
         ∀ k, (∀ b < 32, k ≠ O.bankOwner b) → u.val k = s.val k
     (∀ b code, b < 32 → code < 256 → Writable ch (O.bankOwner b) (leBytes 1 code) s →
       (bit reserved b = false → bit (banksInUse s) b = false → Does (.bankOwner ch b code) ch [.live] s (handed (2 ^ b) code)) ∧
       (bit reserved b = true → Refuses (.bankOwner ch b code) ch 0x08000022 0x2102 s) ∧
       (bit reserved b = false → bit (banksInUse s) b = true → Refuses (.bankOwner ch b code) ch 0x08000022 0x2101 s)) ∧
     (∀ v < 2 ^ 64, Writable ch O.bankHandover (leBytes 8 v) s →
       (bits v 31 0 &&& reserved = 0 → bits v 31 0 &&& banksInUse s = 0 →
         Does (.bankHandover ch v) ch [.live] s (handed (bits v 31 0) (bits v 39 32))) ∧
       (bits v 31 0 &&& reserved ≠ 0 → Refuses (.bankHandover ch v) ch 0x08000022 0x2102 s)) ∧
     (∀ b code, b < 32 → code < 256 → Writable ch (O.bankCode b) (leBytes 1 code) s →
       (ownerOf s b = 0 → Does (.bankCode ch b code) ch [.live, .scratch, .integ] s fun u => u.val (O.bankCode b) = code ∧
         (∀ a, u.scratch.mem.read a = if bankOfWord (a / 8) = b then 0 else s.scratch.mem.read a) ∧
         ∀ w, wordBad u w = (wordBad s w && bankOfWord w != b)) ∧
       (ownerOf s b ≠ 0 → Refuses (.bankCode ch b code) ch 0x08000022 0x2103 s)))

/-- R75, R91, R109, R111, R211, R370, R397, R399: LinkAction retrains a link (with no effect while K1 has no reference: the model's choice, log entry
172), or discards the results held for a link that is down, counted, while searches that still run keep their slots; MoveLockClear unlocks a station;
Promote makes the secondary of a Solo pair its primary; PairRelease ends Standby; DrowseExit ends Drowse, and its instant is the last that R398 counts
from; and FirmwareStage begins a staging, and each bank of it that no Marionette may access is counted. Each is refused where its rule says. -/
def Obligations.ActionWritesComplete : Prop :=
  ∀ (s : State) (ch : Channel), Sound s →
    (∀ m < 8, Writable ch (O.linkAction m) [1#8] s →
      ((linkAt s m).state ≠ 0 → bit s.modes.refLost 0 = false → Does (.linkRetrain ch m) ch [.live, .endpoint, .links, .out] s fun u =>
        linkAt u m = { linkAt s m with state := 1, lost := 0 } ∧ (∀ j, j ≠ m → linkAt u j = linkAt s j) ∧
          u.val (O.retrains m) = (s.val (O.retrains m) + 1) % 2 ^ 32 ∧ .training m { trainingOf m s with lanes := 2 } ∈ u.out) ∧
      ((linkAt s m).state ≠ 0 → bit s.modes.refLost 0 = true → Does (.linkRetrain ch m) ch [] s fun _ => True) ∧
      ((linkAt s m).state = 0 → Refuses (.linkRetrain ch m) ch 0x08000022 0x2202 s)) ∧
    (∀ m < 8, Writable ch (O.linkAction m) [2#8] s →
      ((linkAt s m).state = 4 →
        let held : Slot → Bool := fun x => x.link == m && x.phase == .done
        Does (.linkDiscardHeld ch m) ch [.live, .keys, .endpoint, .rings, .slots, .out] s fun u =>
          u.headgate.slots = (s.headgate.slots.filter fun x => !held x) ∧
            ((s.headgate.slots.filter held).length ≠ 0 →
              u.val (O.discardedResults m) = (s.val (O.discardedResults m) + (s.headgate.slots.filter held).length) % 2 ^ 32)) ∧
      ((linkAt s m).state ≠ 4 → Refuses (.linkDiscardHeld ch m) ch 0x08000022 0x2201 s)) ∧
    (∀ (q : Byte) v, NewSequence ch O.moveLockClear q.toNat s → Writable ch O.moveLockClear v s → (ch = .can ∨ s.dict.assembly = none) →
      let t := u8 v 0
      let unlocked : BucketEntry → BucketEntry := fun e => { e with moveLocked := false, flap := 0, flapStart := tickNow s t }
      let parts : List Part := [.live, .vault, .tally, .endpoint, .integ, .coh, .buckets, .out]
      (t ≤ 63 → defDefined (tableDef s.dict.live t) = true → defLearnable (tableDef s.dict.live t) = true →
        (bit (u8 v 1) 0 = false → ∀ p e,
          let w := drainOps (fun sl => sl == keyBucket s t (be v 2 40) % 16) s
          findPlace w t (be v 2 40) = some p → entryAt? w p = some e → Does (.moveLockClear ch (q :: v)) ch parts s fun u =>
            entryAt? u p = some (unlocked e) ∧ ∀ j, j ≠ p → entryAt? u j = entryAt? w j) ∧
        (bit (u8 v 1) 0 = true → allZero v 2 40 = true →
          let w := drainOps (fun _ => true) s
          Does (.moveLockClear ch (q :: v)) ch parts s fun u =>
            ∀ p e, entryAt? w p = some e → entryAt? u p = some (if e.table = t then unlocked e else e))) ∧
      ((63 < t ∨ defDefined (tableDef s.dict.live t) = false ∨ defLearnable (tableDef s.dict.live t) = false) →
        Refuses (.moveLockClear ch (q :: v)) ch 0x06090030 0x2702 s)) ∧
    (∀ q < 256,
      (NewSequence ch O.promote q s → Writable ch O.promote [1#8] s →
        (pairState s = 3 → s.val O.pairRole = 2 → Does (.promote ch q) ch [.live, .pair] s fun u => u.val O.pairRole = 1 ∧ u.pair.role = 1 ∧
          u.pair.epoch = (s.pair.epoch + 1) % 2 ^ 32 ∧ pairState u = 3) ∧
        (¬(pairState s = 3 ∧ s.val O.pairRole = 2) → Refuses (.promote ch q) ch 0x08000022 0x2F02 s)) ∧
      (NewSequence ch O.pairRelease q s → Writable ch O.pairRelease [1#8] s →
        (pairState s = 5 → Does (.pairRelease ch q) ch [.mode, .faults, .drowse, .busy, .live, .vault, .tally, .endpoint, .buckets, .tcam, .links, .pair, .out] s fun u =>
          pairState u = 0 ∧ u.val O.culvertLinkState = 0 ∧ u.val O.pairRole = 0 ∧ faultActive 0x0142 u = false) ∧
        (pairState s ≠ 5 → Refuses (.pairRelease ch q) ch 0x08000022 0x2F02 s))) ∧
    (∀ v < 256, Writable ch O.drowseExit (leBytes 1 v) s → Does (.drowseExit ch v) ch [.drowse, .busy] s fun u => u.modes.busyAt = s.clock.wall ∧
      u.modes.drowse = (if s.modes.drowse = 1 then 4 else if s.modes.drowse = 2 then 3 else s.modes.drowse)) ∧
    (∀ (q : Byte) v, NewSequence ch O.firmwareStage q.toNat s → Writable ch O.firmwareStage v s →
      (s.modes.fwStage ≠ 1 → Does (.firmwareStage ch (q :: v)) ch [.live, .modes] s fun u => u.modes.fwStage = 1 ∧
        u.modes.fwImage = (stagedImage (le v 0 4) (le v 4 4) s).getD [] ∧
        ∀ b < 32, u.val (O.bankRefusals b) =
          if b ∈ stageRefused s (le v 0 4) then (s.val (O.bankRefusals b) + 1) % 2 ^ 32 else s.val (O.bankRefusals b)) ∧
      (s.modes.fwStage = 1 → Refuses (.firmwareStage ch (q :: v)) ch 0x08000022 0x2040 s))

/-! ## Keys, the Tally, tamper and Jack (R256, R259, R311–R348) -/

/-- R318, R320, R341: a submitted bundle that its checks accept is stored, listed and journalled, its counter is the vault's, and its receipt is kept,
shown and written behind it; where a sealed table needs slot writes that wait, or a revocation waits for what runs, its command waits, with the vault
and the receipt as they were; one delivered before is ALREADY_APPLIED with the same receipt; and one that fails a check halts its ring with the
check's detail, counted. R256, R259: FreshnessReset sets every counter of its profile to zero and in sync, keeping whether it is valid and sealed, and
is refused for a sealed or undefined profile; a freshness snapshot is written under the next sequence number, its last segment the newest of the pool,
or counted as failed: without the root, where its power fails, or where every segment of the pool is worn. What the banks' arbiter counts is free (log
entry 76), and so is whether a segment's program or erase fails (log entry 164). -/
def Obligations.BundlesAndFreshnessComplete : Prop :=
  (∀ (s : State) (r : Nat) (f : Fetch) (d blk img : Bytes),
     let b := img.take (le d 16 4)
     let u := contend (3 + s.obj (O.ringExecutor r)) (bitList 32 (le d 12 4)) true (takenUp r d blk s)
     let words := (imageWords (le d 12 4) (8 * (cdiv (le d 16 4) 8 + 23))).drop (cdiv (le d 16 4) 8)
     let written : Bytes → State → State := fun rc t => (words.zip (chunks 8 23 rc)).foldl (fun t p => scratchWrite (8 * p.1) p.2 t) t
     Runs r 0x38 f d blk s → Sound s → allZero d 8 4 = true → allZero d 20 44 = true → le d 16 4 ≤ 1048576 → le d 16 4 + 184 ≤ imageLimit (le d 12 4) →
     (∀ k ∈ bitList 32 (le d 12 4), mayAccess s (1 + s.obj (O.ringExecutor r)) k = true) → readImage s (le d 12 4) (ceil8 (le d 16 4)) = some img →
     bundleWaits s = false →
     (∀ rc t, submitBundle b u = .accepted rc t → exec (.bundleSubmit r f) s = .next (completed r (buCounter b % 2 ^ 32) f (written rc t)) ∧
       bundleFormatOk b = true ∧ bundleOrigin b s = none ∧ s.keys.vault.counter < buCounter b ∧ s.keys.vault.counter < t.keys.vault.counter ∧
       t.keys.vault.delivered.head? = some (sha256 b, rc) ∧ t.val O.lastReceipt = leNat rc ∧ rc.take 4 = beBytes 4 0x42524350) ∧
     (∀ j t, submitBundle b u = .job j t →
       exec (.bundleSubmit r f) s = .next (onRing r (fun g => { g with waiting := some (.chain j (buCounter b % 2 ^ 32) 0) }) t) ∧ j.bundle = b ∧
       bundleFormatOk b = true ∧ bundleOrigin b s = none ∧ s.keys.vault.counter < buCounter b ∧ t.keys.vault.counter = s.keys.vault.counter ∧
       t.keys.vault.delivered = s.keys.vault.delivered ∧ t.val O.lastReceipt = s.val O.lastReceipt) ∧
     (∀ x, bundleFormatOk b = true → bundleOrigin b s = none → s.keys.vault.delivered.find? (fun x => x.1 == sha256 b) = some x →
       ∃ t, exec (.bundleSubmit r f) s = .next (settleFences 8 (completeCommand r 1 (buCounter b % 2 ^ 32) f.compOk (written x.2 t))) ∧
         FramedBy [.drowse, .busy, .live, .keys, .rings, .scratch, .fresh] s t ∧ t.val O.alreadyApplied = (s.val O.alreadyApplied + 1) % 2 ^ 32) ∧
     (bundleFormatOk b = false → ∃ t, exec (.bundleSubmit r f) s = .next t ∧
       FramedBy [.drowse, .busy, .live, .keys, .vault, .tally, .endpoint, .rings, .scratch, .fresh, .out] s t ∧
       (ringAt t r).halted = true ∧ (ringAt t r).haltInfo = 0x38 * 2 ^ 24 + 0x1A * 2 ^ 16 + 0x2C01 ∧
       t.val O.rejectedBundles = (s.val O.rejectedBundles + 1) % 2 ^ 32 ∧ t.val O.lastBundleDetail = 0x2C01)) ∧
  (∀ (s : State) (ch : Channel),
     (∀ q n, q < 256 → n < 256 → NewSequence ch O.freshnessReset q s → Writable ch O.freshnessReset [BitVec.ofNat 8 n] s →
       let p := authProfileIn s.dict.live n
       let inside : Nat → Prop := fun i => (apRange p).1 ≤ i ∧ i < (apRange p).1 + (apRange p).2
       (profileSealed s n = true → Refuses (.freshnessReset ch q n) ch 0x08000020 0x2007 s) ∧
       (profileSealed s n = false → (n = 0 ∨ apDefined p = false) → Refuses (.freshnessReset ch q n) ch 0x06090030 0x2902 s) ∧
       (profileSealed s n = false → n ≠ 0 → apDefined p = true → apStore p = 1 → Does (.freshnessReset ch q n) ch [.live, .results, .headgate] s fun u =>
         (∀ i, inside i → readFresh 1 i u = mkCounter 0 (fcValid (readFresh 1 i s)) false (bit (readFresh 1 i s) 61) 0 0 (fcWindow (readFresh 1 i s))) ∧
           ∀ i, ¬inside i → readFresh 1 i u = readFresh 1 i s) ∧
       (profileSealed s n = false → n ≠ 0 → apDefined p = true → apStore p = 0 → (apRange p).1 + (apRange p).2 ≤ 65536 →
         Quiet s → s.coh.caches = [] → (∀ x ∈ s.coh.redirects, 0x38000 ≤ x.2) →
         Does (.freshnessReset ch q n) ch [.live, .coh] s fun u =>
         (∀ i, inside i → readFresh 0 i u = mkCounter 0 (fcValid (readFresh 0 i s)) false (bit (readFresh 0 i s) 61) 0 0 (fcWindow (readFresh 0 i s))) ∧
           ∀ i < 65536, ¬inside i → readFresh 0 i u = readFresh 0 i s)) ∧
     (s.power.core = true → s.modes.fillEnded = true →
       (s.keys.rootUp = false → ∀ ok, ∃ t, exec (.freshnessSnapshot ok) s = .next t ∧ FramedBy [.live] s t ∧
         ObjectsOnly [O.snapshotFailures] s t ∧ t.val O.snapshotFailures = (s.val O.snapshotFailures + 1) % 2 ^ 32) ∧
       (∃ t, exec (.freshnessSnapshot false) s = .next t ∧ FramedBy [.live] s t ∧
         t.val O.snapshotFailures = (s.val O.snapshotFailures + 1) % 2 ^ 32) ∧
       (s.keys.rootUp = true →
         let seq := s.keys.vault.snapSeq + 1
         let slots := chunks 64 20000 (snapshotBytes seq false (validCounters s))
         ∃ t, exec (.freshnessSnapshot true) s = .next t ∧ FramedBy [.faults, .live, .vault, .flash, .endpoint, .fresh, .out] s t ∧
           ((t.keys.vault = { s.keys.vault with snapSeq := seq } ∧ t.val O.snapshotSequence = seq % 2 ^ 32 ∧
               ∃ g, t.flash.pool.getLast? = some g ∧ g.magic = snapshotMagic ∧ g.first = seq ∧ g.slots = slots.drop ((slots.length - 1) / 1023 * 1023)) ∨
             (t.keys.vault = s.keys.vault ∧ t.flash.pool = [] ∧ t.val O.snapshotFailures = (s.val O.snapshotFailures + 1) % 2 ^ 32)))))

/-- R326, R328, R331, R332, R350: Cursor and Advance move the journal's cursor, never before the oldest record present; SealNow and the commit timer
put every numbered record into flash, unless every segment of the pool is worn; and an AttestRequest, its Handle little-endian, leaves its statement,
or finds NO_KEY, or TAMPERED at the instant of an alarm (the model's choice of that instant: log entry 173). -/
def Obligations.TallyAndAttestationComplete : Prop :=
  ∀ (s : State) (ch : Channel),
    (∀ v < 2 ^ 64, Writable ch O.cursor (leBytes 8 v) s →
      Does (.cursor ch v) ch [.tally] s fun u => u.tally = { s.tally with cursor := max v (oldestPresent s) }) ∧
    (∀ q n, q < 256 → n < 65536 → NewSequence ch O.advance q s → Writable ch O.advance (leBytes 2 n) s →
      Does (.advance ch q n) ch [.tally] s fun u => u.tally = { s.tally with cursor := max (cursorNow s + n) (oldestPresent s) }) ∧
    (tallyRuns s = true → flashRuns s = true →
      let due := s.tally.recs.filter fun r => decide (s.tally.inFlash ≤ r.seq)
      let held : State → Prop := fun u => u.tally.recs = s.tally.recs ∧ u.tally.next = s.tally.next ∧
        (due = [] → u.tally.inFlash = s.tally.inFlash) ∧ ∀ r rest, due = r :: rest → u.flash.pool = [] ∨ u.tally.inFlash = r.seq + 1
      (due = [] → exec .tallyCommit s = .next s) ∧
      (∃ t, exec .tallyCommit s = .next t ∧ FramedBy [.faults, .live, .flash, .tally, .endpoint, .scratch, .integ, .fresh, .out] s t ∧ held t ∧
        ∀ r rest, due = r :: rest → (r.seq + 1) % 4096 ≠ 0 → t.flash.pool = [] ∨ ∃ g ∈ t.flash.pool, r.bytes ∈ g.slots) ∧
      (∀ q < 256, NewSequence ch O.sealNow q s → Writable ch O.sealNow [1#8] s →
        Does (.sealNow ch q) ch [.faults, .live, .flash, .tally, .endpoint, .scratch, .integ, .fresh, .out] s fun u => held u ∧
          (0 < s.tally.next → s.keys.rootUp = true → u.val O.latestSeal % 2 ^ 32 = 0x4C455354 ∨ u.flash.pool = []))) ∧
    (∀ q v, NewSequence ch O.attestRequest (BitVec.toNat q) s → Writable ch O.attestRequest v s →
      (attestKey (u8 v 0) (le v 2 2) s = none →
        Refuses (.attestRequest ch (q :: v)) ch 0x08000022 (if s.tamper.alarmAt = s.clock.wall + 1 then 0x2D10 else 0x2C10) s) ∧
      (∀ type usage origin key, attestKey (u8 v 0) (le v 2 2) s = some (type, usage, origin, key) →
        Does (.attestRequest ch (q :: v)) ch [.live, .fresh] s fun u => ∃ sig, u.val O.attestStatement = leNat (
          (beBytes 4 0x42415454 ++ beBytes 1 1 ++ beBytes 1 (u8 v 0) ++ beBytes 2 (le v 2 2) ++ beBytes 1 type ++ beBytes 1 usage ++
           beBytes 1 origin ++ beBytes 1 1 ++ uidBytes ++ slice v 4 16 ++ sha256 (ascii "KY88 KEYID" ++ key) ++ beBytes 8 (timebase s) ++
           beBytes 1 (epochNow s) ++ zeros 7) ++ sig)))

/-- R336–R342: an alarm of an armed source is latched with its time and destroys the keys, and with the core up locks the device and raises TAMPER;
an alarm of another source only shows; a source leaves alarm; and the causes are cleared once they are journalled and gone. R345–R348, Table 15-6: a
response that verifies, its opening journalled and sealed in flash, opens Jack with the keys destroyed and the next epoch fuse burned, or raises
JACK_FUSE where the fuse fails; where the record or its seal does not reach flash Jack stays closed and nothing is cleared (that the write is answered
as accepted is the model's choice: log entry 174); one that does not verify is counted; the nonce is drawn anew after either, and at its time; and
Jack-Open serves memory, the Marionettes' halt and the trace. The places of bytes within a space are the model's choice (log entry 166). -/
def Obligations.TamperAndJackComplete : Prop :=
  (∀ (s : State) (n : Nat), n < 13 →
     (armed s n = true → ∃ t, exec (.tamperAlarm n) s = .next t ∧ t.tamper.cause = s.tamper.cause ||| 2 ^ n ∧
       t.tamper.active = s.tamper.active ||| 2 ^ n ∧ t.tamper.first = (if s.tamper.cause = 0 then n else s.tamper.first) ∧
       t.tamper.rtcTime = (if s.tamper.cause = 0 then rtcNow s else s.tamper.rtcTime) ∧ t.keys.slots = [] ∧ t.keys.vault.entries = [] ∧
       (s.power.core = true → t.keys.root = 2 ∧ t.keys.rootUp = false ∧ t.keys.closed = true ∧ t.keys.barred = true ∧ bit t.modes.locked 0 = true ∧
         faultActive 0x0151 t = true)) ∧
     (armed s n = false → exec (.tamperAlarm n) s = .next { s with tamper := { s.tamper with active := s.tamper.active ||| 2 ^ n } }) ∧
     (∃ t, exec (.tamperSourceCleared n) s = .next t ∧ FramedBy [.tamper] s t ∧ t.tamper = { s.tamper with active := t.tamper.active } ∧
       bit t.tamper.active n = false ∧ ∀ j, j ≠ n → bit t.tamper.active j = bit s.tamper.active j) ∧
     (∀ ch q, q < 256 → NewSequence ch O.tamperClear q s → Writable ch O.tamperClear [1#8] s →
       (tamperClearable s = true → Does (.tamperClear ch q) ch [.faults, .live, .tamper, .endpoint, .out] s fun u =>
         u.tamper = { s.tamper with cause := 0, first := 0xFF, rtcTime := 0, numbered := 0 } ∧ faultActive 0x0151 u = false ∧
           u.modes.locked = s.modes.locked) ∧
       (tamperClearable s = false → Refuses (.tamperClear ch q) ch 0x08000022 0x2D01 s))) ∧
  (∀ s : State,
     (∀ (q : Byte) v ok, NewSequence .can O.jackResponse q.toNat s → Writable .can O.jackResponse v s →
       let i := Instr.jackResponse .can (q :: v) ok
       let sealed := (commitAndSeal (journal 0x0021 (beBytes 1 (u8 v 0) ++ beBytes 1 (epochNow s + 1)) (drowseTrigger (drawFresh s).2))).1
       (epochNow s < 16 → jackAuth v s = true → sealed = true → ∃ t, exec i s = .next t ∧ t.jack.opened = (s.jack.opened || ok) ∧
         t.keys.fuses = s.keys.fuses + b2n ok ∧ t.keys.root = 2 ∧ t.keys.rootUp = false ∧ t.keys.slots = [] ∧ t.keys.vault.entries = [] ∧
         bit t.modes.locked 4 = true ∧ t.jack.drawn = s.clock.wall ∧ (ok = false → faultActive 0x0152 t = true) ∧
         (ok = true → s.modes.fillEnded = true → s.modes.halted = false → t.modes.mode = 0x0B)) ∧
       (epochNow s < 16 → jackAuth v s = true → sealed = false → ∃ t, exec i s = .next t ∧ t.jack.opened = s.jack.opened ∧
         t.keys.fuses = s.keys.fuses ∧ t.keys.root = s.keys.root ∧ t.keys.rootUp = s.keys.rootUp ∧ t.keys.slots = s.keys.slots ∧
         t.keys.vault.entries = s.keys.vault.entries ∧ t.modes.locked = s.modes.locked ∧ t.jack.drawn = s.clock.wall) ∧
       ((16 ≤ epochNow s ∨ jackAuth v s = false) → ∃ t b, exec i s = .next t ∧ FramedBy [.live, .dict, .jack, .fresh, .out] s t ∧
         t.val O.jackRejections = (s.val O.jackRejections + 1) % 2 ^ 32 ∧ t.jack.drawn = s.clock.wall ∧ t.jack.opened = s.jack.opened ∧
         t.out = .answer .can b (if 16 ≤ epochNow s then 0x2D04 else 0x2D03) [] :: s.out)) ∧
     (s.power.core = true → s.modes.rootDone = true → s.jack.drawn + 60000000000 ≤ s.clock.wall → ∃ t, exec .jackNonceRedraw s = .next t ∧
       FramedBy [.jack, .fresh] s t ∧ t.jack = { s.jack with nonce := t.jack.nonce, drawn := s.clock.wall }) ∧
     (∀ ch v, Writable ch O.jackMemoryRequest v s → Does (.jackMemoryRequest ch v) ch [.live, .jack, .fresh] s fun u =>
       u.jack.memory.length = le v 12 4 ∧ u.val O.jackMemoryRequest = leNat v ∧
         (u8 v 0 = 1 → ∀ i < le v 12 4, u.jack.memory.getD i 0 =
           BitVec.ofNat 8 (readGranule s ((le v 4 8 + i) / 16) / 256 ^ ((le v 4 8 + i) % 16))) ∧
         (u8 v 0 = 2 → ∀ i < le v 12 4, u.jack.memory.getD i 0 =
           BitVec.ofNat 8 (onChipImage s ((le v 4 8 + i) / 32) / 256 ^ ((le v 4 8 + i) % 32))) ∧
         (u8 v 0 = 3 → ∀ i < le v 12 4, u.jack.memory.getD i 0 =
           BitVec.ofNat 8 (furrowWord s ((le v 4 8 + i) / 8) / 256 ^ ((le v 4 8 + i) % 8))) ∧
         (u8 v 0 = 4 → ∀ i < le v 12 4, u.jack.memory.getD i 0 =
           BitVec.ofNat 8 ((slotAt s ((le v 4 8 + i) / 52)).shadow.toNat / 256 ^ (51 - (le v 4 8 + i) % 52))) ∧
         (u8 v 0 = 5 → ∀ i < le v 12 4, le v 4 8 + i < 0x40000 → u.jack.memory.getD i 0 =
           BitVec.ofNat 8 (SMap.get 0 s.results.verdict ((le v 4 8 + i) / 16) / 256 ^ ((le v 4 8 + i) % 16))) ∧
         (u8 v 0 = 7 → ∀ i < le v 12 4, u.jack.memory.getD i 0 = s.scratch.mem.read (le v 4 8 + i)) ∧
         (u8 v 0 = 8 → ∀ i < le v 12 4, ∀ b, lpddrByte s (le v 4 8 + i) = some b → u.jack.memory.getD i 0 = b)) ∧
     (∀ ch v, v < 256 → Writable ch O.marionetteHalt (leBytes 1 v) s → Does (.marionetteHalt ch v) ch [.live] s fun u =>
       u.val O.marionetteHalt = v ∧ ∀ k, k ≠ O.marionetteHalt → u.val k = s.val k) ∧
     (∀ ch v, v < 2 ^ 32 → Writable ch O.traceControl (leBytes 4 v) s → Does (.traceControl ch v) ch [.live] s fun u =>
       u.val O.traceControl = v ∧ ∀ k, k ≠ O.traceControl → u.val k = s.val k))

/-! ## Sluice (R351–R366) -/

/-- R353–R356, R358, R362: an event of a wake pin, of a network-management hit, or of a wake timer reaches the PNs of its source; a HostRequest wakes
the PNs of its 1 bits and releases those of its 0 bits; a hit that is pending comes before what a pin or an acknowledgement does in its tick. A level
pin holds while it is active; a timer that is not periodic stops. R353, R354, R359: a level pin's release and the end of a SourceHold release every PN
of the source; and SourceMaskClear lifts the masks of one source, or of all. R359: a source that holds a PN beyond its MaxAwake, and every source that
holds a PN beyond its own, is masked for it and holds it no more; it is counted. R16 (log entry 122): while K9 has lost its reference no event acts, and
what the core asks of Sluice is held, in order, until it is back. -/
def Obligations.WakeSourcesActOnTheirPns : Prop :=
  (∀ s : State, sluiceRuns s = true →
     let event : State → Instr → Nat → (State → Prop) → Prop := fun w i src extra => ∃ t, exec i s = .next t ∧ FramedBy [.wakes, .live, .sluice] s t ∧
       extra t ∧ ∀ p < 64, if bit (sluiceObj s (O.sourcePns src)) p = true then Woken src p w t
         else pnOf t p = pnOf w p ∧ bit (holdsOf t src) p = bit (holdsOf w src) p
     (∀ pin < 8, event (takeHits s) (.wakePinActive pin) pin fun t => t.sluice.pins = s.sluice.pins ||| 2 ^ pin ∧ t.sluice.hits = 0) ∧
     (∀ src, 16 ≤ src → src < 128 →
       (bit s.sluice.hits src = true → event s (.wakeHit src) src fun t => t.sluice.hits = clearBit s.sluice.hits src) ∧
       (s.sluice.hits = 2 ^ src → exec (.wakeHit src) s = .next (takeHits s)) ∧
       (bit s.sluice.hits src = false → exec (.wakeHit src) s = .next s)) ∧
     (∀ i < 4,
       (bit s.sluice.timers i = true → event s (.wakeTimer i) (9 + i) fun t => t.sluice.timers =
         if bit (sluiceObj s (O.wakeTimer i)) 30 = true then s.sluice.timers else clearBit s.sluice.timers i) ∧
       (bit s.sluice.timers i = false → exec (.wakeTimer i) s = .next s)) ∧
     (∀ ch v, v < 2 ^ 64 → Writable ch O.hostRequest (leBytes 8 v) s → Does (.hostRequest ch v) ch [.wakes, .live, .sluice] s fun u =>
       u.val O.hostRequest = v ∧ ∀ p < 64, if bit v p = true then Woken 8 p s u else Released 8 p s u)) ∧
  (∀ s : State, sluiceRuns s = true →
     let w := takeHits s
     (∀ pin < 8, ∃ t, exec (.wakePinRelease pin) s = .next t ∧ FramedBy [.wakes, .live, .sluice] s t ∧ t.sluice.pins = clearBit s.sluice.pins pin ∧
       ∀ p < 64, if levelMode s pin = true then Released pin p w t else pnOf t p = pnOf w p ∧ bit (holdsOf t pin) p = bit (holdsOf w pin) p) ∧
     (∀ src < 128,
       (levelMode s src = false → src ≠ 8 → ∃ t, exec (.sourceHoldExpired src) s = .next t ∧ FramedBy [.wakes, .live, .sluice] s t ∧
         ∀ p < 64, Released src p w t) ∧
       ((levelMode s src = true ∨ src = 8) → exec (.sourceHoldExpired src) s = .next w)) ∧
     (∀ ch v, v < 256 → Writable ch O.sourceMaskClear (leBytes 1 v) s → Does (.sourceMaskClear ch v) ch [.sluice] s fun u =>
       (∀ src < 128, maskOf u src = if v = 0xFF ∨ src = v then 0 else maskOf s src) ∧ u.sluice.pns = s.sluice.pns ∧ u.sluice.holds = s.sluice.holds)) ∧
  (∀ s : State, sluiceRuns s = false →
     (∀ pin < 8, exec (.wakePinActive pin) s = .next s ∧ exec (.wakePinRelease pin) s = .next s) ∧
     (∀ src, 16 ≤ src → src < 128 → exec (.wakeHit src) s = .next s) ∧ (∀ i < 4, exec (.wakeTimer i) s = .next s) ∧
     (∀ src < 128, exec (.sourceHoldExpired src) s = .next s) ∧
     (∀ ch v, v < 2 ^ 64 → Writable ch O.hostRequest (leBytes 8 v) s → Does (.hostRequest ch v) ch [.live, .sluice] s fun u =>
       u.val O.hostRequest = v ∧ u.sluice = { s.sluice with waiting := s.sluice.waiting ++ [(O.hostRequest, v)] }) ∧
     (∀ ch v, v < 2 ^ 64 → Writable ch O.sleepAck (leBytes 8 v) s → Does (.sleepAck ch v) ch [.sluice] s fun u =>
       u.sluice = { s.sluice with waiting := s.sluice.waiting ++ [(O.sleepAck, v)] }) ∧
     (∀ ch v, v < 256 → Writable ch O.sourceMaskClear (leBytes 1 v) s → Does (.sourceMaskClear ch v) ch [.sluice] s fun u =>
       u.sluice = { s.sluice with waiting := s.sluice.waiting ++ [(O.sourceMaskClear, v)] })) ∧
  (∀ (s : State) (p : Nat), p < 64 → pnAlwaysOn s p = false → sluiceRuns s = true →
     (∀ src < 128, bit (holdsOf s src) p = true → ∃ t, exec (.sourceMaxAwake src p) s = .next t ∧
       FramedBy [.live, .vault, .tally, .sluice, .endpoint, .out] s t ∧ maskOf t src = maskOf s src ||| 2 ^ p ∧ Released src p s t ∧
       (∀ j, j ≠ src → maskOf t j = maskOf s j ∧ holdsOf t j = holdsOf s j) ∧ t.val O.overruns = (s.val O.overruns + 1) % 2 ^ 32) ∧
     (∀ src < 128, bit (holdsOf s src) p = false → exec (.sourceMaxAwake src p) s = .next s) ∧
     (pnDefined s p = true → (pnOf s p).state ≠ 1 → ∃ t, exec (.pnMaxAwake p) s = .next t ∧
       FramedBy [.live, .vault, .tally, .sluice, .endpoint, .out] s t ∧ (∀ src ∈ holders s p, bit (maskOf t src) p = true ∧ bit (holdsOf t src) p = false) ∧
       ∀ q, q ≠ p → pnOf t q = pnOf s q))

/-- R352, R356–R358, R361, Table 16-5: a PN's timers move it on: Waking settles after its last line, Awake-Hold goes to Prepare with vector 18, and on
to Commit in Halt; Prepare goes to Commit by the acknowledgement or, counted, by its timeout, unless a hit pending in that tick wakes the PN; Commit
drives its first line at once and ends with its last, which lifts the PN's masks; Waking and Commit drive one gate line at each step, in ascending and
in descending order, with AwakeHigh and OpenDrain at its pin; and a wake latched in Commit wakes the PN again. All while K9 has its reference (R16). -/
def Obligations.PnTimersComplete : Prop :=
  ∀ (s : State) (p : Nat), p < 64 → sluiceRuns s = true →
    let w := takeHits s
    let r := pnOf w p
    let only : State → Prop := fun t => ∀ q, q ≠ p → pnOf t q = pnOf w q
    let drives : State → List Nat → Nat → Prop := fun t ls level =>
      ∀ j, SMap.get 0 t.sluice.gates j = if ls.head? = some j then level else SMap.get 0 w.sluice.gates j
    let unmasked : State → Prop := fun t => (pnOf t p).state = 1 →
      t.sluice.masks = SMap.mapListed 0 (fun _ m => clearBit m p) w.sluice.masks ∧ ∀ src, bit (maskOf t src) p = false
    let commits : State → Prop := fun t => only t ∧ drives t (linesLeft w p 2).reverse 2 ∧ unmasked t ∧
      pnOf t p = (if 1 < (linesLeft w p 2).length then { r with state := 6, latched := false }
        else { r with state := 1, latched := false, rewake := false })
    (r.state = 2 → linesLeft w p 1 = [] → ∃ t, exec (.wakeSettleExpired p) s = .next t ∧ FramedBy [.wakes, .live, .sluice] s t ∧ only t ∧
      pnOf t p = { r with state := if holders w p = [] ∧ pnAlwaysOn s p = false then 4 else 3 }) ∧
    ((r.state ≠ 2 ∨ linesLeft w p 1 ≠ []) → exec (.wakeSettleExpired p) s = .next w) ∧
    (r.state = 4 → s.modes.halted = false → s.power.core = true → ∃ t, exec (.holdTimeExpired p) s = .next t ∧
      FramedBy [.wakes, .live, .sluice, .endpoint, .out] s t ∧ only t ∧ pnOf t p = { r with state := 5 } ∧
      (vectorOpen 18 s = true → t.out = .msix 18 :: s.out)) ∧
    (r.state = 4 → s.modes.halted = true → ∃ t, exec (.holdTimeExpired p) s = .next t ∧ FramedBy [.wakes, .live, .sluice, .endpoint, .out] s t ∧
      commits t) ∧
    (r.state ≠ 4 → exec (.holdTimeExpired p) s = .next w) ∧
    (r.state = 5 → ∃ t, exec (.ackTimeoutExpired p) s = .next t ∧ FramedBy [.wakes, .live, .sluice] s t ∧ commits t ∧
      t.val O.failSafeCommits = (s.val O.failSafeCommits + 1) % 2 ^ 32) ∧
    (r.state ≠ 5 → exec (.ackTimeoutExpired p) s = .next w) ∧
    (∀ l rest, r.state = 2 → linesLeft w p 1 = l :: rest → ∃ t, exec (.gateStepExpired p) s = .next t ∧ FramedBy [.wakes, .live, .sluice] s t ∧
      only t ∧ pnOf t p = r ∧ drives t [l] 1 ∧
      gatePin t l = (if bit (sluiceObj s (O.gateLineConfig l)) 0 = false then 1 else if bit (sluiceObj s (O.gateLineConfig l)) 1 = true then 3 else 2)) ∧
    (∀ l rest, r.state = 6 → (linesLeft w p 2).reverse = l :: rest → ∃ t, exec (.gateStepExpired p) s = .next t ∧
      FramedBy [.wakes, .live, .sluice] s t ∧ only t ∧ drives t [l] 2 ∧ unmasked t ∧
      pnOf t p = (if rest = [] then { r with state := 1, latched := false, rewake := r.latched } else r) ∧
      gatePin t l = (if bit (sluiceObj s (O.gateLineConfig l)) 0 = true then 1 else if bit (sluiceObj s (O.gateLineConfig l)) 1 = true then 3 else 2)) ∧
    (let r := pnOf s p
     r.state = 1 → r.rewake = true → ∃ t, exec (.latchedRewake p) s = .next t ∧ FramedBy [.wakes, .live, .sluice] s t ∧
      (∀ q, q ≠ p → pnOf t q = pnOf s q) ∧ pnOf t p = { r with state := 2, latched := false, rewake := false } ∧ t.sluice.entry = 0 ∧
      (∀ l rest, linesLeft s p 1 = l :: rest → SMap.get 0 t.sluice.gates l = 1) ∧ t.obj O.lastWakeSource = r.waker ∧
      (t.sluice.pwrHold = true ∨ t.sluice.wakeWaits = true) ∧ t.val O.latchedRewakes = (s.val O.latchedRewakes + 1) % 2 ^ 32 ∧
      t.val (O.pnWakeCount p) = (s.val (O.pnWakeCount p) + 1) % 2 ^ 32) ∧
    (∀ ch v, v < 2 ^ 64 → Writable ch O.sleepAck (leBytes 8 v) s → Does (.sleepAck ch v) ch [.wakes, .live, .sluice] s fun u =>
      (∀ q < 64, if bit v q = true ∧ (pnOf w q).state = 5 then
          pnOf u q = { pnOf w q with state := 6, latched := false } ∨ pnOf u q = { pnOf w q with state := 1, latched := false, rewake := false }
        else pnOf u q = pnOf w q) ∧
      (v = 2 ^ p → r.state = 5 → commits u) ∧
      let stale := ((bitList 64 v).filter fun q => (pnOf w q).state != 5).length
      u.val O.staleAcks = if stale = 0 then s.val O.staleAcks else (s.val O.staleAcks + stale) % 2 ^ 32)

/-! ## Rows that stand alone -/

/-- Each row of a start, of a pair's timers, of the mailbox and the endpoint, and of the care of the memories is executed where its rule lets it be,
and leaves its mark: a stage of the start is reached (R311, R292, R396, R394, R395); a message of the pair leaves, Culvert is down or up, and a
secondary takes its primary's count (R367, R368, R378, R379); a mailbox read is answered, a peak cleared, a vector armed again, the endpoint is reset
or comes up, and a BAR0 read is answered (R33, R45, R52, R53, R195, R425); a lap goes on, or goes to Top, a merge entry retires, a correction is
counted, and a retest ends (R291, R297, R299, R300, R303). -/
def Obligations.RowsOfStartPairHostAndCareComplete : Prop :=
  (∀ s : State, s.power.core = true → s.modes.halted = false → bit s.modes.refLost 5 = false →
     (∀ ok, s.modes.rootDone = false → ∃ t, exec (.rootReconstructed ok) s = .next t ∧ t.modes.rootDone = true) ∧
     (s.modes.fillDone = false → ∃ t, exec .onChipFillDone s = .next t ∧ t.modes.fillDone = true) ∧
     (∀ x, s.modes.fillDone = true → s.modes.rootDone = true → s.modes.ready = false → chosenSlot s = some x →
       ∃ t, exec .firmwareVerified s = .next t ∧ t.modes.ready = true) ∧
     (s.modes.ready = true → s.modes.fillEnded = false → ∃ t, exec .fillEnd s = .next t ∧ t.modes.fillEnded = true) ∧
     (s.modes.fillEnded = true → bit s.modes.classReady 0 = false → ∃ t, exec .classAReady s = .next t ∧ bit t.modes.classReady 0 = true) ∧
     (bit s.modes.classReady 0 = true → bit s.modes.classReady 1 = false → ∃ t, exec .classBReady s = .next t ∧ bit t.modes.classReady 1 = true)) ∧
  (∀ s : State,
     (pairState s = 1 → culvertUp s = true → ∃ t o, exec .helloTimer s = .next t ∧ t.out = o :: s.out) ∧
     (pairedAs 1 s = true → culvertUp s = true → ∃ t o, exec .timeTimer s = .next t ∧ t.out = o :: s.out) ∧
     (∀ d, pairedAs 1 s = true → culvertUp s = true → s.pair.digests.find? (fun x => x.1 == s.pair.doneSeq) = some d →
       ∃ t, exec .stateDigestTimer s = .next t ∧ s.out.length < t.out.length) ∧
     (s.val O.culvertLinkState ≠ 0 → pairState s ≠ 2 → ∃ t, exec .culvertLost s = .next t ∧ t.val O.culvertLinkState = 4) ∧
     (s.power.core = true → s.val O.culvertLinkState ≠ 0 → culvertUp s = false → s.modes.halted = false → bit s.modes.refLost 1 = false →
       ∃ t, exec .culvertUp s = .next t ∧ t.val O.culvertLinkState = 2) ∧
     (∀ t1 t2, pairedAs 2 s = true → ∃ t, exec (.time t1 t2 0 0) s = .next t ∧ t.clock.tickAdj = (t2 : Int) - elapsed s)) ∧
  (∀ s : State, Sound s →
     (∀ v, let b := Memory.readBytes s.mailbox.request 0 4096
       let q := requestOf b
       served .pcie s = true → s.mailbox.busy = false → requestOk b q = true → q.op = 1 → readChecked q.index q.sub q.offset s = .inr v →
       ∃ t, exec .mailboxDoorbell s = .next t ∧
         Memory.readBytes t.mailbox.response 0 (responseBytes q ⟨0, 0, 0, v.length, (v.drop q.offset).take (min q.length 4072)⟩).length =
           responseBytes q ⟨0, 0, 0, v.length, (v.drop q.offset).take (min q.length 4072)⟩) ∧
     (∀ ch i u v, i < 65536 → u < 256 → served ch s = true → readChecked i u 0 s = .inr v → v.length ≤ 65536 → clearedByReading (objKey i u) = true →
       ∃ t, exec (.peakReadClear ch i u) s = .next t ∧ t.val (objKey i u) = 0) ∧
     (∀ ch n v, n < 64 → served ch s = true → readChecked (O.lastFailedKey n / 256) (O.lastFailedKey n % 256) 0 s = .inr v → v.length ≤ 65536 →
       ∃ t, exec (.lastFailedKeyRead ch n) s = .next t ∧ bit t.buckets.disarmed n = false) ∧
     (s.power.core = true → ∃ t, exec .pcieConventionalReset s = .next t ∧ t.host.canSend = false ∧ t.host.msixOn = false) ∧
     (∀ speed width master msix, 1 ≤ speed → speed ≤ 4 → (width = 1 ∨ width = 2 ∨ width = 4) → s.power.core = true → bit s.modes.refLost 3 = false →
       ∃ t, exec (.pcieLinkUp speed ⟨width, master, msix⟩) s = .next t ∧ t.host.canSend = master ∧ t.host.msixOn = msix) ∧
     (∀ acc : BarAccess, endpointPowered s = true → acc.write = false → acc.offset + acc.size ≤ 0x10000 →
       exec (.bar0RegisterWrite acc) s = .next { s with out := .pcie 0 (barRead s acc.offset acc.size) :: s.out })) ∧
  (∀ (s : State) (g : Nat), g < 18 → Sound s → scrubbable s g = true →
     (regionUnits s g ≠ 0 → (s.obj (O.scrubMode g) = 0 ∨ (scrubOf s g).topFinishes = true) → ∃ t, exec (.topScrubVisit g .clean) s = .next t ∧
       (scrubOf t g).pos = (if (scrubOf s g).pos + 1 < regionUnits s g then (scrubOf s g).pos + 1 else 0)) ∧
     (regionUnits s g ≠ 0 → s.obj (O.scrubMode g) = 1 → yoyoAllowed g = true → (scrubOf s g).topFinishes = false →
       ∃ t, exec (.yoyoScrub g .clean) s = .next t ∧
         (scrubOf t g).pos = (if (scrubOf s g).pos + 1 < regionUnits s g then (scrubOf s g).pos + 1 else 0)) ∧
     (s.obj (O.scrubMode g) = 1 → (scrubOf s g).topFinishes = false →
       ∃ t, exec (.yoyoLapTimeout g) s = .next t ∧ (scrubOf t g).topFinishes = true) ∧
     (∀ bank word e, bank < 64 → mergeOf s bank word = some e →
       ∃ t, exec (.mergeEntryRetire bank word) s = .next t ∧ t.integ.merge = s.integ.merge.erase e) ∧
     (∀ w, unitOf g w < 8192 → g ≠ 0x0F → g ≠ 9 → ∃ t, exec (.outOfTurnScrub g w .clean) s = .next t ∧
       t.val (O.corrections g) = (s.val (O.corrections g) + 1) % 2 ^ 32) ∧
     (∀ w hard, (w, 1) ∈ (scrubOf s g).weak → (g = 8 → hard = true → wordMarked s w = false) → ∃ t st, exec (.weakWordRetest g w hard) s = .next t ∧ st ≠ 1 ∧ (w, st) ∈ (scrubOf t g).weak))
end

