-- ==== Sys2Proof/Laws/Sparse.lean ====
section
/-! SUPPORT. What the operations of `SMap` and `Memory` do: a read after a write, and the canonical form kept. -/

namespace Sys2Proof.Machine

variable {α : Type}

/-! ### Reads after writes -/

@[simp] theorem SMap.get_nil (d : α) (k : Nat) : SMap.get d [] k = d := rfl

@[simp] theorem SMap.get_cons (d : α) (k k' : Nat) (v : α) (m : SMap α) :
    SMap.get d ((k', v) :: m) k = if k = k' then v else SMap.get d m k := rfl

theorem SMap.get_insert (d : α) (m : SMap α) (k j : Nat) (v : α) :
    SMap.get d (SMap.insert m k v) j = if j = k then v else SMap.get d m j := by
  induction m with
  | nil => rfl
  | cons e m ih =>
    obtain ⟨k', v'⟩ := e
    simp only [SMap.insert]
    by_cases h1 : k = k'
    · subst h1; by_cases h3 : j = k <;> simp [h3]
    · by_cases h2 : k < k'
      · by_cases h3 : j = k <;> simp [h1, h2, h3]
      · by_cases h4 : j = k'
        · subst h4; simp [h1, h2, Ne.symm h1]
        · simp [h1, h2, h4, ih]

theorem SMap.get_erase (d : α) (m : SMap α) (k j : Nat) :
    SMap.get d (SMap.erase m k) j = if j = k then d else SMap.get d m j := by
  induction m with
  | nil => simp [SMap.erase]
  | cons e m ih =>
    obtain ⟨k', v'⟩ := e
    by_cases h1 : k = k' <;> by_cases h2 : j = k <;> by_cases h3 : j = k' <;> simp_all [SMap.erase]

/-- A read after a write of one key: the value written there, and what was there elsewhere. -/
@[simp] theorem SMap.get_set [DecidableEq α] (d : α) (m : SMap α) (k j : Nat) (v : α) :
    SMap.get d (SMap.set d m k v) j = if j = k then v else SMap.get d m j := by
  by_cases h : v = d
  · subst h; simp only [SMap.set, if_true]; exact SMap.get_erase _ _ _ _
  · simp only [SMap.set, h, if_false]; exact SMap.get_insert _ _ _ _ _

/-- One byte after one byte is written. -/
theorem Memory.read_write (m : Memory) (a b : Nat) (v : Byte) :
    (m.write a v).read b = if b = a then v else m.read b := SMap.get_set _ _ _ _ _

theorem SMap.get_append (d : α) (m n : SMap α) (k : Nat) (h : ∀ e ∈ m, e.1 ≠ k) : SMap.get d (m ++ n) k = SMap.get d n k := by
  induction m with
  | nil => rfl
  | cons e m ih =>
    have he := h e List.mem_cons_self
    obtain ⟨k', v⟩ := e
    simp only [List.cons_append, SMap.get_cons]
    rw [if_neg fun x => he x.symm]
    exact ih fun e m => h e (List.mem_cons_of_mem _ m)

theorem SMap.get_append_left (d : α) (m n : SMap α) (k : Nat) (h : ∀ e ∈ n, e.1 ≠ k) : SMap.get d (m ++ n) k = SMap.get d m k := by
  induction m with
  | nil =>
    induction n with
    | nil => rfl
    | cons e n ih =>
      have he := h e List.mem_cons_self
      obtain ⟨k', v⟩ := e
      simp only [List.nil_append, SMap.get_cons, SMap.get_nil] at ih ⊢
      rw [if_neg fun x => he x.symm]
      exact ih fun e m => h e (List.mem_cons_of_mem _ m)
  | cons e m ih =>
    obtain ⟨k', v⟩ := e
    simp only [List.cons_append, SMap.get_cons, ih]

theorem SMap.get_filter (d : α) (m : SMap α) (p : Nat → Bool) (k : Nat) (h : p k = true) :
    SMap.get d (m.filter fun e => p e.1) k = SMap.get d m k := by
  induction m with
  | nil => rfl
  | cons e m ih =>
    obtain ⟨k', v⟩ := e
    by_cases hk : k = k'
    · subst hk; simp [h]
    · by_cases hp : p k' = true <;> simp [hp, hk, ih]

theorem Memory.cells_key (a : Nat) (bs : Bytes) : ∀ e ∈ Memory.cells a bs, a ≤ e.1 ∧ e.1 < a + bs.length := by
  induction bs generalizing a with
  | nil => simp [Memory.cells]
  | cons b bs ih =>
    intro e he
    simp only [Memory.cells] at he
    have hl : (b :: bs).length = bs.length + 1 := rfl
    split at he
    · have := ih _ e he; omega
    · rcases List.mem_cons.mp he with rfl | he
      · exact ⟨Nat.le_refl _, by rw [hl]; omega⟩
      · have := ih _ e he; omega

theorem Memory.get_cells (a : Nat) (bs : Bytes) (i : Nat) (h : i < bs.length) : SMap.get (0 : Byte) (Memory.cells a bs) (a + i) = bs[i] := by
  induction bs generalizing a i with
  | nil => exact absurd h (Nat.not_lt_zero _)
  | cons b bs ih =>
    have hl : (b :: bs).length = bs.length + 1 := rfl
    simp only [Memory.cells]
    cases i with
    | zero =>
      simp only [Nat.add_zero, List.getElem_cons_zero]
      split
      · rename_i hb
        rw [← List.append_nil (Memory.cells (a + 1) bs), SMap.get_append]
        · exact hb.symm
        · intro e he; have := Memory.cells_key _ _ e he; omega
      · simp
    | succ i =>
      have := ih (a + 1) i (by omega)
      rw [show a + 1 + i = a + (i + 1) by omega] at this
      split
      · simpa using this
      · simpa [SMap.get_cons, show a + (i + 1) ≠ a by omega] using this

theorem Memory.key_below {m : Memory} {a : Nat} {e : Host.Cell} (h : e ∈ m.filter fun e => decide (e.1 < a)) : e.1 < a := by
  simpa using (List.mem_filter.mp h).2

theorem Memory.key_above {m : Memory} {a : Nat} {e : Host.Cell} (h : e ∈ m.filter fun e => decide (a ≤ e.1)) : a ≤ e.1 := by
  simpa using (List.mem_filter.mp h).2

/-- One byte after a byte string is written: the string's own bytes, and what was there outside it. -/
theorem Memory.read_writeBytes (m : Memory) (a : Nat) (bs : Bytes) (b : Nat) :
    (m.writeBytes a bs).read b = if h : a ≤ b ∧ b < a + bs.length then bs[b - a]'(by omega) else m.read b := by
  unfold Memory.read Memory.writeBytes
  split
  · rename_i h
    have hi : b - a < bs.length := by omega
    have hx : SMap.get (0 : Byte) (Memory.cells a bs) b = bs[b - a] := by
      have := Memory.get_cells a bs (b - a) hi
      rwa [show a + (b - a) = b by omega] at this
    rw [SMap.get_append _ _ _ _ fun e he => by have := Memory.key_below he; omega,
      SMap.get_append_left _ _ _ _ fun e he => by have := Memory.key_above he; omega, hx]
  · rename_i h
    by_cases hb : b < a
    · rw [SMap.get_append_left]
      · exact SMap.get_filter _ m (fun k => decide (k < a)) b (by simpa using hb)
      · intro e he
        rcases List.mem_append.mp he with he | he
        · have := Memory.cells_key _ _ e he; omega
        · have := Memory.key_above he; omega
    · rw [SMap.get_append _ _ _ _ fun e he => by have := Memory.key_below he; omega,
        SMap.get_append _ _ _ _ fun e he => by have := Memory.cells_key _ _ e he; omega]
      exact SMap.get_filter _ m (fun k => decide (a + bs.length ≤ k)) b (by simp; omega)

/-! ### The canonical form -/

variable [DecidableEq α]

theorem SMap.wfFrom_cons (d : α) (lo k : Nat) (v : α) (m : SMap α) :
    SMap.wfFrom d lo ((k, v) :: m) = true ↔ lo ≤ k ∧ v ≠ d ∧ SMap.wfFrom d (k + 1) m = true := by
  simp [SMap.wfFrom, and_assoc]

theorem SMap.wfFrom_mono {d : α} {lo lo' : Nat} {m : SMap α} (h : SMap.wfFrom d lo m = true) (hl : lo' ≤ lo) :
    SMap.wfFrom d lo' m = true := by
  cases m with
  | nil => rfl
  | cons e m =>
    obtain ⟨k, v⟩ := e
    rw [SMap.wfFrom_cons] at *
    exact ⟨by omega, h.2⟩

theorem SMap.wfFrom_insert {d : α} {lo k : Nat} {v : α} {m : SMap α} (h : SMap.wfFrom d lo m = true) (hk : lo ≤ k) (hv : v ≠ d) :
    SMap.wfFrom d lo (SMap.insert m k v) = true := by
  induction m generalizing lo with
  | nil => simp [SMap.insert, SMap.wfFrom, hk, hv]
  | cons e m ih =>
    obtain ⟨k', v'⟩ := e
    rw [SMap.wfFrom_cons] at h
    simp only [SMap.insert]
    split
    · subst_vars; rw [SMap.wfFrom_cons]; exact ⟨hk, hv, h.2.2⟩
    · split
      · rw [SMap.wfFrom_cons, SMap.wfFrom_cons]; exact ⟨hk, hv, by omega, h.2.1, h.2.2⟩
      · rw [SMap.wfFrom_cons]; exact ⟨h.1, h.2.1, ih h.2.2 (by omega)⟩

theorem SMap.wfFrom_erase {d : α} {lo k : Nat} {m : SMap α} (h : SMap.wfFrom d lo m = true) : SMap.wfFrom d lo (SMap.erase m k) = true := by
  induction m generalizing lo with
  | nil => rfl
  | cons e m ih =>
    obtain ⟨k', v'⟩ := e
    rw [SMap.wfFrom_cons] at h
    simp only [SMap.erase]
    split
    · exact SMap.wfFrom_mono (ih h.2.2) (by omega)
    · rw [SMap.wfFrom_cons]; exact ⟨h.1, h.2.1, ih h.2.2⟩

/-- Writing one key keeps the canonical form. -/
theorem SMap.wf_set {d : α} {m : SMap α} (k : Nat) (v : α) (h : SMap.wf d m = true) : SMap.wf d (SMap.set d m k v) = true := by
  unfold SMap.set
  split
  · exact SMap.wfFrom_erase h
  · exact SMap.wfFrom_insert h (Nat.zero_le _) ‹_›

theorem SMap.wfFrom_filter {d : α} {lo : Nat} {m : SMap α} (p : Nat × α → Bool) (h : SMap.wfFrom d lo m = true) :
    SMap.wfFrom d lo (m.filter p) = true := by
  induction m generalizing lo with
  | nil => rfl
  | cons e m ih =>
    obtain ⟨k', v'⟩ := e
    rw [SMap.wfFrom_cons] at h
    rw [List.filter_cons]
    split
    · rw [SMap.wfFrom_cons]; exact ⟨h.1, h.2.1, ih h.2.2⟩
    · exact SMap.wfFrom_mono (ih h.2.2) (by omega)

theorem SMap.wfFrom_append {d : α} {lo mid : Nat} {m n : SMap α} (h : SMap.wfFrom d lo m = true) (g : SMap.wfFrom d mid n = true)
    (hl : lo ≤ mid) (hm : ∀ e ∈ m, e.1 < mid) : SMap.wfFrom d lo (m ++ n) = true := by
  induction m generalizing lo with
  | nil => exact SMap.wfFrom_mono g hl
  | cons e m ih =>
    obtain ⟨k', v'⟩ := e
    rw [SMap.wfFrom_cons] at h
    rw [List.cons_append, SMap.wfFrom_cons]
    have := hm _ List.mem_cons_self
    exact ⟨h.1, h.2.1, ih h.2.2 this fun e he => hm e (List.mem_cons_of_mem _ he)⟩

theorem SMap.wfFrom_lift {d : α} {lo a : Nat} {m : SMap α} (h : SMap.wfFrom d lo m = true) (hm : ∀ e ∈ m, a ≤ e.1) :
    SMap.wfFrom d a m = true := by
  cases m with
  | nil => rfl
  | cons e m =>
    obtain ⟨k', v'⟩ := e
    rw [SMap.wfFrom_cons] at *
    exact ⟨hm _ List.mem_cons_self, h.2⟩

omit [DecidableEq α] in
theorem Memory.wf_cells (a : Nat) (bs : Bytes) : SMap.wfFrom (0 : Byte) a (Memory.cells a bs) = true := by
  induction bs generalizing a with
  | nil => rfl
  | cons b bs ih =>
    simp only [Memory.cells]
    split
    · exact SMap.wfFrom_mono (ih _) (by omega)
    · rw [SMap.wfFrom_cons]; exact ⟨Nat.le_refl _, ‹_›, ih _⟩

omit [DecidableEq α] in

/-- Writing one byte keeps the canonical form. -/
theorem Memory.wf_write {m : Memory} (a : Nat) (v : Byte) (h : m.wf = true) : (m.write a v).wf = true := SMap.wf_set a v h

omit [DecidableEq α] in

/-- Writing a byte string keeps the canonical form. -/
theorem Memory.wf_writeBytes {m : Memory} (a : Nat) (bs : Bytes) (h : m.wf = true) : (m.writeBytes a bs).wf = true := by
  unfold Memory.writeBytes Memory.wf SMap.wf
  refine SMap.wfFrom_append (mid := a) (SMap.wfFrom_filter _ h) ?_ (Nat.zero_le _) fun e he => Memory.key_below he
  refine SMap.wfFrom_append (mid := a + bs.length) (Memory.wf_cells a bs) ?_ (Nat.le_add_right _ _) fun e he => (Memory.cells_key _ _ e he).2
  exact SMap.wfFrom_lift (SMap.wfFrom_filter _ h) fun e he => Memory.key_above he

end Sys2Proof.Machine
end

