-- ==== Sys2Proof/Laws/State.lean ====
section
/-! SUPPORT. One lemma for each field of the state and each update of it, so that no proof unfolds a record update; and what a live object, a
ring and a list of keys read as after a write. -/

set_option linter.unusedVariables false
namespace Sys2Proof.Machine

@[simp] theorem State.put_clock (s : State) (k v : Nat) : (s.put k v).clock = s.clock := rfl
@[simp] theorem State.put_power (s : State) (k v : Nat) : (s.put k v).power = s.power := rfl
@[simp] theorem State.put_modes (s : State) (k v : Nat) : (s.put k v).modes = s.modes := rfl
@[simp] theorem State.put_mailbox (s : State) (k v : Nat) : (s.put k v).mailbox = s.mailbox := rfl
@[simp] theorem State.put_can (s : State) (k v : Nat) : (s.put k v).can = s.can := rfl
@[simp] theorem State.put_keys (s : State) (k v : Nat) : (s.put k v).keys = s.keys := rfl
@[simp] theorem State.put_flash (s : State) (k v : Nat) : (s.put k v).flash = s.flash := rfl
@[simp] theorem State.put_tally (s : State) (k v : Nat) : (s.put k v).tally = s.tally := rfl
@[simp] theorem State.put_tamper (s : State) (k v : Nat) : (s.put k v).tamper = s.tamper := rfl
@[simp] theorem State.put_jack (s : State) (k v : Nat) : (s.put k v).jack = s.jack := rfl
@[simp] theorem State.put_sluice (s : State) (k v : Nat) : (s.put k v).sluice = s.sluice := rfl
@[simp] theorem State.put_host (s : State) (k v : Nat) : (s.put k v).host = s.host := rfl
@[simp] theorem State.put_scratch (s : State) (k v : Nat) : (s.put k v).scratch = s.scratch := rfl
@[simp] theorem State.put_integ (s : State) (k v : Nat) : (s.put k v).integ = s.integ := rfl
@[simp] theorem State.put_coh (s : State) (k v : Nat) : (s.put k v).coh = s.coh := rfl
@[simp] theorem State.put_results (s : State) (k v : Nat) : (s.put k v).results = s.results := rfl
@[simp] theorem State.put_buckets (s : State) (k v : Nat) : (s.put k v).buckets = s.buckets := rfl
@[simp] theorem State.put_tcam (s : State) (k v : Nat) : (s.put k v).tcam = s.tcam := rfl
@[simp] theorem State.put_furrow (s : State) (k v : Nat) : (s.put k v).furrow = s.furrow := rfl
@[simp] theorem State.put_headgate (s : State) (k v : Nat) : (s.put k v).headgate = s.headgate := rfl
@[simp] theorem State.put_pair (s : State) (k v : Nat) : (s.put k v).pair = s.pair := rfl
@[simp] theorem State.put_chain (s : State) (k v : Nat) : (s.put k v).chain = s.chain := rfl
@[simp] theorem State.put_pending (s : State) (k v : Nat) : (s.put k v).pending = s.pending := rfl
@[simp] theorem State.put_fresh (s : State) (k v : Nat) : (s.put k v).fresh = s.fresh := rfl
@[simp] theorem State.put_out (s : State) (k v : Nat) : (s.put k v).out = s.out := rfl

@[simp] theorem State.setObj_clock (s : State) (k v : Nat) : (s.setObj k v).clock = s.clock := rfl
@[simp] theorem State.setObj_power (s : State) (k v : Nat) : (s.setObj k v).power = s.power := rfl
@[simp] theorem State.setObj_modes (s : State) (k v : Nat) : (s.setObj k v).modes = s.modes := rfl
@[simp] theorem State.setObj_mailbox (s : State) (k v : Nat) : (s.setObj k v).mailbox = s.mailbox := rfl
@[simp] theorem State.setObj_can (s : State) (k v : Nat) : (s.setObj k v).can = s.can := rfl
@[simp] theorem State.setObj_keys (s : State) (k v : Nat) : (s.setObj k v).keys = s.keys := rfl
@[simp] theorem State.setObj_flash (s : State) (k v : Nat) : (s.setObj k v).flash = s.flash := rfl
@[simp] theorem State.setObj_tally (s : State) (k v : Nat) : (s.setObj k v).tally = s.tally := rfl
@[simp] theorem State.setObj_tamper (s : State) (k v : Nat) : (s.setObj k v).tamper = s.tamper := rfl
@[simp] theorem State.setObj_jack (s : State) (k v : Nat) : (s.setObj k v).jack = s.jack := rfl
@[simp] theorem State.setObj_sluice (s : State) (k v : Nat) : (s.setObj k v).sluice = s.sluice := rfl
@[simp] theorem State.setObj_host (s : State) (k v : Nat) : (s.setObj k v).host = s.host := rfl
@[simp] theorem State.setObj_scratch (s : State) (k v : Nat) : (s.setObj k v).scratch = s.scratch := rfl
@[simp] theorem State.setObj_integ (s : State) (k v : Nat) : (s.setObj k v).integ = s.integ := rfl
@[simp] theorem State.setObj_coh (s : State) (k v : Nat) : (s.setObj k v).coh = s.coh := rfl
@[simp] theorem State.setObj_results (s : State) (k v : Nat) : (s.setObj k v).results = s.results := rfl
@[simp] theorem State.setObj_buckets (s : State) (k v : Nat) : (s.setObj k v).buckets = s.buckets := rfl
@[simp] theorem State.setObj_tcam (s : State) (k v : Nat) : (s.setObj k v).tcam = s.tcam := rfl
@[simp] theorem State.setObj_furrow (s : State) (k v : Nat) : (s.setObj k v).furrow = s.furrow := rfl
@[simp] theorem State.setObj_headgate (s : State) (k v : Nat) : (s.setObj k v).headgate = s.headgate := rfl
@[simp] theorem State.setObj_pair (s : State) (k v : Nat) : (s.setObj k v).pair = s.pair := rfl
@[simp] theorem State.setObj_chain (s : State) (k v : Nat) : (s.setObj k v).chain = s.chain := rfl
@[simp] theorem State.setObj_pending (s : State) (k v : Nat) : (s.setObj k v).pending = s.pending := rfl
@[simp] theorem State.setObj_fresh (s : State) (k v : Nat) : (s.setObj k v).fresh = s.fresh := rfl
@[simp] theorem State.setObj_out (s : State) (k v : Nat) : (s.setObj k v).out = s.out := rfl

@[simp] theorem State.bumpBy_clock (s : State) (k n : Nat) : (s.bumpBy k n).clock = s.clock := rfl
@[simp] theorem State.bumpBy_power (s : State) (k n : Nat) : (s.bumpBy k n).power = s.power := rfl
@[simp] theorem State.bumpBy_modes (s : State) (k n : Nat) : (s.bumpBy k n).modes = s.modes := rfl
@[simp] theorem State.bumpBy_mailbox (s : State) (k n : Nat) : (s.bumpBy k n).mailbox = s.mailbox := rfl
@[simp] theorem State.bumpBy_can (s : State) (k n : Nat) : (s.bumpBy k n).can = s.can := rfl
@[simp] theorem State.bumpBy_keys (s : State) (k n : Nat) : (s.bumpBy k n).keys = s.keys := rfl
@[simp] theorem State.bumpBy_flash (s : State) (k n : Nat) : (s.bumpBy k n).flash = s.flash := rfl
@[simp] theorem State.bumpBy_tally (s : State) (k n : Nat) : (s.bumpBy k n).tally = s.tally := rfl
@[simp] theorem State.bumpBy_tamper (s : State) (k n : Nat) : (s.bumpBy k n).tamper = s.tamper := rfl
@[simp] theorem State.bumpBy_jack (s : State) (k n : Nat) : (s.bumpBy k n).jack = s.jack := rfl
@[simp] theorem State.bumpBy_sluice (s : State) (k n : Nat) : (s.bumpBy k n).sluice = s.sluice := rfl
@[simp] theorem State.bumpBy_host (s : State) (k n : Nat) : (s.bumpBy k n).host = s.host := rfl
@[simp] theorem State.bumpBy_scratch (s : State) (k n : Nat) : (s.bumpBy k n).scratch = s.scratch := rfl
@[simp] theorem State.bumpBy_integ (s : State) (k n : Nat) : (s.bumpBy k n).integ = s.integ := rfl
@[simp] theorem State.bumpBy_coh (s : State) (k n : Nat) : (s.bumpBy k n).coh = s.coh := rfl
@[simp] theorem State.bumpBy_results (s : State) (k n : Nat) : (s.bumpBy k n).results = s.results := rfl
@[simp] theorem State.bumpBy_buckets (s : State) (k n : Nat) : (s.bumpBy k n).buckets = s.buckets := rfl
@[simp] theorem State.bumpBy_tcam (s : State) (k n : Nat) : (s.bumpBy k n).tcam = s.tcam := rfl
@[simp] theorem State.bumpBy_furrow (s : State) (k n : Nat) : (s.bumpBy k n).furrow = s.furrow := rfl
@[simp] theorem State.bumpBy_headgate (s : State) (k n : Nat) : (s.bumpBy k n).headgate = s.headgate := rfl
@[simp] theorem State.bumpBy_pair (s : State) (k n : Nat) : (s.bumpBy k n).pair = s.pair := rfl
@[simp] theorem State.bumpBy_chain (s : State) (k n : Nat) : (s.bumpBy k n).chain = s.chain := rfl
@[simp] theorem State.bumpBy_pending (s : State) (k n : Nat) : (s.bumpBy k n).pending = s.pending := rfl
@[simp] theorem State.bumpBy_fresh (s : State) (k n : Nat) : (s.bumpBy k n).fresh = s.fresh := rfl
@[simp] theorem State.bumpBy_out (s : State) (k n : Nat) : (s.bumpBy k n).out = s.out := rfl

@[simp] theorem State.bump_clock (s : State) (k : Nat) : (s.bump k).clock = s.clock := rfl
@[simp] theorem State.bump_power (s : State) (k : Nat) : (s.bump k).power = s.power := rfl
@[simp] theorem State.bump_modes (s : State) (k : Nat) : (s.bump k).modes = s.modes := rfl
@[simp] theorem State.bump_mailbox (s : State) (k : Nat) : (s.bump k).mailbox = s.mailbox := rfl
@[simp] theorem State.bump_can (s : State) (k : Nat) : (s.bump k).can = s.can := rfl
@[simp] theorem State.bump_keys (s : State) (k : Nat) : (s.bump k).keys = s.keys := rfl
@[simp] theorem State.bump_flash (s : State) (k : Nat) : (s.bump k).flash = s.flash := rfl
@[simp] theorem State.bump_tally (s : State) (k : Nat) : (s.bump k).tally = s.tally := rfl
@[simp] theorem State.bump_tamper (s : State) (k : Nat) : (s.bump k).tamper = s.tamper := rfl
@[simp] theorem State.bump_jack (s : State) (k : Nat) : (s.bump k).jack = s.jack := rfl
@[simp] theorem State.bump_sluice (s : State) (k : Nat) : (s.bump k).sluice = s.sluice := rfl
@[simp] theorem State.bump_host (s : State) (k : Nat) : (s.bump k).host = s.host := rfl
@[simp] theorem State.bump_scratch (s : State) (k : Nat) : (s.bump k).scratch = s.scratch := rfl
@[simp] theorem State.bump_integ (s : State) (k : Nat) : (s.bump k).integ = s.integ := rfl
@[simp] theorem State.bump_coh (s : State) (k : Nat) : (s.bump k).coh = s.coh := rfl
@[simp] theorem State.bump_results (s : State) (k : Nat) : (s.bump k).results = s.results := rfl
@[simp] theorem State.bump_buckets (s : State) (k : Nat) : (s.bump k).buckets = s.buckets := rfl
@[simp] theorem State.bump_tcam (s : State) (k : Nat) : (s.bump k).tcam = s.tcam := rfl
@[simp] theorem State.bump_furrow (s : State) (k : Nat) : (s.bump k).furrow = s.furrow := rfl
@[simp] theorem State.bump_headgate (s : State) (k : Nat) : (s.bump k).headgate = s.headgate := rfl
@[simp] theorem State.bump_pair (s : State) (k : Nat) : (s.bump k).pair = s.pair := rfl
@[simp] theorem State.bump_chain (s : State) (k : Nat) : (s.bump k).chain = s.chain := rfl
@[simp] theorem State.bump_pending (s : State) (k : Nat) : (s.bump k).pending = s.pending := rfl
@[simp] theorem State.bump_fresh (s : State) (k : Nat) : (s.bump k).fresh = s.fresh := rfl
@[simp] theorem State.bump_out (s : State) (k : Nat) : (s.bump k).out = s.out := rfl

@[simp] theorem State.peak_clock (s : State) (k v : Nat) : (s.peak k v).clock = s.clock := rfl
@[simp] theorem State.peak_power (s : State) (k v : Nat) : (s.peak k v).power = s.power := rfl
@[simp] theorem State.peak_modes (s : State) (k v : Nat) : (s.peak k v).modes = s.modes := rfl
@[simp] theorem State.peak_mailbox (s : State) (k v : Nat) : (s.peak k v).mailbox = s.mailbox := rfl
@[simp] theorem State.peak_can (s : State) (k v : Nat) : (s.peak k v).can = s.can := rfl
@[simp] theorem State.peak_keys (s : State) (k v : Nat) : (s.peak k v).keys = s.keys := rfl
@[simp] theorem State.peak_flash (s : State) (k v : Nat) : (s.peak k v).flash = s.flash := rfl
@[simp] theorem State.peak_tally (s : State) (k v : Nat) : (s.peak k v).tally = s.tally := rfl
@[simp] theorem State.peak_tamper (s : State) (k v : Nat) : (s.peak k v).tamper = s.tamper := rfl
@[simp] theorem State.peak_jack (s : State) (k v : Nat) : (s.peak k v).jack = s.jack := rfl
@[simp] theorem State.peak_sluice (s : State) (k v : Nat) : (s.peak k v).sluice = s.sluice := rfl
@[simp] theorem State.peak_host (s : State) (k v : Nat) : (s.peak k v).host = s.host := rfl
@[simp] theorem State.peak_scratch (s : State) (k v : Nat) : (s.peak k v).scratch = s.scratch := rfl
@[simp] theorem State.peak_integ (s : State) (k v : Nat) : (s.peak k v).integ = s.integ := rfl
@[simp] theorem State.peak_coh (s : State) (k v : Nat) : (s.peak k v).coh = s.coh := rfl
@[simp] theorem State.peak_results (s : State) (k v : Nat) : (s.peak k v).results = s.results := rfl
@[simp] theorem State.peak_buckets (s : State) (k v : Nat) : (s.peak k v).buckets = s.buckets := rfl
@[simp] theorem State.peak_tcam (s : State) (k v : Nat) : (s.peak k v).tcam = s.tcam := rfl
@[simp] theorem State.peak_furrow (s : State) (k v : Nat) : (s.peak k v).furrow = s.furrow := rfl
@[simp] theorem State.peak_headgate (s : State) (k v : Nat) : (s.peak k v).headgate = s.headgate := rfl
@[simp] theorem State.peak_pair (s : State) (k v : Nat) : (s.peak k v).pair = s.pair := rfl
@[simp] theorem State.peak_chain (s : State) (k v : Nat) : (s.peak k v).chain = s.chain := rfl
@[simp] theorem State.peak_pending (s : State) (k v : Nat) : (s.peak k v).pending = s.pending := rfl
@[simp] theorem State.peak_fresh (s : State) (k v : Nat) : (s.peak k v).fresh = s.fresh := rfl
@[simp] theorem State.peak_out (s : State) (k v : Nat) : (s.peak k v).out = s.out := rfl

@[simp] theorem emit_clock (s : State) (o : Output) : (emit o s).clock = s.clock := rfl
@[simp] theorem emit_power (s : State) (o : Output) : (emit o s).power = s.power := rfl
@[simp] theorem emit_modes (s : State) (o : Output) : (emit o s).modes = s.modes := rfl
@[simp] theorem emit_dict (s : State) (o : Output) : (emit o s).dict = s.dict := rfl
@[simp] theorem emit_mailbox (s : State) (o : Output) : (emit o s).mailbox = s.mailbox := rfl
@[simp] theorem emit_can (s : State) (o : Output) : (emit o s).can = s.can := rfl
@[simp] theorem emit_keys (s : State) (o : Output) : (emit o s).keys = s.keys := rfl
@[simp] theorem emit_flash (s : State) (o : Output) : (emit o s).flash = s.flash := rfl
@[simp] theorem emit_tally (s : State) (o : Output) : (emit o s).tally = s.tally := rfl
@[simp] theorem emit_tamper (s : State) (o : Output) : (emit o s).tamper = s.tamper := rfl
@[simp] theorem emit_jack (s : State) (o : Output) : (emit o s).jack = s.jack := rfl
@[simp] theorem emit_sluice (s : State) (o : Output) : (emit o s).sluice = s.sluice := rfl
@[simp] theorem emit_host (s : State) (o : Output) : (emit o s).host = s.host := rfl
@[simp] theorem emit_scratch (s : State) (o : Output) : (emit o s).scratch = s.scratch := rfl
@[simp] theorem emit_integ (s : State) (o : Output) : (emit o s).integ = s.integ := rfl
@[simp] theorem emit_coh (s : State) (o : Output) : (emit o s).coh = s.coh := rfl
@[simp] theorem emit_results (s : State) (o : Output) : (emit o s).results = s.results := rfl
@[simp] theorem emit_buckets (s : State) (o : Output) : (emit o s).buckets = s.buckets := rfl
@[simp] theorem emit_tcam (s : State) (o : Output) : (emit o s).tcam = s.tcam := rfl
@[simp] theorem emit_furrow (s : State) (o : Output) : (emit o s).furrow = s.furrow := rfl
@[simp] theorem emit_headgate (s : State) (o : Output) : (emit o s).headgate = s.headgate := rfl
@[simp] theorem emit_pair (s : State) (o : Output) : (emit o s).pair = s.pair := rfl
@[simp] theorem emit_chain (s : State) (o : Output) : (emit o s).chain = s.chain := rfl
@[simp] theorem emit_pending (s : State) (o : Output) : (emit o s).pending = s.pending := rfl
@[simp] theorem emit_fresh (s : State) (o : Output) : (emit o s).fresh = s.fresh := rfl

@[simp] theorem onRing_clock (s : State) (r : Nat) (f : Ring → Ring) : (onRing r f s).clock = s.clock := rfl
@[simp] theorem onRing_power (s : State) (r : Nat) (f : Ring → Ring) : (onRing r f s).power = s.power := rfl
@[simp] theorem onRing_modes (s : State) (r : Nat) (f : Ring → Ring) : (onRing r f s).modes = s.modes := rfl
@[simp] theorem onRing_dict (s : State) (r : Nat) (f : Ring → Ring) : (onRing r f s).dict = s.dict := rfl
@[simp] theorem onRing_mailbox (s : State) (r : Nat) (f : Ring → Ring) : (onRing r f s).mailbox = s.mailbox := rfl
@[simp] theorem onRing_can (s : State) (r : Nat) (f : Ring → Ring) : (onRing r f s).can = s.can := rfl
@[simp] theorem onRing_keys (s : State) (r : Nat) (f : Ring → Ring) : (onRing r f s).keys = s.keys := rfl
@[simp] theorem onRing_flash (s : State) (r : Nat) (f : Ring → Ring) : (onRing r f s).flash = s.flash := rfl
@[simp] theorem onRing_tally (s : State) (r : Nat) (f : Ring → Ring) : (onRing r f s).tally = s.tally := rfl
@[simp] theorem onRing_tamper (s : State) (r : Nat) (f : Ring → Ring) : (onRing r f s).tamper = s.tamper := rfl
@[simp] theorem onRing_jack (s : State) (r : Nat) (f : Ring → Ring) : (onRing r f s).jack = s.jack := rfl
@[simp] theorem onRing_sluice (s : State) (r : Nat) (f : Ring → Ring) : (onRing r f s).sluice = s.sluice := rfl
@[simp] theorem onRing_scratch (s : State) (r : Nat) (f : Ring → Ring) : (onRing r f s).scratch = s.scratch := rfl
@[simp] theorem onRing_integ (s : State) (r : Nat) (f : Ring → Ring) : (onRing r f s).integ = s.integ := rfl
@[simp] theorem onRing_coh (s : State) (r : Nat) (f : Ring → Ring) : (onRing r f s).coh = s.coh := rfl
@[simp] theorem onRing_results (s : State) (r : Nat) (f : Ring → Ring) : (onRing r f s).results = s.results := rfl
@[simp] theorem onRing_buckets (s : State) (r : Nat) (f : Ring → Ring) : (onRing r f s).buckets = s.buckets := rfl
@[simp] theorem onRing_tcam (s : State) (r : Nat) (f : Ring → Ring) : (onRing r f s).tcam = s.tcam := rfl
@[simp] theorem onRing_furrow (s : State) (r : Nat) (f : Ring → Ring) : (onRing r f s).furrow = s.furrow := rfl
@[simp] theorem onRing_headgate (s : State) (r : Nat) (f : Ring → Ring) : (onRing r f s).headgate = s.headgate := rfl
@[simp] theorem onRing_pair (s : State) (r : Nat) (f : Ring → Ring) : (onRing r f s).pair = s.pair := rfl
@[simp] theorem onRing_chain (s : State) (r : Nat) (f : Ring → Ring) : (onRing r f s).chain = s.chain := rfl
@[simp] theorem onRing_pending (s : State) (r : Nat) (f : Ring → Ring) : (onRing r f s).pending = s.pending := rfl
@[simp] theorem onRing_fresh (s : State) (r : Nat) (f : Ring → Ring) : (onRing r f s).fresh = s.fresh := rfl
@[simp] theorem onRing_out (s : State) (r : Nat) (f : Ring → Ring) : (onRing r f s).out = s.out := rfl

@[simp] theorem onBuckets_clock (s : State) (f : Buckets → Buckets) : (onBuckets f s).clock = s.clock := rfl
@[simp] theorem onBuckets_power (s : State) (f : Buckets → Buckets) : (onBuckets f s).power = s.power := rfl
@[simp] theorem onBuckets_modes (s : State) (f : Buckets → Buckets) : (onBuckets f s).modes = s.modes := rfl
@[simp] theorem onBuckets_dict (s : State) (f : Buckets → Buckets) : (onBuckets f s).dict = s.dict := rfl
@[simp] theorem onBuckets_mailbox (s : State) (f : Buckets → Buckets) : (onBuckets f s).mailbox = s.mailbox := rfl
@[simp] theorem onBuckets_can (s : State) (f : Buckets → Buckets) : (onBuckets f s).can = s.can := rfl
@[simp] theorem onBuckets_keys (s : State) (f : Buckets → Buckets) : (onBuckets f s).keys = s.keys := rfl
@[simp] theorem onBuckets_flash (s : State) (f : Buckets → Buckets) : (onBuckets f s).flash = s.flash := rfl
@[simp] theorem onBuckets_tally (s : State) (f : Buckets → Buckets) : (onBuckets f s).tally = s.tally := rfl
@[simp] theorem onBuckets_tamper (s : State) (f : Buckets → Buckets) : (onBuckets f s).tamper = s.tamper := rfl
@[simp] theorem onBuckets_jack (s : State) (f : Buckets → Buckets) : (onBuckets f s).jack = s.jack := rfl
@[simp] theorem onBuckets_sluice (s : State) (f : Buckets → Buckets) : (onBuckets f s).sluice = s.sluice := rfl
@[simp] theorem onBuckets_host (s : State) (f : Buckets → Buckets) : (onBuckets f s).host = s.host := rfl
@[simp] theorem onBuckets_scratch (s : State) (f : Buckets → Buckets) : (onBuckets f s).scratch = s.scratch := rfl
@[simp] theorem onBuckets_integ (s : State) (f : Buckets → Buckets) : (onBuckets f s).integ = s.integ := rfl
@[simp] theorem onBuckets_coh (s : State) (f : Buckets → Buckets) : (onBuckets f s).coh = s.coh := rfl
@[simp] theorem onBuckets_results (s : State) (f : Buckets → Buckets) : (onBuckets f s).results = s.results := rfl
@[simp] theorem onBuckets_tcam (s : State) (f : Buckets → Buckets) : (onBuckets f s).tcam = s.tcam := rfl
@[simp] theorem onBuckets_furrow (s : State) (f : Buckets → Buckets) : (onBuckets f s).furrow = s.furrow := rfl
@[simp] theorem onBuckets_headgate (s : State) (f : Buckets → Buckets) : (onBuckets f s).headgate = s.headgate := rfl
@[simp] theorem onBuckets_pair (s : State) (f : Buckets → Buckets) : (onBuckets f s).pair = s.pair := rfl
@[simp] theorem onBuckets_chain (s : State) (f : Buckets → Buckets) : (onBuckets f s).chain = s.chain := rfl
@[simp] theorem onBuckets_pending (s : State) (f : Buckets → Buckets) : (onBuckets f s).pending = s.pending := rfl
@[simp] theorem onBuckets_fresh (s : State) (f : Buckets → Buckets) : (onBuckets f s).fresh = s.fresh := rfl
@[simp] theorem onBuckets_out (s : State) (f : Buckets → Buckets) : (onBuckets f s).out = s.out := rfl

@[simp] theorem onTcam_clock (s : State) (f : Tcam → Tcam) : (onTcam f s).clock = s.clock := rfl
@[simp] theorem onTcam_power (s : State) (f : Tcam → Tcam) : (onTcam f s).power = s.power := rfl
@[simp] theorem onTcam_modes (s : State) (f : Tcam → Tcam) : (onTcam f s).modes = s.modes := rfl
@[simp] theorem onTcam_dict (s : State) (f : Tcam → Tcam) : (onTcam f s).dict = s.dict := rfl
@[simp] theorem onTcam_mailbox (s : State) (f : Tcam → Tcam) : (onTcam f s).mailbox = s.mailbox := rfl
@[simp] theorem onTcam_can (s : State) (f : Tcam → Tcam) : (onTcam f s).can = s.can := rfl
@[simp] theorem onTcam_keys (s : State) (f : Tcam → Tcam) : (onTcam f s).keys = s.keys := rfl
@[simp] theorem onTcam_flash (s : State) (f : Tcam → Tcam) : (onTcam f s).flash = s.flash := rfl
@[simp] theorem onTcam_tally (s : State) (f : Tcam → Tcam) : (onTcam f s).tally = s.tally := rfl
@[simp] theorem onTcam_tamper (s : State) (f : Tcam → Tcam) : (onTcam f s).tamper = s.tamper := rfl
@[simp] theorem onTcam_jack (s : State) (f : Tcam → Tcam) : (onTcam f s).jack = s.jack := rfl
@[simp] theorem onTcam_sluice (s : State) (f : Tcam → Tcam) : (onTcam f s).sluice = s.sluice := rfl
@[simp] theorem onTcam_host (s : State) (f : Tcam → Tcam) : (onTcam f s).host = s.host := rfl
@[simp] theorem onTcam_scratch (s : State) (f : Tcam → Tcam) : (onTcam f s).scratch = s.scratch := rfl
@[simp] theorem onTcam_integ (s : State) (f : Tcam → Tcam) : (onTcam f s).integ = s.integ := rfl
@[simp] theorem onTcam_coh (s : State) (f : Tcam → Tcam) : (onTcam f s).coh = s.coh := rfl
@[simp] theorem onTcam_results (s : State) (f : Tcam → Tcam) : (onTcam f s).results = s.results := rfl
@[simp] theorem onTcam_buckets (s : State) (f : Tcam → Tcam) : (onTcam f s).buckets = s.buckets := rfl
@[simp] theorem onTcam_furrow (s : State) (f : Tcam → Tcam) : (onTcam f s).furrow = s.furrow := rfl
@[simp] theorem onTcam_headgate (s : State) (f : Tcam → Tcam) : (onTcam f s).headgate = s.headgate := rfl
@[simp] theorem onTcam_pair (s : State) (f : Tcam → Tcam) : (onTcam f s).pair = s.pair := rfl
@[simp] theorem onTcam_chain (s : State) (f : Tcam → Tcam) : (onTcam f s).chain = s.chain := rfl
@[simp] theorem onTcam_pending (s : State) (f : Tcam → Tcam) : (onTcam f s).pending = s.pending := rfl
@[simp] theorem onTcam_fresh (s : State) (f : Tcam → Tcam) : (onTcam f s).fresh = s.fresh := rfl
@[simp] theorem onTcam_out (s : State) (f : Tcam → Tcam) : (onTcam f s).out = s.out := rfl

@[simp] theorem onFurrow_clock (s : State) (f : Furrow → Furrow) : (onFurrow f s).clock = s.clock := rfl
@[simp] theorem onFurrow_power (s : State) (f : Furrow → Furrow) : (onFurrow f s).power = s.power := rfl
@[simp] theorem onFurrow_modes (s : State) (f : Furrow → Furrow) : (onFurrow f s).modes = s.modes := rfl
@[simp] theorem onFurrow_dict (s : State) (f : Furrow → Furrow) : (onFurrow f s).dict = s.dict := rfl
@[simp] theorem onFurrow_mailbox (s : State) (f : Furrow → Furrow) : (onFurrow f s).mailbox = s.mailbox := rfl
@[simp] theorem onFurrow_can (s : State) (f : Furrow → Furrow) : (onFurrow f s).can = s.can := rfl
@[simp] theorem onFurrow_keys (s : State) (f : Furrow → Furrow) : (onFurrow f s).keys = s.keys := rfl
@[simp] theorem onFurrow_flash (s : State) (f : Furrow → Furrow) : (onFurrow f s).flash = s.flash := rfl
@[simp] theorem onFurrow_tally (s : State) (f : Furrow → Furrow) : (onFurrow f s).tally = s.tally := rfl
@[simp] theorem onFurrow_tamper (s : State) (f : Furrow → Furrow) : (onFurrow f s).tamper = s.tamper := rfl
@[simp] theorem onFurrow_jack (s : State) (f : Furrow → Furrow) : (onFurrow f s).jack = s.jack := rfl
@[simp] theorem onFurrow_sluice (s : State) (f : Furrow → Furrow) : (onFurrow f s).sluice = s.sluice := rfl
@[simp] theorem onFurrow_host (s : State) (f : Furrow → Furrow) : (onFurrow f s).host = s.host := rfl
@[simp] theorem onFurrow_scratch (s : State) (f : Furrow → Furrow) : (onFurrow f s).scratch = s.scratch := rfl
@[simp] theorem onFurrow_integ (s : State) (f : Furrow → Furrow) : (onFurrow f s).integ = s.integ := rfl
@[simp] theorem onFurrow_coh (s : State) (f : Furrow → Furrow) : (onFurrow f s).coh = s.coh := rfl
@[simp] theorem onFurrow_results (s : State) (f : Furrow → Furrow) : (onFurrow f s).results = s.results := rfl
@[simp] theorem onFurrow_buckets (s : State) (f : Furrow → Furrow) : (onFurrow f s).buckets = s.buckets := rfl
@[simp] theorem onFurrow_tcam (s : State) (f : Furrow → Furrow) : (onFurrow f s).tcam = s.tcam := rfl
@[simp] theorem onFurrow_headgate (s : State) (f : Furrow → Furrow) : (onFurrow f s).headgate = s.headgate := rfl
@[simp] theorem onFurrow_pair (s : State) (f : Furrow → Furrow) : (onFurrow f s).pair = s.pair := rfl
@[simp] theorem onFurrow_chain (s : State) (f : Furrow → Furrow) : (onFurrow f s).chain = s.chain := rfl
@[simp] theorem onFurrow_pending (s : State) (f : Furrow → Furrow) : (onFurrow f s).pending = s.pending := rfl
@[simp] theorem onFurrow_fresh (s : State) (f : Furrow → Furrow) : (onFurrow f s).fresh = s.fresh := rfl
@[simp] theorem onFurrow_out (s : State) (f : Furrow → Furrow) : (onFurrow f s).out = s.out := rfl

@[simp] theorem onCan_clock (s : State) (f : Can → Can) : (onCan f s).clock = s.clock := rfl
@[simp] theorem onCan_power (s : State) (f : Can → Can) : (onCan f s).power = s.power := rfl
@[simp] theorem onCan_modes (s : State) (f : Can → Can) : (onCan f s).modes = s.modes := rfl
@[simp] theorem onCan_dict (s : State) (f : Can → Can) : (onCan f s).dict = s.dict := rfl
@[simp] theorem onCan_mailbox (s : State) (f : Can → Can) : (onCan f s).mailbox = s.mailbox := rfl
@[simp] theorem onCan_keys (s : State) (f : Can → Can) : (onCan f s).keys = s.keys := rfl
@[simp] theorem onCan_flash (s : State) (f : Can → Can) : (onCan f s).flash = s.flash := rfl
@[simp] theorem onCan_tally (s : State) (f : Can → Can) : (onCan f s).tally = s.tally := rfl
@[simp] theorem onCan_tamper (s : State) (f : Can → Can) : (onCan f s).tamper = s.tamper := rfl
@[simp] theorem onCan_jack (s : State) (f : Can → Can) : (onCan f s).jack = s.jack := rfl
@[simp] theorem onCan_sluice (s : State) (f : Can → Can) : (onCan f s).sluice = s.sluice := rfl
@[simp] theorem onCan_host (s : State) (f : Can → Can) : (onCan f s).host = s.host := rfl
@[simp] theorem onCan_scratch (s : State) (f : Can → Can) : (onCan f s).scratch = s.scratch := rfl
@[simp] theorem onCan_integ (s : State) (f : Can → Can) : (onCan f s).integ = s.integ := rfl
@[simp] theorem onCan_coh (s : State) (f : Can → Can) : (onCan f s).coh = s.coh := rfl
@[simp] theorem onCan_results (s : State) (f : Can → Can) : (onCan f s).results = s.results := rfl
@[simp] theorem onCan_buckets (s : State) (f : Can → Can) : (onCan f s).buckets = s.buckets := rfl
@[simp] theorem onCan_tcam (s : State) (f : Can → Can) : (onCan f s).tcam = s.tcam := rfl
@[simp] theorem onCan_furrow (s : State) (f : Can → Can) : (onCan f s).furrow = s.furrow := rfl
@[simp] theorem onCan_headgate (s : State) (f : Can → Can) : (onCan f s).headgate = s.headgate := rfl
@[simp] theorem onCan_pair (s : State) (f : Can → Can) : (onCan f s).pair = s.pair := rfl
@[simp] theorem onCan_chain (s : State) (f : Can → Can) : (onCan f s).chain = s.chain := rfl
@[simp] theorem onCan_pending (s : State) (f : Can → Can) : (onCan f s).pending = s.pending := rfl
@[simp] theorem onCan_fresh (s : State) (f : Can → Can) : (onCan f s).fresh = s.fresh := rfl
@[simp] theorem onCan_out (s : State) (f : Can → Can) : (onCan f s).out = s.out := rfl

@[simp] theorem onChain_clock (s : State) (f : Chain → Chain) : (onChain f s).clock = s.clock := rfl
@[simp] theorem onChain_power (s : State) (f : Chain → Chain) : (onChain f s).power = s.power := rfl
@[simp] theorem onChain_modes (s : State) (f : Chain → Chain) : (onChain f s).modes = s.modes := rfl
@[simp] theorem onChain_dict (s : State) (f : Chain → Chain) : (onChain f s).dict = s.dict := rfl
@[simp] theorem onChain_mailbox (s : State) (f : Chain → Chain) : (onChain f s).mailbox = s.mailbox := rfl
@[simp] theorem onChain_can (s : State) (f : Chain → Chain) : (onChain f s).can = s.can := rfl
@[simp] theorem onChain_keys (s : State) (f : Chain → Chain) : (onChain f s).keys = s.keys := rfl
@[simp] theorem onChain_flash (s : State) (f : Chain → Chain) : (onChain f s).flash = s.flash := rfl
@[simp] theorem onChain_tally (s : State) (f : Chain → Chain) : (onChain f s).tally = s.tally := rfl
@[simp] theorem onChain_tamper (s : State) (f : Chain → Chain) : (onChain f s).tamper = s.tamper := rfl
@[simp] theorem onChain_jack (s : State) (f : Chain → Chain) : (onChain f s).jack = s.jack := rfl
@[simp] theorem onChain_sluice (s : State) (f : Chain → Chain) : (onChain f s).sluice = s.sluice := rfl
@[simp] theorem onChain_host (s : State) (f : Chain → Chain) : (onChain f s).host = s.host := rfl
@[simp] theorem onChain_scratch (s : State) (f : Chain → Chain) : (onChain f s).scratch = s.scratch := rfl
@[simp] theorem onChain_integ (s : State) (f : Chain → Chain) : (onChain f s).integ = s.integ := rfl
@[simp] theorem onChain_coh (s : State) (f : Chain → Chain) : (onChain f s).coh = s.coh := rfl
@[simp] theorem onChain_results (s : State) (f : Chain → Chain) : (onChain f s).results = s.results := rfl
@[simp] theorem onChain_buckets (s : State) (f : Chain → Chain) : (onChain f s).buckets = s.buckets := rfl
@[simp] theorem onChain_tcam (s : State) (f : Chain → Chain) : (onChain f s).tcam = s.tcam := rfl
@[simp] theorem onChain_furrow (s : State) (f : Chain → Chain) : (onChain f s).furrow = s.furrow := rfl
@[simp] theorem onChain_headgate (s : State) (f : Chain → Chain) : (onChain f s).headgate = s.headgate := rfl
@[simp] theorem onChain_pair (s : State) (f : Chain → Chain) : (onChain f s).pair = s.pair := rfl
@[simp] theorem onChain_pending (s : State) (f : Chain → Chain) : (onChain f s).pending = s.pending := rfl
@[simp] theorem onChain_fresh (s : State) (f : Chain → Chain) : (onChain f s).fresh = s.fresh := rfl
@[simp] theorem onChain_out (s : State) (f : Chain → Chain) : (onChain f s).out = s.out := rfl

@[simp] theorem onCoh_clock (s : State) (f : Coherence → Coherence) : (onCoh f s).clock = s.clock := rfl
@[simp] theorem onCoh_power (s : State) (f : Coherence → Coherence) : (onCoh f s).power = s.power := rfl
@[simp] theorem onCoh_modes (s : State) (f : Coherence → Coherence) : (onCoh f s).modes = s.modes := rfl
@[simp] theorem onCoh_dict (s : State) (f : Coherence → Coherence) : (onCoh f s).dict = s.dict := rfl
@[simp] theorem onCoh_mailbox (s : State) (f : Coherence → Coherence) : (onCoh f s).mailbox = s.mailbox := rfl
@[simp] theorem onCoh_can (s : State) (f : Coherence → Coherence) : (onCoh f s).can = s.can := rfl
@[simp] theorem onCoh_keys (s : State) (f : Coherence → Coherence) : (onCoh f s).keys = s.keys := rfl
@[simp] theorem onCoh_flash (s : State) (f : Coherence → Coherence) : (onCoh f s).flash = s.flash := rfl
@[simp] theorem onCoh_tally (s : State) (f : Coherence → Coherence) : (onCoh f s).tally = s.tally := rfl
@[simp] theorem onCoh_tamper (s : State) (f : Coherence → Coherence) : (onCoh f s).tamper = s.tamper := rfl
@[simp] theorem onCoh_jack (s : State) (f : Coherence → Coherence) : (onCoh f s).jack = s.jack := rfl
@[simp] theorem onCoh_sluice (s : State) (f : Coherence → Coherence) : (onCoh f s).sluice = s.sluice := rfl
@[simp] theorem onCoh_host (s : State) (f : Coherence → Coherence) : (onCoh f s).host = s.host := rfl
@[simp] theorem onCoh_scratch (s : State) (f : Coherence → Coherence) : (onCoh f s).scratch = s.scratch := rfl
@[simp] theorem onCoh_integ (s : State) (f : Coherence → Coherence) : (onCoh f s).integ = s.integ := rfl
@[simp] theorem onCoh_results (s : State) (f : Coherence → Coherence) : (onCoh f s).results = s.results := rfl
@[simp] theorem onCoh_buckets (s : State) (f : Coherence → Coherence) : (onCoh f s).buckets = s.buckets := rfl
@[simp] theorem onCoh_tcam (s : State) (f : Coherence → Coherence) : (onCoh f s).tcam = s.tcam := rfl
@[simp] theorem onCoh_furrow (s : State) (f : Coherence → Coherence) : (onCoh f s).furrow = s.furrow := rfl
@[simp] theorem onCoh_headgate (s : State) (f : Coherence → Coherence) : (onCoh f s).headgate = s.headgate := rfl
@[simp] theorem onCoh_pair (s : State) (f : Coherence → Coherence) : (onCoh f s).pair = s.pair := rfl
@[simp] theorem onCoh_chain (s : State) (f : Coherence → Coherence) : (onCoh f s).chain = s.chain := rfl
@[simp] theorem onCoh_pending (s : State) (f : Coherence → Coherence) : (onCoh f s).pending = s.pending := rfl
@[simp] theorem onCoh_fresh (s : State) (f : Coherence → Coherence) : (onCoh f s).fresh = s.fresh := rfl
@[simp] theorem onCoh_out (s : State) (f : Coherence → Coherence) : (onCoh f s).out = s.out := rfl

@[simp] theorem onPair_clock (s : State) (f : Pair → Pair) : (onPair f s).clock = s.clock := rfl
@[simp] theorem onPair_power (s : State) (f : Pair → Pair) : (onPair f s).power = s.power := rfl
@[simp] theorem onPair_modes (s : State) (f : Pair → Pair) : (onPair f s).modes = s.modes := rfl
@[simp] theorem onPair_dict (s : State) (f : Pair → Pair) : (onPair f s).dict = s.dict := rfl
@[simp] theorem onPair_mailbox (s : State) (f : Pair → Pair) : (onPair f s).mailbox = s.mailbox := rfl
@[simp] theorem onPair_can (s : State) (f : Pair → Pair) : (onPair f s).can = s.can := rfl
@[simp] theorem onPair_keys (s : State) (f : Pair → Pair) : (onPair f s).keys = s.keys := rfl
@[simp] theorem onPair_flash (s : State) (f : Pair → Pair) : (onPair f s).flash = s.flash := rfl
@[simp] theorem onPair_tally (s : State) (f : Pair → Pair) : (onPair f s).tally = s.tally := rfl
@[simp] theorem onPair_tamper (s : State) (f : Pair → Pair) : (onPair f s).tamper = s.tamper := rfl
@[simp] theorem onPair_jack (s : State) (f : Pair → Pair) : (onPair f s).jack = s.jack := rfl
@[simp] theorem onPair_sluice (s : State) (f : Pair → Pair) : (onPair f s).sluice = s.sluice := rfl
@[simp] theorem onPair_host (s : State) (f : Pair → Pair) : (onPair f s).host = s.host := rfl
@[simp] theorem onPair_scratch (s : State) (f : Pair → Pair) : (onPair f s).scratch = s.scratch := rfl
@[simp] theorem onPair_integ (s : State) (f : Pair → Pair) : (onPair f s).integ = s.integ := rfl
@[simp] theorem onPair_coh (s : State) (f : Pair → Pair) : (onPair f s).coh = s.coh := rfl
@[simp] theorem onPair_results (s : State) (f : Pair → Pair) : (onPair f s).results = s.results := rfl
@[simp] theorem onPair_buckets (s : State) (f : Pair → Pair) : (onPair f s).buckets = s.buckets := rfl
@[simp] theorem onPair_tcam (s : State) (f : Pair → Pair) : (onPair f s).tcam = s.tcam := rfl
@[simp] theorem onPair_furrow (s : State) (f : Pair → Pair) : (onPair f s).furrow = s.furrow := rfl
@[simp] theorem onPair_headgate (s : State) (f : Pair → Pair) : (onPair f s).headgate = s.headgate := rfl
@[simp] theorem onPair_chain (s : State) (f : Pair → Pair) : (onPair f s).chain = s.chain := rfl
@[simp] theorem onPair_pending (s : State) (f : Pair → Pair) : (onPair f s).pending = s.pending := rfl
@[simp] theorem onPair_fresh (s : State) (f : Pair → Pair) : (onPair f s).fresh = s.fresh := rfl
@[simp] theorem onPair_out (s : State) (f : Pair → Pair) : (onPair f s).out = s.out := rfl

@[simp] theorem onKeys_clock (s : State) (f : Keys → Keys) : (onKeys f s).clock = s.clock := rfl
@[simp] theorem onKeys_power (s : State) (f : Keys → Keys) : (onKeys f s).power = s.power := rfl
@[simp] theorem onKeys_modes (s : State) (f : Keys → Keys) : (onKeys f s).modes = s.modes := rfl
@[simp] theorem onKeys_dict (s : State) (f : Keys → Keys) : (onKeys f s).dict = s.dict := rfl
@[simp] theorem onKeys_mailbox (s : State) (f : Keys → Keys) : (onKeys f s).mailbox = s.mailbox := rfl
@[simp] theorem onKeys_can (s : State) (f : Keys → Keys) : (onKeys f s).can = s.can := rfl
@[simp] theorem onKeys_flash (s : State) (f : Keys → Keys) : (onKeys f s).flash = s.flash := rfl
@[simp] theorem onKeys_tally (s : State) (f : Keys → Keys) : (onKeys f s).tally = s.tally := rfl
@[simp] theorem onKeys_tamper (s : State) (f : Keys → Keys) : (onKeys f s).tamper = s.tamper := rfl
@[simp] theorem onKeys_jack (s : State) (f : Keys → Keys) : (onKeys f s).jack = s.jack := rfl
@[simp] theorem onKeys_sluice (s : State) (f : Keys → Keys) : (onKeys f s).sluice = s.sluice := rfl
@[simp] theorem onKeys_host (s : State) (f : Keys → Keys) : (onKeys f s).host = s.host := rfl
@[simp] theorem onKeys_scratch (s : State) (f : Keys → Keys) : (onKeys f s).scratch = s.scratch := rfl
@[simp] theorem onKeys_integ (s : State) (f : Keys → Keys) : (onKeys f s).integ = s.integ := rfl
@[simp] theorem onKeys_coh (s : State) (f : Keys → Keys) : (onKeys f s).coh = s.coh := rfl
@[simp] theorem onKeys_results (s : State) (f : Keys → Keys) : (onKeys f s).results = s.results := rfl
@[simp] theorem onKeys_buckets (s : State) (f : Keys → Keys) : (onKeys f s).buckets = s.buckets := rfl
@[simp] theorem onKeys_tcam (s : State) (f : Keys → Keys) : (onKeys f s).tcam = s.tcam := rfl
@[simp] theorem onKeys_furrow (s : State) (f : Keys → Keys) : (onKeys f s).furrow = s.furrow := rfl
@[simp] theorem onKeys_headgate (s : State) (f : Keys → Keys) : (onKeys f s).headgate = s.headgate := rfl
@[simp] theorem onKeys_pair (s : State) (f : Keys → Keys) : (onKeys f s).pair = s.pair := rfl
@[simp] theorem onKeys_chain (s : State) (f : Keys → Keys) : (onKeys f s).chain = s.chain := rfl
@[simp] theorem onKeys_pending (s : State) (f : Keys → Keys) : (onKeys f s).pending = s.pending := rfl
@[simp] theorem onKeys_fresh (s : State) (f : Keys → Keys) : (onKeys f s).fresh = s.fresh := rfl
@[simp] theorem onKeys_out (s : State) (f : Keys → Keys) : (onKeys f s).out = s.out := rfl

@[simp] theorem onLink_clock (s : State) (m : Nat) (f : Link → Link) : (onLink m f s).clock = s.clock := rfl
@[simp] theorem onLink_power (s : State) (m : Nat) (f : Link → Link) : (onLink m f s).power = s.power := rfl
@[simp] theorem onLink_modes (s : State) (m : Nat) (f : Link → Link) : (onLink m f s).modes = s.modes := rfl
@[simp] theorem onLink_dict (s : State) (m : Nat) (f : Link → Link) : (onLink m f s).dict = s.dict := rfl
@[simp] theorem onLink_mailbox (s : State) (m : Nat) (f : Link → Link) : (onLink m f s).mailbox = s.mailbox := rfl
@[simp] theorem onLink_can (s : State) (m : Nat) (f : Link → Link) : (onLink m f s).can = s.can := rfl
@[simp] theorem onLink_keys (s : State) (m : Nat) (f : Link → Link) : (onLink m f s).keys = s.keys := rfl
@[simp] theorem onLink_flash (s : State) (m : Nat) (f : Link → Link) : (onLink m f s).flash = s.flash := rfl
@[simp] theorem onLink_tally (s : State) (m : Nat) (f : Link → Link) : (onLink m f s).tally = s.tally := rfl
@[simp] theorem onLink_tamper (s : State) (m : Nat) (f : Link → Link) : (onLink m f s).tamper = s.tamper := rfl
@[simp] theorem onLink_jack (s : State) (m : Nat) (f : Link → Link) : (onLink m f s).jack = s.jack := rfl
@[simp] theorem onLink_sluice (s : State) (m : Nat) (f : Link → Link) : (onLink m f s).sluice = s.sluice := rfl
@[simp] theorem onLink_host (s : State) (m : Nat) (f : Link → Link) : (onLink m f s).host = s.host := rfl
@[simp] theorem onLink_scratch (s : State) (m : Nat) (f : Link → Link) : (onLink m f s).scratch = s.scratch := rfl
@[simp] theorem onLink_integ (s : State) (m : Nat) (f : Link → Link) : (onLink m f s).integ = s.integ := rfl
@[simp] theorem onLink_coh (s : State) (m : Nat) (f : Link → Link) : (onLink m f s).coh = s.coh := rfl
@[simp] theorem onLink_results (s : State) (m : Nat) (f : Link → Link) : (onLink m f s).results = s.results := rfl
@[simp] theorem onLink_buckets (s : State) (m : Nat) (f : Link → Link) : (onLink m f s).buckets = s.buckets := rfl
@[simp] theorem onLink_tcam (s : State) (m : Nat) (f : Link → Link) : (onLink m f s).tcam = s.tcam := rfl
@[simp] theorem onLink_furrow (s : State) (m : Nat) (f : Link → Link) : (onLink m f s).furrow = s.furrow := rfl
@[simp] theorem onLink_pair (s : State) (m : Nat) (f : Link → Link) : (onLink m f s).pair = s.pair := rfl
@[simp] theorem onLink_chain (s : State) (m : Nat) (f : Link → Link) : (onLink m f s).chain = s.chain := rfl
@[simp] theorem onLink_pending (s : State) (m : Nat) (f : Link → Link) : (onLink m f s).pending = s.pending := rfl
@[simp] theorem onLink_fresh (s : State) (m : Nat) (f : Link → Link) : (onLink m f s).fresh = s.fresh := rfl
@[simp] theorem onLink_out (s : State) (m : Nat) (f : Link → Link) : (onLink m f s).out = s.out := rfl

@[simp] theorem onInteg_clock (s : State) (f : Integrity → Integrity) : (onInteg f s).clock = s.clock := rfl
@[simp] theorem onInteg_power (s : State) (f : Integrity → Integrity) : (onInteg f s).power = s.power := rfl
@[simp] theorem onInteg_modes (s : State) (f : Integrity → Integrity) : (onInteg f s).modes = s.modes := rfl
@[simp] theorem onInteg_dict (s : State) (f : Integrity → Integrity) : (onInteg f s).dict = s.dict := rfl
@[simp] theorem onInteg_mailbox (s : State) (f : Integrity → Integrity) : (onInteg f s).mailbox = s.mailbox := rfl
@[simp] theorem onInteg_can (s : State) (f : Integrity → Integrity) : (onInteg f s).can = s.can := rfl
@[simp] theorem onInteg_keys (s : State) (f : Integrity → Integrity) : (onInteg f s).keys = s.keys := rfl
@[simp] theorem onInteg_flash (s : State) (f : Integrity → Integrity) : (onInteg f s).flash = s.flash := rfl
@[simp] theorem onInteg_tally (s : State) (f : Integrity → Integrity) : (onInteg f s).tally = s.tally := rfl
@[simp] theorem onInteg_tamper (s : State) (f : Integrity → Integrity) : (onInteg f s).tamper = s.tamper := rfl
@[simp] theorem onInteg_jack (s : State) (f : Integrity → Integrity) : (onInteg f s).jack = s.jack := rfl
@[simp] theorem onInteg_sluice (s : State) (f : Integrity → Integrity) : (onInteg f s).sluice = s.sluice := rfl
@[simp] theorem onInteg_host (s : State) (f : Integrity → Integrity) : (onInteg f s).host = s.host := rfl
@[simp] theorem onInteg_scratch (s : State) (f : Integrity → Integrity) : (onInteg f s).scratch = s.scratch := rfl
@[simp] theorem onInteg_coh (s : State) (f : Integrity → Integrity) : (onInteg f s).coh = s.coh := rfl
@[simp] theorem onInteg_results (s : State) (f : Integrity → Integrity) : (onInteg f s).results = s.results := rfl
@[simp] theorem onInteg_buckets (s : State) (f : Integrity → Integrity) : (onInteg f s).buckets = s.buckets := rfl
@[simp] theorem onInteg_tcam (s : State) (f : Integrity → Integrity) : (onInteg f s).tcam = s.tcam := rfl
@[simp] theorem onInteg_furrow (s : State) (f : Integrity → Integrity) : (onInteg f s).furrow = s.furrow := rfl
@[simp] theorem onInteg_headgate (s : State) (f : Integrity → Integrity) : (onInteg f s).headgate = s.headgate := rfl
@[simp] theorem onInteg_pair (s : State) (f : Integrity → Integrity) : (onInteg f s).pair = s.pair := rfl
@[simp] theorem onInteg_chain (s : State) (f : Integrity → Integrity) : (onInteg f s).chain = s.chain := rfl
@[simp] theorem onInteg_pending (s : State) (f : Integrity → Integrity) : (onInteg f s).pending = s.pending := rfl
@[simp] theorem onInteg_fresh (s : State) (f : Integrity → Integrity) : (onInteg f s).fresh = s.fresh := rfl
@[simp] theorem onInteg_out (s : State) (f : Integrity → Integrity) : (onInteg f s).out = s.out := rfl

@[simp] theorem onScratch_clock (s : State) (f : Scratch → Scratch) : (onScratch f s).clock = s.clock := rfl
@[simp] theorem onScratch_power (s : State) (f : Scratch → Scratch) : (onScratch f s).power = s.power := rfl
@[simp] theorem onScratch_modes (s : State) (f : Scratch → Scratch) : (onScratch f s).modes = s.modes := rfl
@[simp] theorem onScratch_dict (s : State) (f : Scratch → Scratch) : (onScratch f s).dict = s.dict := rfl
@[simp] theorem onScratch_mailbox (s : State) (f : Scratch → Scratch) : (onScratch f s).mailbox = s.mailbox := rfl
@[simp] theorem onScratch_can (s : State) (f : Scratch → Scratch) : (onScratch f s).can = s.can := rfl
@[simp] theorem onScratch_keys (s : State) (f : Scratch → Scratch) : (onScratch f s).keys = s.keys := rfl
@[simp] theorem onScratch_flash (s : State) (f : Scratch → Scratch) : (onScratch f s).flash = s.flash := rfl
@[simp] theorem onScratch_tally (s : State) (f : Scratch → Scratch) : (onScratch f s).tally = s.tally := rfl
@[simp] theorem onScratch_tamper (s : State) (f : Scratch → Scratch) : (onScratch f s).tamper = s.tamper := rfl
@[simp] theorem onScratch_jack (s : State) (f : Scratch → Scratch) : (onScratch f s).jack = s.jack := rfl
@[simp] theorem onScratch_sluice (s : State) (f : Scratch → Scratch) : (onScratch f s).sluice = s.sluice := rfl
@[simp] theorem onScratch_host (s : State) (f : Scratch → Scratch) : (onScratch f s).host = s.host := rfl
@[simp] theorem onScratch_integ (s : State) (f : Scratch → Scratch) : (onScratch f s).integ = s.integ := rfl
@[simp] theorem onScratch_coh (s : State) (f : Scratch → Scratch) : (onScratch f s).coh = s.coh := rfl
@[simp] theorem onScratch_results (s : State) (f : Scratch → Scratch) : (onScratch f s).results = s.results := rfl
@[simp] theorem onScratch_buckets (s : State) (f : Scratch → Scratch) : (onScratch f s).buckets = s.buckets := rfl
@[simp] theorem onScratch_tcam (s : State) (f : Scratch → Scratch) : (onScratch f s).tcam = s.tcam := rfl
@[simp] theorem onScratch_furrow (s : State) (f : Scratch → Scratch) : (onScratch f s).furrow = s.furrow := rfl
@[simp] theorem onScratch_headgate (s : State) (f : Scratch → Scratch) : (onScratch f s).headgate = s.headgate := rfl
@[simp] theorem onScratch_pair (s : State) (f : Scratch → Scratch) : (onScratch f s).pair = s.pair := rfl
@[simp] theorem onScratch_chain (s : State) (f : Scratch → Scratch) : (onScratch f s).chain = s.chain := rfl
@[simp] theorem onScratch_pending (s : State) (f : Scratch → Scratch) : (onScratch f s).pending = s.pending := rfl
@[simp] theorem onScratch_fresh (s : State) (f : Scratch → Scratch) : (onScratch f s).fresh = s.fresh := rfl
@[simp] theorem onScratch_out (s : State) (f : Scratch → Scratch) : (onScratch f s).out = s.out := rfl

@[simp] theorem onHeadgate_clock (s : State) (f : Headgate → Headgate) : (onHeadgate f s).clock = s.clock := rfl
@[simp] theorem onHeadgate_power (s : State) (f : Headgate → Headgate) : (onHeadgate f s).power = s.power := rfl
@[simp] theorem onHeadgate_modes (s : State) (f : Headgate → Headgate) : (onHeadgate f s).modes = s.modes := rfl
@[simp] theorem onHeadgate_dict (s : State) (f : Headgate → Headgate) : (onHeadgate f s).dict = s.dict := rfl
@[simp] theorem onHeadgate_mailbox (s : State) (f : Headgate → Headgate) : (onHeadgate f s).mailbox = s.mailbox := rfl
@[simp] theorem onHeadgate_can (s : State) (f : Headgate → Headgate) : (onHeadgate f s).can = s.can := rfl
@[simp] theorem onHeadgate_keys (s : State) (f : Headgate → Headgate) : (onHeadgate f s).keys = s.keys := rfl
@[simp] theorem onHeadgate_flash (s : State) (f : Headgate → Headgate) : (onHeadgate f s).flash = s.flash := rfl
@[simp] theorem onHeadgate_tally (s : State) (f : Headgate → Headgate) : (onHeadgate f s).tally = s.tally := rfl
@[simp] theorem onHeadgate_tamper (s : State) (f : Headgate → Headgate) : (onHeadgate f s).tamper = s.tamper := rfl
@[simp] theorem onHeadgate_jack (s : State) (f : Headgate → Headgate) : (onHeadgate f s).jack = s.jack := rfl
@[simp] theorem onHeadgate_sluice (s : State) (f : Headgate → Headgate) : (onHeadgate f s).sluice = s.sluice := rfl
@[simp] theorem onHeadgate_host (s : State) (f : Headgate → Headgate) : (onHeadgate f s).host = s.host := rfl
@[simp] theorem onHeadgate_scratch (s : State) (f : Headgate → Headgate) : (onHeadgate f s).scratch = s.scratch := rfl
@[simp] theorem onHeadgate_integ (s : State) (f : Headgate → Headgate) : (onHeadgate f s).integ = s.integ := rfl
@[simp] theorem onHeadgate_coh (s : State) (f : Headgate → Headgate) : (onHeadgate f s).coh = s.coh := rfl
@[simp] theorem onHeadgate_results (s : State) (f : Headgate → Headgate) : (onHeadgate f s).results = s.results := rfl
@[simp] theorem onHeadgate_buckets (s : State) (f : Headgate → Headgate) : (onHeadgate f s).buckets = s.buckets := rfl
@[simp] theorem onHeadgate_tcam (s : State) (f : Headgate → Headgate) : (onHeadgate f s).tcam = s.tcam := rfl
@[simp] theorem onHeadgate_furrow (s : State) (f : Headgate → Headgate) : (onHeadgate f s).furrow = s.furrow := rfl
@[simp] theorem onHeadgate_pair (s : State) (f : Headgate → Headgate) : (onHeadgate f s).pair = s.pair := rfl
@[simp] theorem onHeadgate_chain (s : State) (f : Headgate → Headgate) : (onHeadgate f s).chain = s.chain := rfl
@[simp] theorem onHeadgate_pending (s : State) (f : Headgate → Headgate) : (onHeadgate f s).pending = s.pending := rfl
@[simp] theorem onHeadgate_fresh (s : State) (f : Headgate → Headgate) : (onHeadgate f s).fresh = s.fresh := rfl
@[simp] theorem onHeadgate_out (s : State) (f : Headgate → Headgate) : (onHeadgate f s).out = s.out := rfl

@[simp] theorem State.val_put (s : State) (k v j : Nat) : (s.put k v).val j = if j = k then v else s.val j := SMap.get_set _ _ _ _ _

@[simp] theorem State.val_bumpBy (s : State) (k n j : Nat) :
    (s.bumpBy k n).val j = if j = k then (s.val k + n) % 2 ^ 32 else s.val j := SMap.get_set _ _ _ _ _

@[simp] theorem State.val_bump (s : State) (k j : Nat) :
    (s.bump k).val j = if j = k then (s.val k + 1) % 2 ^ 32 else s.val j := SMap.get_set _ _ _ _ _

@[simp] theorem State.val_peak (s : State) (k v j : Nat) :
    (s.peak k v).val j = if j = k then max (s.val k) v else s.val j := SMap.get_set _ _ _ _ _

@[simp] theorem emit_val (s : State) (o : Output) (j : Nat) : (emit o s).val j = s.val j := rfl
@[simp] theorem emit_obj (s : State) (o : Output) (j : Nat) : (emit o s).obj j = s.obj j := rfl
@[simp] theorem onRing_val (s : State) (r : Nat) (f : Ring → Ring) (j : Nat) : (onRing r f s).val j = s.val j := rfl
@[simp] theorem onRing_obj (s : State) (r : Nat) (f : Ring → Ring) (j : Nat) : (onRing r f s).obj j = s.obj j := rfl
@[simp] theorem onBuckets_val (s : State) (f : Buckets → Buckets) (j : Nat) : (onBuckets f s).val j = s.val j := rfl
@[simp] theorem onBuckets_obj (s : State) (f : Buckets → Buckets) (j : Nat) : (onBuckets f s).obj j = s.obj j := rfl
@[simp] theorem onTcam_val (s : State) (f : Tcam → Tcam) (j : Nat) : (onTcam f s).val j = s.val j := rfl
@[simp] theorem onTcam_obj (s : State) (f : Tcam → Tcam) (j : Nat) : (onTcam f s).obj j = s.obj j := rfl
@[simp] theorem onFurrow_val (s : State) (f : Furrow → Furrow) (j : Nat) : (onFurrow f s).val j = s.val j := rfl
@[simp] theorem onFurrow_obj (s : State) (f : Furrow → Furrow) (j : Nat) : (onFurrow f s).obj j = s.obj j := rfl
@[simp] theorem onCan_val (s : State) (f : Can → Can) (j : Nat) : (onCan f s).val j = s.val j := rfl
@[simp] theorem onChain_val (s : State) (f : Chain → Chain) (j : Nat) : (onChain f s).val j = s.val j := rfl
@[simp] theorem onChain_obj (s : State) (f : Chain → Chain) (j : Nat) : (onChain f s).obj j = s.obj j := rfl
@[simp] theorem onCoh_val (s : State) (f : Coherence → Coherence) (j : Nat) : (onCoh f s).val j = s.val j := rfl
@[simp] theorem onCoh_obj (s : State) (f : Coherence → Coherence) (j : Nat) : (onCoh f s).obj j = s.obj j := rfl
@[simp] theorem onPair_val (s : State) (f : Pair → Pair) (j : Nat) : (onPair f s).val j = s.val j := rfl
@[simp] theorem onPair_obj (s : State) (f : Pair → Pair) (j : Nat) : (onPair f s).obj j = s.obj j := rfl
@[simp] theorem onKeys_val (s : State) (f : Keys → Keys) (j : Nat) : (onKeys f s).val j = s.val j := rfl
@[simp] theorem onKeys_obj (s : State) (f : Keys → Keys) (j : Nat) : (onKeys f s).obj j = s.obj j := rfl
@[simp] theorem onLink_val (s : State) (m : Nat) (f : Link → Link) (j : Nat) : (onLink m f s).val j = s.val j := rfl
@[simp] theorem onLink_obj (s : State) (m : Nat) (f : Link → Link) (j : Nat) : (onLink m f s).obj j = s.obj j := rfl
@[simp] theorem onInteg_val (s : State) (f : Integrity → Integrity) (j : Nat) : (onInteg f s).val j = s.val j := rfl
@[simp] theorem onInteg_obj (s : State) (f : Integrity → Integrity) (j : Nat) : (onInteg f s).obj j = s.obj j := rfl
@[simp] theorem onScratch_val (s : State) (f : Scratch → Scratch) (j : Nat) : (onScratch f s).val j = s.val j := rfl
@[simp] theorem onScratch_obj (s : State) (f : Scratch → Scratch) (j : Nat) : (onScratch f s).obj j = s.obj j := rfl
@[simp] theorem onHeadgate_val (s : State) (f : Headgate → Headgate) (j : Nat) : (onHeadgate f s).val j = s.val j := rfl
@[simp] theorem onHeadgate_obj (s : State) (f : Headgate → Headgate) (j : Nat) : (onHeadgate f s).obj j = s.obj j := rfl

/-! ### Lists of keys -/

theorem SMap.find?_insert {α : Type} (m : SMap α) (k j : Nat) (v : α) :
    SMap.find? (SMap.insert m k v) j = if j = k then some v else SMap.find? m j := by
  induction m with
  | nil => rfl
  | cons e m ih =>
    obtain ⟨k', v'⟩ := e
    simp only [SMap.insert]
    split
    · subst_vars; simp only [SMap.find?]; split <;> simp_all
    · split
      · simp only [SMap.find?]
      · have hk : ¬k = k' := ‹_›
        simp only [SMap.find?, ih]; split
        · subst_vars; rw [if_neg (Ne.symm hk)]
        · rfl

theorem SMap.find?_erase {α : Type} (m : SMap α) (k j : Nat) :
    SMap.find? (SMap.erase m k) j = if j = k then none else SMap.find? m j := by
  induction m with
  | nil => simp [SMap.erase, SMap.find?]
  | cons e m ih =>
    obtain ⟨k', v'⟩ := e
    simp only [SMap.erase]
    split
    · subst_vars; simp only [ih, SMap.find?]; split <;> simp_all
    · have hk : ¬k = k' := ‹_›
      simp only [SMap.find?, ih]; split
      · subst_vars; rw [if_neg (Ne.symm hk)]
      · rfl

theorem SMap.get_eq_find? {α : Type} (d : α) (m : SMap α) (k : Nat) : SMap.get d m k = (SMap.find? m k).getD d := by
  induction m with
  | nil => rfl
  | cons e m ih =>
    obtain ⟨k', v'⟩ := e
    simp only [SMap.get, SMap.find?, ih]; split <;> rfl

theorem SMap.mem_of_find? {α : Type} {m : SMap α} {k : Nat} {v : α} (h : SMap.find? m k = some v) : (k, v) ∈ m := by
  induction m with
  | nil => cases h
  | cons e m ih =>
    obtain ⟨k', v'⟩ := e
    simp only [SMap.find?] at h
    split at h
    · cases h; subst_vars; exact List.mem_cons_self
    · exact List.mem_cons_of_mem _ (ih h)

/-! ### Rings and vectors -/

theorem ringAt_onRing (s : State) (r i : Nat) (f : Ring → Ring) (h : r < s.host.rings.length) :
    ringAt (onRing r f s) i = if i = r then f (ringAt s r) else ringAt s i := by
  simp only [ringAt, onRing, List.getD_eq_getElem?_getD, List.getElem?_modify]
  by_cases e : i = r
  · subst e; simp [List.getElem?_eq_getElem h]
  · simp [e, Ne.symm e]

@[simp] theorem onRing_length (s : State) (r : Nat) (f : Ring → Ring) : (onRing r f s).host.rings.length = s.host.rings.length := by
  simp [onRing]

@[simp] theorem vector_clock (v : Nat) (s : State) : (vector v s).clock = s.clock := by unfold vector; split <;> rfl
@[simp] theorem vector_power (v : Nat) (s : State) : (vector v s).power = s.power := by unfold vector; split <;> rfl
@[simp] theorem vector_modes (v : Nat) (s : State) : (vector v s).modes = s.modes := by unfold vector; split <;> rfl
@[simp] theorem vector_dict (v : Nat) (s : State) : (vector v s).dict = s.dict := by unfold vector; split <;> rfl
@[simp] theorem vector_mailbox (v : Nat) (s : State) : (vector v s).mailbox = s.mailbox := by unfold vector; split <;> rfl
@[simp] theorem vector_can (v : Nat) (s : State) : (vector v s).can = s.can := by unfold vector; split <;> rfl
@[simp] theorem vector_keys (v : Nat) (s : State) : (vector v s).keys = s.keys := by unfold vector; split <;> rfl
@[simp] theorem vector_flash (v : Nat) (s : State) : (vector v s).flash = s.flash := by unfold vector; split <;> rfl
@[simp] theorem vector_tally (v : Nat) (s : State) : (vector v s).tally = s.tally := by unfold vector; split <;> rfl
@[simp] theorem vector_tamper (v : Nat) (s : State) : (vector v s).tamper = s.tamper := by unfold vector; split <;> rfl
@[simp] theorem vector_jack (v : Nat) (s : State) : (vector v s).jack = s.jack := by unfold vector; split <;> rfl
@[simp] theorem vector_sluice (v : Nat) (s : State) : (vector v s).sluice = s.sluice := by unfold vector; split <;> rfl
@[simp] theorem vector_scratch (v : Nat) (s : State) : (vector v s).scratch = s.scratch := by unfold vector; split <;> rfl
@[simp] theorem vector_integ (v : Nat) (s : State) : (vector v s).integ = s.integ := by unfold vector; split <;> rfl
@[simp] theorem vector_coh (v : Nat) (s : State) : (vector v s).coh = s.coh := by unfold vector; split <;> rfl
@[simp] theorem vector_results (v : Nat) (s : State) : (vector v s).results = s.results := by unfold vector; split <;> rfl
@[simp] theorem vector_buckets (v : Nat) (s : State) : (vector v s).buckets = s.buckets := by unfold vector; split <;> rfl
@[simp] theorem vector_tcam (v : Nat) (s : State) : (vector v s).tcam = s.tcam := by unfold vector; split <;> rfl
@[simp] theorem vector_furrow (v : Nat) (s : State) : (vector v s).furrow = s.furrow := by unfold vector; split <;> rfl
@[simp] theorem vector_headgate (v : Nat) (s : State) : (vector v s).headgate = s.headgate := by unfold vector; split <;> rfl
@[simp] theorem vector_pair (v : Nat) (s : State) : (vector v s).pair = s.pair := by unfold vector; split <;> rfl
@[simp] theorem vector_chain (v : Nat) (s : State) : (vector v s).chain = s.chain := by unfold vector; split <;> rfl
@[simp] theorem vector_pending (v : Nat) (s : State) : (vector v s).pending = s.pending := by unfold vector; split <;> rfl
@[simp] theorem vector_fresh (v : Nat) (s : State) : (vector v s).fresh = s.fresh := by unfold vector; split <;> rfl
@[simp] theorem vector_rings (v : Nat) (s : State) : (vector v s).host.rings = s.host.rings := by unfold vector; split <;> rfl
@[simp] theorem vector_canSend (v : Nat) (s : State) : (vector v s).host.canSend = s.host.canSend := by unfold vector; split <;> rfl
@[simp] theorem vector_val (v k : Nat) (s : State) : (vector v s).val k = s.val k := by unfold vector; split <;> rfl
@[simp] theorem vector_obj (v k : Nat) (s : State) : (vector v s).obj k = s.obj k := by unfold vector; split <;> rfl
@[simp] theorem ringAt_vector (v r : Nat) (s : State) : ringAt (vector v s) r = ringAt s r := by unfold vector; split <;> rfl
theorem vector_out (v : Nat) (s : State) : (vector v s).out = (if vectorOpen v s = true then [Output.msix v] else []) ++ s.out := by
  unfold vector; split <;> rfl
@[simp] theorem ringAt_put (s : State) (k v : Nat) (i : Nat) : ringAt (s.put k v) i = ringAt s i := rfl
@[simp] theorem ringAt_setObj (s : State) (k v : Nat) (i : Nat) : ringAt (s.setObj k v) i = ringAt s i := rfl
@[simp] theorem ringAt_bumpBy (s : State) (k n : Nat) (i : Nat) : ringAt (s.bumpBy k n) i = ringAt s i := rfl
@[simp] theorem ringAt_bump (s : State) (k : Nat) (i : Nat) : ringAt (s.bump k) i = ringAt s i := rfl
@[simp] theorem ringAt_peak (s : State) (k v : Nat) (i : Nat) : ringAt (s.peak k v) i = ringAt s i := rfl
@[simp] theorem ringAt_emit (s : State) (o : Output) (i : Nat) : ringAt (emit o s) i = ringAt s i := rfl
@[simp] theorem ringAt_onBuckets (s : State) (f : Buckets → Buckets) (i : Nat) : ringAt (onBuckets f s) i = ringAt s i := rfl
@[simp] theorem ringAt_onTcam (s : State) (f : Tcam → Tcam) (i : Nat) : ringAt (onTcam f s) i = ringAt s i := rfl
@[simp] theorem ringAt_onFurrow (s : State) (f : Furrow → Furrow) (i : Nat) : ringAt (onFurrow f s) i = ringAt s i := rfl
@[simp] theorem ringAt_onCan (s : State) (f : Can → Can) (i : Nat) : ringAt (onCan f s) i = ringAt s i := rfl
@[simp] theorem ringAt_onChain (s : State) (f : Chain → Chain) (i : Nat) : ringAt (onChain f s) i = ringAt s i := rfl
@[simp] theorem ringAt_onCoh (s : State) (f : Coherence → Coherence) (i : Nat) : ringAt (onCoh f s) i = ringAt s i := rfl
@[simp] theorem ringAt_onPair (s : State) (f : Pair → Pair) (i : Nat) : ringAt (onPair f s) i = ringAt s i := rfl
@[simp] theorem ringAt_onKeys (s : State) (f : Keys → Keys) (i : Nat) : ringAt (onKeys f s) i = ringAt s i := rfl
@[simp] theorem ringAt_onLink (s : State) (m : Nat) (f : Link → Link) (i : Nat) : ringAt (onLink m f s) i = ringAt s i := rfl
@[simp] theorem ringAt_onInteg (s : State) (f : Integrity → Integrity) (i : Nat) : ringAt (onInteg f s) i = ringAt s i := rfl
@[simp] theorem ringAt_onScratch (s : State) (f : Scratch → Scratch) (i : Nat) : ringAt (onScratch f s) i = ringAt s i := rfl
@[simp] theorem ringAt_onHeadgate (s : State) (f : Headgate → Headgate) (i : Nat) : ringAt (onHeadgate f s) i = ringAt s i := rfl
@[simp] theorem vector_msixOn (v : Nat) (s : State) : (vector v s).host.msixOn = s.host.msixOn := by unfold vector; split <;> rfl
@[simp] theorem vector_msixTable (v : Nat) (s : State) : (vector v s).host.msixTable = s.host.msixTable := by unfold vector; split <;> rfl
@[simp] theorem vector_identity (v : Nat) (s : State) : (vector v s).host.identity = s.host.identity := by unfold vector; split <;> rfl
@[simp] theorem vectorOpen_vector (w v : Nat) (s : State) : vectorOpen w (vector v s) = vectorOpen w s := by unfold vector; split <;> rfl
@[simp] theorem vectorOpen_put (w : Nat) (s : State) (k v : Nat) : vectorOpen w (s.put k v) = vectorOpen w s := rfl
@[simp] theorem vectorOpen_setObj (w : Nat) (s : State) (k v : Nat) : vectorOpen w (s.setObj k v) = vectorOpen w s := rfl
@[simp] theorem vectorOpen_bumpBy (w : Nat) (s : State) (k n : Nat) : vectorOpen w (s.bumpBy k n) = vectorOpen w s := rfl
@[simp] theorem vectorOpen_bump (w : Nat) (s : State) (k : Nat) : vectorOpen w (s.bump k) = vectorOpen w s := rfl
@[simp] theorem vectorOpen_peak (w : Nat) (s : State) (k v : Nat) : vectorOpen w (s.peak k v) = vectorOpen w s := rfl
@[simp] theorem vectorOpen_emit (w : Nat) (s : State) (o : Output) : vectorOpen w (emit o s) = vectorOpen w s := rfl
@[simp] theorem vectorOpen_onBuckets (w : Nat) (s : State) (f : Buckets → Buckets) : vectorOpen w (onBuckets f s) = vectorOpen w s := rfl
@[simp] theorem vectorOpen_onTcam (w : Nat) (s : State) (f : Tcam → Tcam) : vectorOpen w (onTcam f s) = vectorOpen w s := rfl
@[simp] theorem vectorOpen_onFurrow (w : Nat) (s : State) (f : Furrow → Furrow) : vectorOpen w (onFurrow f s) = vectorOpen w s := rfl
@[simp] theorem vectorOpen_onCan (w : Nat) (s : State) (f : Can → Can) : vectorOpen w (onCan f s) = vectorOpen w s := rfl
@[simp] theorem vectorOpen_onChain (w : Nat) (s : State) (f : Chain → Chain) : vectorOpen w (onChain f s) = vectorOpen w s := rfl
@[simp] theorem vectorOpen_onCoh (w : Nat) (s : State) (f : Coherence → Coherence) : vectorOpen w (onCoh f s) = vectorOpen w s := rfl
@[simp] theorem vectorOpen_onPair (w : Nat) (s : State) (f : Pair → Pair) : vectorOpen w (onPair f s) = vectorOpen w s := rfl
@[simp] theorem vectorOpen_onKeys (w : Nat) (s : State) (f : Keys → Keys) : vectorOpen w (onKeys f s) = vectorOpen w s := rfl
@[simp] theorem vectorOpen_onInteg (w : Nat) (s : State) (f : Integrity → Integrity) : vectorOpen w (onInteg f s) = vectorOpen w s := rfl
@[simp] theorem vectorOpen_onScratch (w : Nat) (s : State) (f : Scratch → Scratch) : vectorOpen w (onScratch f s) = vectorOpen w s := rfl
@[simp] theorem vectorOpen_onHeadgate (w : Nat) (s : State) (f : Headgate → Headgate) : vectorOpen w (onHeadgate f s) = vectorOpen w s := rfl
@[simp] theorem vectorOpen_onLink (w : Nat) (s : State) (m : Nat) (f : Link → Link) : vectorOpen w (onLink m f s) = vectorOpen w s := rfl
@[simp] theorem vectorOpen_onRing (w : Nat) (s : State) (r : Nat) (f : Ring → Ring) : vectorOpen w (onRing r f s) = vectorOpen w s := rfl

/-! ### A free value drawn -/

@[simp] theorem drawFresh_fst (s : State) : (drawFresh s).1 = s.fresh := rfl
@[simp] theorem drawFresh_fresh (s : State) : (drawFresh s).2.fresh = s.fresh + 1 := rfl
@[simp] theorem drawFresh_clock (s : State) : (drawFresh s).2.clock = s.clock := rfl
@[simp] theorem drawFresh_power (s : State) : (drawFresh s).2.power = s.power := rfl
@[simp] theorem drawFresh_modes (s : State) : (drawFresh s).2.modes = s.modes := rfl
@[simp] theorem drawFresh_dict (s : State) : (drawFresh s).2.dict = s.dict := rfl
@[simp] theorem drawFresh_mailbox (s : State) : (drawFresh s).2.mailbox = s.mailbox := rfl
@[simp] theorem drawFresh_can (s : State) : (drawFresh s).2.can = s.can := rfl
@[simp] theorem drawFresh_keys (s : State) : (drawFresh s).2.keys = s.keys := rfl
@[simp] theorem drawFresh_flash (s : State) : (drawFresh s).2.flash = s.flash := rfl
@[simp] theorem drawFresh_tally (s : State) : (drawFresh s).2.tally = s.tally := rfl
@[simp] theorem drawFresh_tamper (s : State) : (drawFresh s).2.tamper = s.tamper := rfl
@[simp] theorem drawFresh_jack (s : State) : (drawFresh s).2.jack = s.jack := rfl
@[simp] theorem drawFresh_sluice (s : State) : (drawFresh s).2.sluice = s.sluice := rfl
@[simp] theorem drawFresh_host (s : State) : (drawFresh s).2.host = s.host := rfl
@[simp] theorem drawFresh_scratch (s : State) : (drawFresh s).2.scratch = s.scratch := rfl
@[simp] theorem drawFresh_integ (s : State) : (drawFresh s).2.integ = s.integ := rfl
@[simp] theorem drawFresh_coh (s : State) : (drawFresh s).2.coh = s.coh := rfl
@[simp] theorem drawFresh_results (s : State) : (drawFresh s).2.results = s.results := rfl
@[simp] theorem drawFresh_buckets (s : State) : (drawFresh s).2.buckets = s.buckets := rfl
@[simp] theorem drawFresh_tcam (s : State) : (drawFresh s).2.tcam = s.tcam := rfl
@[simp] theorem drawFresh_furrow (s : State) : (drawFresh s).2.furrow = s.furrow := rfl
@[simp] theorem drawFresh_headgate (s : State) : (drawFresh s).2.headgate = s.headgate := rfl
@[simp] theorem drawFresh_pair (s : State) : (drawFresh s).2.pair = s.pair := rfl
@[simp] theorem drawFresh_chain (s : State) : (drawFresh s).2.chain = s.chain := rfl
@[simp] theorem drawFresh_pending (s : State) : (drawFresh s).2.pending = s.pending := rfl
@[simp] theorem drawFresh_out (s : State) : (drawFresh s).2.out = s.out := rfl
@[simp] theorem drawFresh_val (s : State) (k : Nat) : (drawFresh s).2.val k = s.val k := rfl
@[simp] theorem drawFresh_obj (s : State) (k : Nat) : (drawFresh s).2.obj k = s.obj k := rfl

end Sys2Proof.Machine
end

