-- ==== Sys2Proof/Laws/Within.lean ====
section
/-! SUPPORT. The relation the lemmas of the Within files state: what an operation may change, and that it keeps what every command keeps. One lemma for each way a state is updated or an operation is put together. -/

set_option linter.unusedVariables false
set_option linter.unusedSimpArgs false
namespace Sys2Proof.Machine

/-- `s` keeps everything of `r` outside `cs`, and keeps what every command keeps (Safety.lean). -/
def Within (cs : List Part) (r s : State) : Prop := FramedBy cs r s ∧ Evolves r s

/-- `Within`, of a result beside a state. -/
def PairWithin {α : Type} (cs : List Part) (r : State) (p : α × State) : Prop := Within cs r p.2

/-- `Within`, of two results beside a state. -/
def TripleWithin {α β : Type} (cs : List Part) (r : State) (p : α × β × State) : Prop := Within cs r p.2.2

/-- `Within`, where an operation may answer no state. -/
def OptWithin (cs : List Part) (r : State) (o : Option State) : Prop := ∀ t, o = some t → Within cs r t

/-- `Within`, where an operation may answer nothing. -/
def OptPairWithin {α : Type} (cs : List Part) (r : State) (o : Option (α × State)) : Prop := ∀ x t, o = some (x, t) → Within cs r t

/-- `Within`, where an operation answers a value or a state. -/
def SumWithin {α : Type} (cs : List Part) (r : State) (o : α ⊕ State) : Prop := ∀ t, o = .inr t → Within cs r t

/-- `Within`, where an operation answers a value or a result beside a state. -/
def SumPairWithin {α β : Type} (cs : List Part) (r : State) (o : α ⊕ β × State) : Prop := ∀ x t, o = .inr (x, t) → Within cs r t

/-- `Within`, of the next state of a command. -/
def ResultWithin (cs : List Part) (r : State) (o : Result) : Prop := ∀ t, o = .next t → Within cs r t

/-- `Within`, of every end of an operation of a ring command. -/
def OpWithin (cs : List Part) (r : State) : OpRes → Prop
  | .chain _ _ s => Within cs r s
  | .done _ _ s => Within cs r s
  | .fail _ _ s => Within cs r s
  | .wait => True

/-- `OpWithin`, where an operation may end here or go on. -/
def OptOpWithin (cs : List Part) (r : State) (o : Option OpRes) : Prop := ∀ x, o = some x → OpWithin cs r x

/-- `OpWithin`, where an operation ends here or goes on with a value. -/
def SumOpWithin {α : Type} (cs : List Part) (r : State) (o : α ⊕ OpRes) : Prop := ∀ x, o = .inr x → OpWithin cs r x

/-- `Within`, of an item of a bundle applied. -/
def AppliedWithin (cs : List Part) (r : State) : Applied → Prop
  | .ok s => Within cs r s
  | .job _ s => Within cs r s
  | .bad _ => True
  | .wait => True
  | .absent => True

/-- `Within`, of the end of a bundle. -/
def BundleWithin (cs : List Part) (r : State) : BundleEnd → Prop
  | .job _ s => Within cs r s
  | .rejected _ s => Within cs r s
  | .already _ s => Within cs r s
  | .accepted _ s => Within cs r s
  | .wait => True
  | .absent => True

theorem within_aok {cs : List Part} {r s : State} (h : Within cs r s) : AppliedWithin cs r (.ok s) := h

theorem within_ajob {cs : List Part} {r s : State} {j} (h : Within cs r s) : AppliedWithin cs r (.job j s) := h

theorem within_bjob {cs : List Part} {r s : State} {j} (h : Within cs r s) : BundleWithin cs r (.job j s) := h

theorem within_of_ajob {cs : List Part} {r t : State} {p : Applied} {j} (e : p = .job j t) (h : AppliedWithin cs r p) : Within cs r t := by subst e; exact h

theorem within_of_bjob {cs : List Part} {r t : State} {p : BundleEnd} {j} (e : p = .job j t) (h : BundleWithin cs r p) : Within cs r t := by subst e; exact h

theorem within_abad {cs : List Part} {r : State} {d} : AppliedWithin cs r (.bad d) := trivial

theorem within_aabsent {cs : List Part} {r : State} : AppliedWithin cs r .absent := trivial

theorem within_babsent {cs : List Part} {r : State} : BundleWithin cs r .absent := trivial

theorem within_await {cs : List Part} {r : State} : AppliedWithin cs r .wait := trivial

theorem within_brej {cs : List Part} {r s : State} {d} (h : Within cs r s) : BundleWithin cs r (.rejected d s) := h

theorem within_balr {cs : List Part} {r s : State} {d} (h : Within cs r s) : BundleWithin cs r (.already d s) := h

theorem within_bacc {cs : List Part} {r s : State} {d} (h : Within cs r s) : BundleWithin cs r (.accepted d s) := h

theorem within_bwait {cs : List Part} {r : State} : BundleWithin cs r .wait := trivial

theorem within_of_aok {cs : List Part} {r t : State} {p : Applied} (e : p = .ok t) (h : AppliedWithin cs r p) : Within cs r t := by subst e; exact h

theorem within_of_brej {cs : List Part} {r t : State} {p : BundleEnd} {d} (e : p = .rejected d t) (h : BundleWithin cs r p) : Within cs r t := by subst e; exact h

theorem within_of_balr {cs : List Part} {r t : State} {p : BundleEnd} {d} (e : p = .already d t) (h : BundleWithin cs r p) : Within cs r t := by subst e; exact h

theorem within_of_bacc {cs : List Part} {r t : State} {p : BundleEnd} {d} (e : p = .accepted d t) (h : BundleWithin cs r p) : Within cs r t := by subst e; exact h

theorem within_ite {c : Prop} [Decidable c] {cs : List Part} {r a b : State} (ha : c → Within cs r a) (hb : ¬c → Within cs r b) : Within cs r (if c then a else b) := by
  split
  · exact ha ‹_›
  · exact hb ‹_›

theorem pairWithin_ite {α : Type} {c : Prop} [Decidable c] {cs : List Part} {r : State} {a b : α × State} (ha : c → PairWithin cs r a) (hb : ¬c → PairWithin cs r b) : PairWithin cs r (if c then a else b) := by
  split
  · exact ha ‹_›
  · exact hb ‹_›

theorem modeNow_legal (s : State) : legalMode (modeNow s) := by
  unfold modeNow legalMode; repeat' split
  all_goals exact ⟨by decide, by decide⟩

theorem within_refl (cs : List Part) (s : State) : Within cs s s := ⟨fun p _ => by cases p <;> rfl, id, rfl, rfl, Nat.le_refl _, Nat.le_refl _, List.suffix_refl _⟩

theorem evolves_trans {r s t : State} (h : Evolves r s) (g : Evolves s t) : Evolves r t :=
  ⟨fun x => g.1 (h.1 x), g.2.1.trans h.2.1, g.2.2.1.trans h.2.2.1, Nat.le_trans h.2.2.2.1 g.2.2.2.1, Nat.le_trans h.2.2.2.2.1 g.2.2.2.2.1,
    List.IsSuffix.trans h.2.2.2.2.2 g.2.2.2.2.2⟩

theorem within_trans {cs : List Part} {r s t : State} (h : Within cs r s) (g : Within cs s t) : Within cs r t := by
  refine ⟨fun p hp => ?_, evolves_trans h.2 g.2⟩
  have a := h.1 p hp
  have b := g.1 p hp
  cases p <;> exact Eq.trans b a

/-- Every part of `a` is a part of `b`. -/
def subParts (a b : List Part) : Bool := a.all fun p => b.contains p

theorem mem_of_sub {a b : List Part} {p : Part} (h : subParts a b = true) (hp : p ∈ a) : p ∈ b := by
  have := List.all_eq_true.mp h p hp
  simpa using this

theorem sub_of {a b c : List Part} (h : subParts b c = true) (g : subParts a b = true) : subParts a c = true := by
  refine List.all_eq_true.mpr fun p hp => ?_
  simpa using mem_of_sub h (mem_of_sub g hp)

theorem within_update {cs ps : List Part} {r t : State} {clock power modes dict mailbox can keys flash tally tamper jack sluice host scratch integ coh results buckets tcam furrow headgate pair chain pending fresh out}
    (e : pending = t.pending) (hc : subParts ps cs = true) (hp : ∀ p, p ∉ ps → Part.same t ⟨clock, power, modes, dict, mailbox, can, keys, flash, tally, tamper, jack, sluice, host, scratch, integ, coh, results, buckets, tcam, furrow, headgate, pair, chain, pending, fresh, out⟩ p)
    (c_clock0 : clock.wall = t.clock.wall)
    (c_fresh0 : t.fresh ≤ fresh)
    (c_keys0 : t.keys.fuses ≤ keys.fuses)
    (c_out0 : t.out <:+ out)
    (c_host0 : t.host.rings.length = 8 → host.rings.length = 8)
    (c_host1 : Memory.wf t.host.msixTable = true → Memory.wf host.msixTable = true)
    (c_headgate0 : t.headgate.links.length = 8 → headgate.links.length = 8)
    (c_integ0 : t.integ.regions.length = 18 → integ.regions.length = 18)
    (c_coh0 : t.coh.nextTicket.length = 16 → coh.nextTicket.length = 16)
    (c_modes0 : legalMode t.modes.mode → legalMode modes.mode)
    (c_can0 : legalNmt t.can.nmt → legalNmt can.nmt)
    (c_scratch0 : Memory.wf t.scratch.mem = true → Memory.wf scratch.mem = true)
    (c_mailbox0 : Memory.wf t.mailbox.request = true → Memory.wf mailbox.request = true)
    (c_mailbox1 : Memory.wf t.mailbox.response = true → Memory.wf mailbox.response = true)
    (h : Within cs r t) : Within cs r ⟨clock, power, modes, dict, mailbox, can, keys, flash, tally, tamper, jack, sluice, host, scratch, integ, coh, results, buckets, tcam, furrow, headgate, pair, chain, pending, fresh, out⟩ := by
  refine ⟨?_, evolves_trans h.2 ⟨?_, e, c_clock0, c_fresh0, c_keys0, c_out0⟩⟩
  · intro p hn
    have a := h.1 p hn
    have b := hp p fun x => hn (mem_of_sub hc x)
    cases p <;> exact Eq.trans b a
  · intro ⟨a0, a1, a2, a3, a4, a5, a6, a7, a8, a9⟩
    exact ⟨c_host0 a0, c_headgate0 a1, c_integ0 a2, c_coh0 a3, c_modes0 a4, c_can0 a5, c_scratch0 a6, c_mailbox0 a7, c_mailbox1 a8, c_host1 a9⟩

theorem restartRtc_wall (c : Clock) (w : Nat) : (restartRtc c w).wall = c.wall := by
  unfold restartRtc; split <;> rfl

theorem within_set_clock {cs : List Part} {r t : State} {x} (hc : subParts [.clock] cs = true) (c_clock0 : x.wall = t.clock.wall) (h : Within cs r t) :
    Within cs r ⟨x, t.power, t.modes, t.dict, t.mailbox, t.can, t.keys, t.flash, t.tally, t.tamper, t.jack, t.sluice, t.host, t.scratch, t.integ, t.coh, t.results, t.buckets, t.tcam, t.furrow, t.headgate, t.pair, t.chain, t.pending, t.fresh, t.out⟩ :=
  within_update rfl hc (fun p hp => by cases p <;> first | rfl | exact absurd (by decide) hp) c_clock0 (Nat.le_refl _) (Nat.le_refl _) (List.suffix_refl _) id id id id id id id id id id h

theorem within_set_power_tamperWake {cs : List Part} {r t : State} {x} (hc : subParts [.wakes] cs = true)  (h : Within cs r t) :
    Within cs r ⟨t.clock, { t.power with tamperWake := x }, t.modes, t.dict, t.mailbox, t.can, t.keys, t.flash, t.tally, t.tamper, t.jack, t.sluice, t.host, t.scratch, t.integ, t.coh, t.results, t.buckets, t.tcam, t.furrow, t.headgate, t.pair, t.chain, t.pending, t.fresh, t.out⟩ :=
  within_update rfl hc (fun p hp => by cases p <;> first | rfl | exact absurd (by decide) hp) rfl (Nat.le_refl _) (Nat.le_refl _) (List.suffix_refl _) id id id id id id id id id id h

theorem within_set_power_unplanned {cs : List Part} {r t : State} {x} (hc : subParts [.power] cs = true)  (h : Within cs r t) :
    Within cs r ⟨t.clock, { t.power with unplanned := x }, t.modes, t.dict, t.mailbox, t.can, t.keys, t.flash, t.tally, t.tamper, t.jack, t.sluice, t.host, t.scratch, t.integ, t.coh, t.results, t.buckets, t.tcam, t.furrow, t.headgate, t.pair, t.chain, t.pending, t.fresh, t.out⟩ :=
  within_update rfl hc (fun p hp => by cases p <;> first | rfl | exact absurd (by decide) hp) rfl (Nat.le_refl _) (Nat.le_refl _) (List.suffix_refl _) id id id id id id id id id id h

theorem within_set_mailbox {cs : List Part} {r t : State} {x} (hc : subParts [.mailbox] cs = true) (c_mailbox0 : Memory.wf t.mailbox.request = true → Memory.wf x.request = true) (c_mailbox1 : Memory.wf t.mailbox.response = true → Memory.wf x.response = true) (h : Within cs r t) :
    Within cs r ⟨t.clock, t.power, t.modes, t.dict, x, t.can, t.keys, t.flash, t.tally, t.tamper, t.jack, t.sluice, t.host, t.scratch, t.integ, t.coh, t.results, t.buckets, t.tcam, t.furrow, t.headgate, t.pair, t.chain, t.pending, t.fresh, t.out⟩ :=
  within_update rfl hc (fun p hp => by cases p <;> first | rfl | exact absurd (by decide) hp) rfl (Nat.le_refl _) (Nat.le_refl _) (List.suffix_refl _) id id id id id id id id c_mailbox0 c_mailbox1 h

theorem within_set_can {cs : List Part} {r t : State} {x} (hc : subParts [.can] cs = true) (c_can0 : legalNmt t.can.nmt → legalNmt x.nmt) (h : Within cs r t) :
    Within cs r ⟨t.clock, t.power, t.modes, t.dict, t.mailbox, x, t.keys, t.flash, t.tally, t.tamper, t.jack, t.sluice, t.host, t.scratch, t.integ, t.coh, t.results, t.buckets, t.tcam, t.furrow, t.headgate, t.pair, t.chain, t.pending, t.fresh, t.out⟩ :=
  within_update rfl hc (fun p hp => by cases p <;> first | rfl | exact absurd (by decide) hp) rfl (Nat.le_refl _) (Nat.le_refl _) (List.suffix_refl _) id id id id id id c_can0 id id id h

theorem within_set_flash {cs : List Part} {r t : State} {x} (hc : subParts [.flash] cs = true)  (h : Within cs r t) :
    Within cs r ⟨t.clock, t.power, t.modes, t.dict, t.mailbox, t.can, t.keys, x, t.tally, t.tamper, t.jack, t.sluice, t.host, t.scratch, t.integ, t.coh, t.results, t.buckets, t.tcam, t.furrow, t.headgate, t.pair, t.chain, t.pending, t.fresh, t.out⟩ :=
  within_update rfl hc (fun p hp => by cases p <;> first | rfl | exact absurd (by decide) hp) rfl (Nat.le_refl _) (Nat.le_refl _) (List.suffix_refl _) id id id id id id id id id id h

theorem within_set_tally {cs : List Part} {r t : State} {x} (hc : subParts [.tally] cs = true)  (h : Within cs r t) :
    Within cs r ⟨t.clock, t.power, t.modes, t.dict, t.mailbox, t.can, t.keys, t.flash, x, t.tamper, t.jack, t.sluice, t.host, t.scratch, t.integ, t.coh, t.results, t.buckets, t.tcam, t.furrow, t.headgate, t.pair, t.chain, t.pending, t.fresh, t.out⟩ :=
  within_update rfl hc (fun p hp => by cases p <;> first | rfl | exact absurd (by decide) hp) rfl (Nat.le_refl _) (Nat.le_refl _) (List.suffix_refl _) id id id id id id id id id id h

theorem within_set_tamper {cs : List Part} {r t : State} {x} (hc : subParts [.tamper] cs = true)  (h : Within cs r t) :
    Within cs r ⟨t.clock, t.power, t.modes, t.dict, t.mailbox, t.can, t.keys, t.flash, t.tally, x, t.jack, t.sluice, t.host, t.scratch, t.integ, t.coh, t.results, t.buckets, t.tcam, t.furrow, t.headgate, t.pair, t.chain, t.pending, t.fresh, t.out⟩ :=
  within_update rfl hc (fun p hp => by cases p <;> first | rfl | exact absurd (by decide) hp) rfl (Nat.le_refl _) (Nat.le_refl _) (List.suffix_refl _) id id id id id id id id id id h

theorem within_set_jack {cs : List Part} {r t : State} {x} (hc : subParts [.jack] cs = true)  (h : Within cs r t) :
    Within cs r ⟨t.clock, t.power, t.modes, t.dict, t.mailbox, t.can, t.keys, t.flash, t.tally, t.tamper, x, t.sluice, t.host, t.scratch, t.integ, t.coh, t.results, t.buckets, t.tcam, t.furrow, t.headgate, t.pair, t.chain, t.pending, t.fresh, t.out⟩ :=
  within_update rfl hc (fun p hp => by cases p <;> first | rfl | exact absurd (by decide) hp) rfl (Nat.le_refl _) (Nat.le_refl _) (List.suffix_refl _) id id id id id id id id id id h

theorem within_set_sluice {cs : List Part} {r t : State} {x} (hc : subParts [.sluice] cs = true)  (h : Within cs r t) :
    Within cs r ⟨t.clock, t.power, t.modes, t.dict, t.mailbox, t.can, t.keys, t.flash, t.tally, t.tamper, t.jack, x, t.host, t.scratch, t.integ, t.coh, t.results, t.buckets, t.tcam, t.furrow, t.headgate, t.pair, t.chain, t.pending, t.fresh, t.out⟩ :=
  within_update rfl hc (fun p hp => by cases p <;> first | rfl | exact absurd (by decide) hp) rfl (Nat.le_refl _) (Nat.le_refl _) (List.suffix_refl _) id id id id id id id id id id h

theorem within_set_scratch {cs : List Part} {r t : State} {x} (hc : subParts [.scratch] cs = true) (c_scratch0 : Memory.wf t.scratch.mem = true → Memory.wf x.mem = true) (h : Within cs r t) :
    Within cs r ⟨t.clock, t.power, t.modes, t.dict, t.mailbox, t.can, t.keys, t.flash, t.tally, t.tamper, t.jack, t.sluice, t.host, x, t.integ, t.coh, t.results, t.buckets, t.tcam, t.furrow, t.headgate, t.pair, t.chain, t.pending, t.fresh, t.out⟩ :=
  within_update rfl hc (fun p hp => by cases p <;> first | rfl | exact absurd (by decide) hp) rfl (Nat.le_refl _) (Nat.le_refl _) (List.suffix_refl _) id id id id id id id c_scratch0 id id h

theorem within_set_integ {cs : List Part} {r t : State} {x} (hc : subParts [.integ] cs = true) (c_integ0 : t.integ.regions.length = 18 → x.regions.length = 18) (h : Within cs r t) :
    Within cs r ⟨t.clock, t.power, t.modes, t.dict, t.mailbox, t.can, t.keys, t.flash, t.tally, t.tamper, t.jack, t.sluice, t.host, t.scratch, x, t.coh, t.results, t.buckets, t.tcam, t.furrow, t.headgate, t.pair, t.chain, t.pending, t.fresh, t.out⟩ :=
  within_update rfl hc (fun p hp => by cases p <;> first | rfl | exact absurd (by decide) hp) rfl (Nat.le_refl _) (Nat.le_refl _) (List.suffix_refl _) id id id c_integ0 id id id id id id h

theorem within_set_coh {cs : List Part} {r t : State} {x} (hc : subParts [.coh] cs = true) (c_coh0 : t.coh.nextTicket.length = 16 → x.nextTicket.length = 16) (h : Within cs r t) :
    Within cs r ⟨t.clock, t.power, t.modes, t.dict, t.mailbox, t.can, t.keys, t.flash, t.tally, t.tamper, t.jack, t.sluice, t.host, t.scratch, t.integ, x, t.results, t.buckets, t.tcam, t.furrow, t.headgate, t.pair, t.chain, t.pending, t.fresh, t.out⟩ :=
  within_update rfl hc (fun p hp => by cases p <;> first | rfl | exact absurd (by decide) hp) rfl (Nat.le_refl _) (Nat.le_refl _) (List.suffix_refl _) id id id id c_coh0 id id id id id h

theorem within_set_results {cs : List Part} {r t : State} {x} (hc : subParts [.results] cs = true)  (h : Within cs r t) :
    Within cs r ⟨t.clock, t.power, t.modes, t.dict, t.mailbox, t.can, t.keys, t.flash, t.tally, t.tamper, t.jack, t.sluice, t.host, t.scratch, t.integ, t.coh, x, t.buckets, t.tcam, t.furrow, t.headgate, t.pair, t.chain, t.pending, t.fresh, t.out⟩ :=
  within_update rfl hc (fun p hp => by cases p <;> first | rfl | exact absurd (by decide) hp) rfl (Nat.le_refl _) (Nat.le_refl _) (List.suffix_refl _) id id id id id id id id id id h

theorem within_set_buckets {cs : List Part} {r t : State} {x} (hc : subParts [.buckets] cs = true)  (h : Within cs r t) :
    Within cs r ⟨t.clock, t.power, t.modes, t.dict, t.mailbox, t.can, t.keys, t.flash, t.tally, t.tamper, t.jack, t.sluice, t.host, t.scratch, t.integ, t.coh, t.results, x, t.tcam, t.furrow, t.headgate, t.pair, t.chain, t.pending, t.fresh, t.out⟩ :=
  within_update rfl hc (fun p hp => by cases p <;> first | rfl | exact absurd (by decide) hp) rfl (Nat.le_refl _) (Nat.le_refl _) (List.suffix_refl _) id id id id id id id id id id h

theorem within_set_tcam {cs : List Part} {r t : State} {x} (hc : subParts [.tcam] cs = true)  (h : Within cs r t) :
    Within cs r ⟨t.clock, t.power, t.modes, t.dict, t.mailbox, t.can, t.keys, t.flash, t.tally, t.tamper, t.jack, t.sluice, t.host, t.scratch, t.integ, t.coh, t.results, t.buckets, x, t.furrow, t.headgate, t.pair, t.chain, t.pending, t.fresh, t.out⟩ :=
  within_update rfl hc (fun p hp => by cases p <;> first | rfl | exact absurd (by decide) hp) rfl (Nat.le_refl _) (Nat.le_refl _) (List.suffix_refl _) id id id id id id id id id id h

theorem within_set_furrow {cs : List Part} {r t : State} {x} (hc : subParts [.furrow] cs = true)  (h : Within cs r t) :
    Within cs r ⟨t.clock, t.power, t.modes, t.dict, t.mailbox, t.can, t.keys, t.flash, t.tally, t.tamper, t.jack, t.sluice, t.host, t.scratch, t.integ, t.coh, t.results, t.buckets, t.tcam, x, t.headgate, t.pair, t.chain, t.pending, t.fresh, t.out⟩ :=
  within_update rfl hc (fun p hp => by cases p <;> first | rfl | exact absurd (by decide) hp) rfl (Nat.le_refl _) (Nat.le_refl _) (List.suffix_refl _) id id id id id id id id id id h

theorem within_set_pair {cs : List Part} {r t : State} {x} (hc : subParts [.pair] cs = true)  (h : Within cs r t) :
    Within cs r ⟨t.clock, t.power, t.modes, t.dict, t.mailbox, t.can, t.keys, t.flash, t.tally, t.tamper, t.jack, t.sluice, t.host, t.scratch, t.integ, t.coh, t.results, t.buckets, t.tcam, t.furrow, t.headgate, x, t.chain, t.pending, t.fresh, t.out⟩ :=
  within_update rfl hc (fun p hp => by cases p <;> first | rfl | exact absurd (by decide) hp) rfl (Nat.le_refl _) (Nat.le_refl _) (List.suffix_refl _) id id id id id id id id id id h

theorem within_set_chain {cs : List Part} {r t : State} {x} (hc : subParts [.chain] cs = true)  (h : Within cs r t) :
    Within cs r ⟨t.clock, t.power, t.modes, t.dict, t.mailbox, t.can, t.keys, t.flash, t.tally, t.tamper, t.jack, t.sluice, t.host, t.scratch, t.integ, t.coh, t.results, t.buckets, t.tcam, t.furrow, t.headgate, t.pair, x, t.pending, t.fresh, t.out⟩ :=
  within_update rfl hc (fun p hp => by cases p <;> first | rfl | exact absurd (by decide) hp) rfl (Nat.le_refl _) (Nat.le_refl _) (List.suffix_refl _) id id id id id id id id id id h

theorem within_set_fresh {cs : List Part} {r t : State} {x} (hc : subParts [.fresh] cs = true) (c_fresh0 : t.fresh ≤ x) (h : Within cs r t) :
    Within cs r ⟨t.clock, t.power, t.modes, t.dict, t.mailbox, t.can, t.keys, t.flash, t.tally, t.tamper, t.jack, t.sluice, t.host, t.scratch, t.integ, t.coh, t.results, t.buckets, t.tcam, t.furrow, t.headgate, t.pair, t.chain, t.pending, x, t.out⟩ :=
  within_update rfl hc (fun p hp => by cases p <;> first | rfl | exact absurd (by decide) hp) rfl c_fresh0 (Nat.le_refl _) (List.suffix_refl _) id id id id id id id id id id h

theorem within_set_out {cs : List Part} {r t : State} {x} (hc : subParts [.out] cs = true) (c_out0 : t.out <:+ x)  (h : Within cs r t) :
    Within cs r ⟨t.clock, t.power, t.modes, t.dict, t.mailbox, t.can, t.keys, t.flash, t.tally, t.tamper, t.jack, t.sluice, t.host, t.scratch, t.integ, t.coh, t.results, t.buckets, t.tcam, t.furrow, t.headgate, t.pair, t.chain, t.pending, t.fresh, x⟩ :=
  within_update rfl hc (fun p hp => by cases p <;> first | rfl | exact absurd (by decide) hp) rfl (Nat.le_refl _) (Nat.le_refl _) c_out0 id id id id id id id id id id h

theorem within_set_modes_active {cs : List Part} {r t : State} {x} (hc : subParts [.faults] cs = true)  (h : Within cs r t) :
    Within cs r ⟨t.clock, t.power, { t.modes with active := x }, t.dict, t.mailbox, t.can, t.keys, t.flash, t.tally, t.tamper, t.jack, t.sluice, t.host, t.scratch, t.integ, t.coh, t.results, t.buckets, t.tcam, t.furrow, t.headgate, t.pair, t.chain, t.pending, t.fresh, t.out⟩ :=
  within_update rfl hc (fun p hp => by cases p <;> first | rfl | exact absurd (by decide) hp) rfl (Nat.le_refl _) (Nat.le_refl _) (List.suffix_refl _) id id id id id id id id id id h

theorem within_set_modes_emcyAt {cs : List Part} {r t : State} {x} (hc : subParts [.faults] cs = true)  (h : Within cs r t) :
    Within cs r ⟨t.clock, t.power, { t.modes with emcyAt := x }, t.dict, t.mailbox, t.can, t.keys, t.flash, t.tally, t.tamper, t.jack, t.sluice, t.host, t.scratch, t.integ, t.coh, t.results, t.buckets, t.tcam, t.furrow, t.headgate, t.pair, t.chain, t.pending, t.fresh, t.out⟩ :=
  within_update rfl hc (fun p hp => by cases p <;> first | rfl | exact absurd (by decide) hp) rfl (Nat.le_refl _) (Nat.le_refl _) (List.suffix_refl _) id id id id id id id id id id h

theorem within_set_modes_emcyWait {cs : List Part} {r t : State} {x} (hc : subParts [.faults] cs = true)  (h : Within cs r t) :
    Within cs r ⟨t.clock, t.power, { t.modes with emcyWait := x }, t.dict, t.mailbox, t.can, t.keys, t.flash, t.tally, t.tamper, t.jack, t.sluice, t.host, t.scratch, t.integ, t.coh, t.results, t.buckets, t.tcam, t.furrow, t.headgate, t.pair, t.chain, t.pending, t.fresh, t.out⟩ :=
  within_update rfl hc (fun p hp => by cases p <;> first | rfl | exact absurd (by decide) hp) rfl (Nat.le_refl _) (Nat.le_refl _) (List.suffix_refl _) id id id id id id id id id id h

theorem within_set_modes_early {cs : List Part} {r t : State} {x} (hc : subParts [.faults] cs = true)  (h : Within cs r t) :
    Within cs r ⟨t.clock, t.power, { t.modes with early := x }, t.dict, t.mailbox, t.can, t.keys, t.flash, t.tally, t.tamper, t.jack, t.sluice, t.host, t.scratch, t.integ, t.coh, t.results, t.buckets, t.tcam, t.furrow, t.headgate, t.pair, t.chain, t.pending, t.fresh, t.out⟩ :=
  within_update rfl hc (fun p hp => by cases p <;> first | rfl | exact absurd (by decide) hp) rfl (Nat.le_refl _) (Nat.le_refl _) (List.suffix_refl _) id id id id id id id id id id h

theorem within_set_modes_drowse {cs : List Part} {r t : State} {x} (hc : subParts [.drowse] cs = true)  (h : Within cs r t) :
    Within cs r ⟨t.clock, t.power, { t.modes with drowse := x }, t.dict, t.mailbox, t.can, t.keys, t.flash, t.tally, t.tamper, t.jack, t.sluice, t.host, t.scratch, t.integ, t.coh, t.results, t.buckets, t.tcam, t.furrow, t.headgate, t.pair, t.chain, t.pending, t.fresh, t.out⟩ :=
  within_update rfl hc (fun p hp => by cases p <;> first | rfl | exact absurd (by decide) hp) rfl (Nat.le_refl _) (Nat.le_refl _) (List.suffix_refl _) id id id id id id id id id id h

theorem within_set_modes_busyAt {cs : List Part} {r t : State} {x} (hc : subParts [.busy] cs = true)  (h : Within cs r t) :
    Within cs r ⟨t.clock, t.power, { t.modes with busyAt := x }, t.dict, t.mailbox, t.can, t.keys, t.flash, t.tally, t.tamper, t.jack, t.sluice, t.host, t.scratch, t.integ, t.coh, t.results, t.buckets, t.tcam, t.furrow, t.headgate, t.pair, t.chain, t.pending, t.fresh, t.out⟩ :=
  within_update rfl hc (fun p hp => by cases p <;> first | rfl | exact absurd (by decide) hp) rfl (Nat.le_refl _) (Nat.le_refl _) (List.suffix_refl _) id id id id id id id id id id h

theorem within_set_modes_rootDone {cs : List Part} {r t : State} {x} (hc : subParts [.modes] cs = true)  (h : Within cs r t) :
    Within cs r ⟨t.clock, t.power, { t.modes with rootDone := x }, t.dict, t.mailbox, t.can, t.keys, t.flash, t.tally, t.tamper, t.jack, t.sluice, t.host, t.scratch, t.integ, t.coh, t.results, t.buckets, t.tcam, t.furrow, t.headgate, t.pair, t.chain, t.pending, t.fresh, t.out⟩ :=
  within_update rfl hc (fun p hp => by cases p <;> first | rfl | exact absurd (by decide) hp) rfl (Nat.le_refl _) (Nat.le_refl _) (List.suffix_refl _) id id id id id id id id id id h

theorem within_set_modes_fillDone {cs : List Part} {r t : State} {x} (hc : subParts [.modes] cs = true)  (h : Within cs r t) :
    Within cs r ⟨t.clock, t.power, { t.modes with fillDone := x }, t.dict, t.mailbox, t.can, t.keys, t.flash, t.tally, t.tamper, t.jack, t.sluice, t.host, t.scratch, t.integ, t.coh, t.results, t.buckets, t.tcam, t.furrow, t.headgate, t.pair, t.chain, t.pending, t.fresh, t.out⟩ :=
  within_update rfl hc (fun p hp => by cases p <;> first | rfl | exact absurd (by decide) hp) rfl (Nat.le_refl _) (Nat.le_refl _) (List.suffix_refl _) id id id id id id id id id id h

theorem within_set_modes_fillEnded {cs : List Part} {r t : State} {x} (hc : subParts [.modes] cs = true)  (h : Within cs r t) :
    Within cs r ⟨t.clock, t.power, { t.modes with fillEnded := x }, t.dict, t.mailbox, t.can, t.keys, t.flash, t.tally, t.tamper, t.jack, t.sluice, t.host, t.scratch, t.integ, t.coh, t.results, t.buckets, t.tcam, t.furrow, t.headgate, t.pair, t.chain, t.pending, t.fresh, t.out⟩ :=
  within_update rfl hc (fun p hp => by cases p <;> first | rfl | exact absurd (by decide) hp) rfl (Nat.le_refl _) (Nat.le_refl _) (List.suffix_refl _) id id id id id id id id id id h

theorem within_set_modes_classReady {cs : List Part} {r t : State} {x} (hc : subParts [.modes] cs = true)  (h : Within cs r t) :
    Within cs r ⟨t.clock, t.power, { t.modes with classReady := x }, t.dict, t.mailbox, t.can, t.keys, t.flash, t.tally, t.tamper, t.jack, t.sluice, t.host, t.scratch, t.integ, t.coh, t.results, t.buckets, t.tcam, t.furrow, t.headgate, t.pair, t.chain, t.pending, t.fresh, t.out⟩ :=
  within_update rfl hc (fun p hp => by cases p <;> first | rfl | exact absurd (by decide) hp) rfl (Nat.le_refl _) (Nat.le_refl _) (List.suffix_refl _) id id id id id id id id id id h

theorem within_set_modes_locked {cs : List Part} {r t : State} {x} (hc : subParts [.modes] cs = true)  (h : Within cs r t) :
    Within cs r ⟨t.clock, t.power, { t.modes with locked := x }, t.dict, t.mailbox, t.can, t.keys, t.flash, t.tally, t.tamper, t.jack, t.sluice, t.host, t.scratch, t.integ, t.coh, t.results, t.buckets, t.tcam, t.furrow, t.headgate, t.pair, t.chain, t.pending, t.fresh, t.out⟩ :=
  within_update rfl hc (fun p hp => by cases p <;> first | rfl | exact absurd (by decide) hp) rfl (Nat.le_refl _) (Nat.le_refl _) (List.suffix_refl _) id id id id id id id id id id h

theorem within_set_modes_quarantine {cs : List Part} {r t : State} {x} (hc : subParts [.modes] cs = true)  (h : Within cs r t) :
    Within cs r ⟨t.clock, t.power, { t.modes with quarantine := x }, t.dict, t.mailbox, t.can, t.keys, t.flash, t.tally, t.tamper, t.jack, t.sluice, t.host, t.scratch, t.integ, t.coh, t.results, t.buckets, t.tcam, t.furrow, t.headgate, t.pair, t.chain, t.pending, t.fresh, t.out⟩ :=
  within_update rfl hc (fun p hp => by cases p <;> first | rfl | exact absurd (by decide) hp) rfl (Nat.le_refl _) (Nat.le_refl _) (List.suffix_refl _) id id id id id id id id id id h

theorem within_set_modes_halted {cs : List Part} {r t : State} {x} (hc : subParts [.modes] cs = true)  (h : Within cs r t) :
    Within cs r ⟨t.clock, t.power, { t.modes with halted := x }, t.dict, t.mailbox, t.can, t.keys, t.flash, t.tally, t.tamper, t.jack, t.sluice, t.host, t.scratch, t.integ, t.coh, t.results, t.buckets, t.tcam, t.furrow, t.headgate, t.pair, t.chain, t.pending, t.fresh, t.out⟩ :=
  within_update rfl hc (fun p hp => by cases p <;> first | rfl | exact absurd (by decide) hp) rfl (Nat.le_refl _) (Nat.le_refl _) (List.suffix_refl _) id id id id id id id id id id h

theorem within_set_modes_refLost {cs : List Part} {r t : State} {x} (hc : subParts [.modes] cs = true)  (h : Within cs r t) :
    Within cs r ⟨t.clock, t.power, { t.modes with refLost := x }, t.dict, t.mailbox, t.can, t.keys, t.flash, t.tally, t.tamper, t.jack, t.sluice, t.host, t.scratch, t.integ, t.coh, t.results, t.buckets, t.tcam, t.furrow, t.headgate, t.pair, t.chain, t.pending, t.fresh, t.out⟩ :=
  within_update rfl hc (fun p hp => by cases p <;> first | rfl | exact absurd (by decide) hp) rfl (Nat.le_refl _) (Nat.le_refl _) (List.suffix_refl _) id id id id id id id id id id h

theorem within_set_modes_k8At {cs : List Part} {r t : State} {x} (hc : subParts [.modes] cs = true)  (h : Within cs r t) :
    Within cs r ⟨t.clock, t.power, { t.modes with k8At := x }, t.dict, t.mailbox, t.can, t.keys, t.flash, t.tally, t.tamper, t.jack, t.sluice, t.host, t.scratch, t.integ, t.coh, t.results, t.buckets, t.tcam, t.furrow, t.headgate, t.pair, t.chain, t.pending, t.fresh, t.out⟩ :=
  within_update rfl hc (fun p hp => by cases p <;> first | rfl | exact absurd (by decide) hp) rfl (Nat.le_refl _) (Nat.le_refl _) (List.suffix_refl _) id id id id id id id id id id h

theorem within_set_modes_fwStage {cs : List Part} {r t : State} {x} (hc : subParts [.modes] cs = true)  (h : Within cs r t) :
    Within cs r ⟨t.clock, t.power, { t.modes with fwStage := x }, t.dict, t.mailbox, t.can, t.keys, t.flash, t.tally, t.tamper, t.jack, t.sluice, t.host, t.scratch, t.integ, t.coh, t.results, t.buckets, t.tcam, t.furrow, t.headgate, t.pair, t.chain, t.pending, t.fresh, t.out⟩ :=
  within_update rfl hc (fun p hp => by cases p <;> first | rfl | exact absurd (by decide) hp) rfl (Nat.le_refl _) (Nat.le_refl _) (List.suffix_refl _) id id id id id id id id id id h

theorem within_set_modes_fwImage {cs : List Part} {r t : State} {x} (hc : subParts [.modes] cs = true)  (h : Within cs r t) :
    Within cs r ⟨t.clock, t.power, { t.modes with fwImage := x }, t.dict, t.mailbox, t.can, t.keys, t.flash, t.tally, t.tamper, t.jack, t.sluice, t.host, t.scratch, t.integ, t.coh, t.results, t.buckets, t.tcam, t.furrow, t.headgate, t.pair, t.chain, t.pending, t.fresh, t.out⟩ :=
  within_update rfl hc (fun p hp => by cases p <;> first | rfl | exact absurd (by decide) hp) rfl (Nat.le_refl _) (Nat.le_refl _) (List.suffix_refl _) id id id id id id id id id id h

theorem within_set_dict_live {cs : List Part} {r t : State} {x} (hc : subParts [.live] cs = true)  (h : Within cs r t) :
    Within cs r ⟨t.clock, t.power, t.modes, { t.dict with live := x }, t.mailbox, t.can, t.keys, t.flash, t.tally, t.tamper, t.jack, t.sluice, t.host, t.scratch, t.integ, t.coh, t.results, t.buckets, t.tcam, t.furrow, t.headgate, t.pair, t.chain, t.pending, t.fresh, t.out⟩ :=
  within_update rfl hc (fun p hp => by cases p <;> first | rfl | exact absurd (by decide) hp) rfl (Nat.le_refl _) (Nat.le_refl _) (List.suffix_refl _) id id id id id id id id id id h

theorem within_set_dict_staging {cs : List Part} {r t : State} {x} (hc : subParts [.dict] cs = true)  (h : Within cs r t) :
    Within cs r ⟨t.clock, t.power, t.modes, { t.dict with staging := x }, t.mailbox, t.can, t.keys, t.flash, t.tally, t.tamper, t.jack, t.sluice, t.host, t.scratch, t.integ, t.coh, t.results, t.buckets, t.tcam, t.furrow, t.headgate, t.pair, t.chain, t.pending, t.fresh, t.out⟩ :=
  within_update rfl hc (fun p hp => by cases p <;> first | rfl | exact absurd (by decide) hp) rfl (Nat.le_refl _) (Nat.le_refl _) (List.suffix_refl _) id id id id id id id id id id h

theorem within_set_dict_sealedBy {cs : List Part} {r t : State} {x} (hc : subParts [.dict] cs = true)  (h : Within cs r t) :
    Within cs r ⟨t.clock, t.power, t.modes, { t.dict with sealedBy := x }, t.mailbox, t.can, t.keys, t.flash, t.tally, t.tamper, t.jack, t.sluice, t.host, t.scratch, t.integ, t.coh, t.results, t.buckets, t.tcam, t.furrow, t.headgate, t.pair, t.chain, t.pending, t.fresh, t.out⟩ :=
  within_update rfl hc (fun p hp => by cases p <;> first | rfl | exact absurd (by decide) hp) rfl (Nat.le_refl _) (Nat.le_refl _) (List.suffix_refl _) id id id id id id id id id id h

theorem within_set_dict_kept {cs : List Part} {r t : State} {x} (hc : subParts [.dict] cs = true)  (h : Within cs r t) :
    Within cs r ⟨t.clock, t.power, t.modes, { t.dict with kept := x }, t.mailbox, t.can, t.keys, t.flash, t.tally, t.tamper, t.jack, t.sluice, t.host, t.scratch, t.integ, t.coh, t.results, t.buckets, t.tcam, t.furrow, t.headgate, t.pair, t.chain, t.pending, t.fresh, t.out⟩ :=
  within_update rfl hc (fun p hp => by cases p <;> first | rfl | exact absurd (by decide) hp) rfl (Nat.le_refl _) (Nat.le_refl _) (List.suffix_refl _) id id id id id id id id id id h

theorem within_set_dict_assembly {cs : List Part} {r t : State} {x} (hc : subParts [.dict] cs = true)  (h : Within cs r t) :
    Within cs r ⟨t.clock, t.power, t.modes, { t.dict with assembly := x }, t.mailbox, t.can, t.keys, t.flash, t.tally, t.tamper, t.jack, t.sluice, t.host, t.scratch, t.integ, t.coh, t.results, t.buckets, t.tcam, t.furrow, t.headgate, t.pair, t.chain, t.pending, t.fresh, t.out⟩ :=
  within_update rfl hc (fun p hp => by cases p <;> first | rfl | exact absurd (by decide) hp) rfl (Nat.le_refl _) (Nat.le_refl _) (List.suffix_refl _) id id id id id id id id id id h

theorem within_set_host_rings {cs : List Part} {r t : State} {x} (hc : subParts [.rings] cs = true) (h0 : t.host.rings.length = 8 → x.length = 8) (h : Within cs r t) :
    Within cs r ⟨t.clock, t.power, t.modes, t.dict, t.mailbox, t.can, t.keys, t.flash, t.tally, t.tamper, t.jack, t.sluice, { t.host with rings := x }, t.scratch, t.integ, t.coh, t.results, t.buckets, t.tcam, t.furrow, t.headgate, t.pair, t.chain, t.pending, t.fresh, t.out⟩ :=
  within_update rfl hc (fun p hp => by cases p <;> first | rfl | exact absurd (by decide) hp) rfl (Nat.le_refl _) (Nat.le_refl _) (List.suffix_refl _) h0 id id id id id id id id id h

theorem within_set_host_canSend {cs : List Part} {r t : State} {x} (hc : subParts [.endpoint] cs = true)  (h : Within cs r t) :
    Within cs r ⟨t.clock, t.power, t.modes, t.dict, t.mailbox, t.can, t.keys, t.flash, t.tally, t.tamper, t.jack, t.sluice, { t.host with canSend := x }, t.scratch, t.integ, t.coh, t.results, t.buckets, t.tcam, t.furrow, t.headgate, t.pair, t.chain, t.pending, t.fresh, t.out⟩ :=
  within_update rfl hc (fun p hp => by cases p <;> first | rfl | exact absurd (by decide) hp) rfl (Nat.le_refl _) (Nat.le_refl _) (List.suffix_refl _) id id id id id id id id id id h

theorem within_set_host_held {cs : List Part} {r t : State} {x} (hc : subParts [.endpoint] cs = true)  (h : Within cs r t) :
    Within cs r ⟨t.clock, t.power, t.modes, t.dict, t.mailbox, t.can, t.keys, t.flash, t.tally, t.tamper, t.jack, t.sluice, { t.host with held := x }, t.scratch, t.integ, t.coh, t.results, t.buckets, t.tcam, t.furrow, t.headgate, t.pair, t.chain, t.pending, t.fresh, t.out⟩ :=
  within_update rfl hc (fun p hp => by cases p <;> first | rfl | exact absurd (by decide) hp) rfl (Nat.le_refl _) (Nat.le_refl _) (List.suffix_refl _) id id id id id id id id id id h

theorem within_set_host_msixTable {cs : List Part} {r t : State} {x} (hc : subParts [.endpoint] cs = true) (h0 : Memory.wf t.host.msixTable = true → Memory.wf x = true) (h : Within cs r t) :
    Within cs r ⟨t.clock, t.power, t.modes, t.dict, t.mailbox, t.can, t.keys, t.flash, t.tally, t.tamper, t.jack, t.sluice, { t.host with msixTable := x }, t.scratch, t.integ, t.coh, t.results, t.buckets, t.tcam, t.furrow, t.headgate, t.pair, t.chain, t.pending, t.fresh, t.out⟩ :=
  within_update rfl hc (fun p hp => by cases p <;> first | rfl | exact absurd (by decide) hp) rfl (Nat.le_refl _) (Nat.le_refl _) (List.suffix_refl _) id h0 id id id id id id id id h

theorem within_set_keys_vault {cs : List Part} {r t : State} {x} (hc : subParts [.vault] cs = true)  (h : Within cs r t) :
    Within cs r ⟨t.clock, t.power, t.modes, t.dict, t.mailbox, t.can, { t.keys with vault := x }, t.flash, t.tally, t.tamper, t.jack, t.sluice, t.host, t.scratch, t.integ, t.coh, t.results, t.buckets, t.tcam, t.furrow, t.headgate, t.pair, t.chain, t.pending, t.fresh, t.out⟩ :=
  within_update rfl hc (fun p hp => by cases p <;> first | rfl | exact absurd (by decide) hp) rfl (Nat.le_refl _) (Nat.le_refl _) (List.suffix_refl _) id id id id id id id id id id h

theorem within_set_keys_lost {cs : List Part} {r t : State} {x} (hc : subParts [.keys] cs = true)  (h : Within cs r t) :
    Within cs r ⟨t.clock, t.power, t.modes, t.dict, t.mailbox, t.can, { t.keys with lost := x }, t.flash, t.tally, t.tamper, t.jack, t.sluice, t.host, t.scratch, t.integ, t.coh, t.results, t.buckets, t.tcam, t.furrow, t.headgate, t.pair, t.chain, t.pending, t.fresh, t.out⟩ :=
  within_update rfl hc (fun p hp => by cases p <;> first | rfl | exact absurd (by decide) hp) rfl (Nat.le_refl _) (Nat.le_refl _) (List.suffix_refl _) id id id id id id id id id id h

theorem within_set_keys_slots {cs : List Part} {r t : State} {x} (hc : subParts [.keys] cs = true)  (h : Within cs r t) :
    Within cs r ⟨t.clock, t.power, t.modes, t.dict, t.mailbox, t.can, { t.keys with slots := x }, t.flash, t.tally, t.tamper, t.jack, t.sluice, t.host, t.scratch, t.integ, t.coh, t.results, t.buckets, t.tcam, t.furrow, t.headgate, t.pair, t.chain, t.pending, t.fresh, t.out⟩ :=
  within_update rfl hc (fun p hp => by cases p <;> first | rfl | exact absurd (by decide) hp) rfl (Nat.le_refl _) (Nat.le_refl _) (List.suffix_refl _) id id id id id id id id id id h

theorem within_set_keys_event {cs : List Part} {r t : State} {x} (hc : subParts [.keys] cs = true)  (h : Within cs r t) :
    Within cs r ⟨t.clock, t.power, t.modes, t.dict, t.mailbox, t.can, { t.keys with event := x }, t.flash, t.tally, t.tamper, t.jack, t.sluice, t.host, t.scratch, t.integ, t.coh, t.results, t.buckets, t.tcam, t.furrow, t.headgate, t.pair, t.chain, t.pending, t.fresh, t.out⟩ :=
  within_update rfl hc (fun p hp => by cases p <;> first | rfl | exact absurd (by decide) hp) rfl (Nat.le_refl _) (Nat.le_refl _) (List.suffix_refl _) id id id id id id id id id id h

theorem within_set_headgate_links {cs : List Part} {r t : State} {x} (hc : subParts [.links] cs = true) (h0 : t.headgate.links.length = 8 → x.length = 8) (h : Within cs r t) :
    Within cs r ⟨t.clock, t.power, t.modes, t.dict, t.mailbox, t.can, t.keys, t.flash, t.tally, t.tamper, t.jack, t.sluice, t.host, t.scratch, t.integ, t.coh, t.results, t.buckets, t.tcam, t.furrow, { t.headgate with links := x }, t.pair, t.chain, t.pending, t.fresh, t.out⟩ :=
  within_update rfl hc (fun p hp => by cases p <;> first | rfl | exact absurd (by decide) hp) rfl (Nat.le_refl _) (Nat.le_refl _) (List.suffix_refl _) id id h0 id id id id id id id h

theorem within_set_headgate_slots {cs : List Part} {r t : State} {x} (hc : subParts [.slots] cs = true)  (h : Within cs r t) :
    Within cs r ⟨t.clock, t.power, t.modes, t.dict, t.mailbox, t.can, t.keys, t.flash, t.tally, t.tamper, t.jack, t.sluice, t.host, t.scratch, t.integ, t.coh, t.results, t.buckets, t.tcam, t.furrow, { t.headgate with slots := x }, t.pair, t.chain, t.pending, t.fresh, t.out⟩ :=
  within_update rfl hc (fun p hp => by cases p <;> first | rfl | exact absurd (by decide) hp) rfl (Nat.le_refl _) (Nat.le_refl _) (List.suffix_refl _) id id id id id id id id id id h

theorem within_mkP {α : Type} {cs : List Part} {r s : State} {x : α} (h : Within cs r s) : PairWithin cs r (x, s) := h

theorem within_mkP2 {α β : Type} {cs : List Part} {r s : State} {x : α} {y : β} (h : Within cs r s) : TripleWithin cs r (x, y, s) := h

theorem within_some {cs : List Part} {r s : State} (h : Within cs r s) : OptWithin cs r (some s) := fun _ e => by cases e; exact h

theorem within_none {cs : List Part} {r : State} : OptWithin cs r none := fun _ e => nomatch e

theorem within_someP {α : Type} {cs : List Part} {r s : State} {x : α} (h : Within cs r s) : OptPairWithin cs r (some (x, s)) := fun _ _ e => by cases e; exact h

theorem within_inr {α : Type} {cs : List Part} {r s : State} (h : Within cs r s) : SumWithin (α := α) cs r (.inr s) := fun _ e => by cases e; exact h

theorem within_inl {α : Type} {cs : List Part} {r : State} {x : α} : SumWithin cs r (.inl x) := fun _ e => nomatch e

theorem within_next {cs : List Part} {r s : State} (h : Within cs r s) : ResultWithin cs r (.next s) := fun _ e => by cases e; exact h

theorem within_fault {cs : List Part} {r : State} {f} : ResultWithin cs r (.fault f) := fun _ e => nomatch e

theorem within_onUnit {cs : List Part} {r s : State} {b} (h : Within cs r s) : ResultWithin cs r (onUnit b s) := by
  unfold onUnit; split
  · exact within_next h
  · exact within_fault

theorem within_odone {cs : List Part} {r s : State} {a b} (h : Within cs r s) : OpWithin cs r (.done a b s) := h

theorem within_ofail {cs : List Part} {r s : State} {a b} (h : Within cs r s) : OpWithin cs r (.fail a b s) := h

theorem within_ochain {cs : List Part} {r s : State} {a b} (h : Within cs r s) : OpWithin cs r (.chain a b s) := h

theorem within_owait {cs : List Part} {r : State} : OpWithin cs r .wait := trivial

theorem within_mosome {cs : List Part} {r : State} {x} (h : OpWithin cs r x) : OptOpWithin cs r (some x) := fun _ e => by cases e; exact h

theorem within_monone {cs : List Part} {r : State} : OptOpWithin cs r none := fun _ e => nomatch e

theorem within_soinr {α : Type} {cs : List Part} {r : State} {x} (h : OpWithin cs r x) : SumOpWithin (α := α) cs r (.inr x) := fun _ e => by cases e; exact h

theorem within_soinl {α : Type} {cs : List Part} {r : State} {x : α} : SumOpWithin cs r (.inl x) := fun _ e => nomatch e

theorem within_of_pair {α : Type} {cs : List Part} {r t : State} {p : α × State} {x : α} (e : p = (x, t)) (h : PairWithin cs r p) : Within cs r t := by subst e; exact h

theorem within_of_pair2 {α β : Type} {cs : List Part} {r t : State} {p : α × β × State} {x : α} {y : β} (e : p = (x, y, t)) (h : TripleWithin cs r p) : Within cs r t := by subst e; exact h

theorem within_of_some {cs : List Part} {r t : State} {p : Option State} (e : p = some t) (h : OptWithin cs r p) : Within cs r t := h t e

theorem within_inrP {α β : Type} {cs : List Part} {r s : State} {x : β} (h : Within cs r s) : SumPairWithin (α := α) cs r (.inr (x, s)) := fun _ _ e => by cases e; exact h

theorem within_inlP {α β : Type} {cs : List Part} {r : State} {x : α} : SumPairWithin (β := β) cs r (.inl x) := fun _ _ e => nomatch e

theorem within_of_inrP {α β : Type} {cs : List Part} {r t : State} {p : α ⊕ β × State} {x} (e : p = .inr (x, t)) (h : SumPairWithin cs r p) : Within cs r t := h x t e

theorem ite_SumPairWithin {α β : Type} {c : Prop} [Decidable c] {cs : List Part} {r : State} {a b : α ⊕ β × State} (ha : c → SumPairWithin cs r a) (hb : ¬c → SumPairWithin cs r b) : SumPairWithin cs r (if c then a else b) := by
  split
  · exact ha ‹_›
  · exact hb ‹_›

theorem within_mapP {α β : Type} {cs : List Part} {r : State} {f : α → β × State} {o : Option α} (h : ∀ x, PairWithin cs r (f x)) : OptPairWithin cs r (o.map f) := by
  intro x t e
  cases o with
  | none => exact nomatch e
  | some a => have q := h a; cases e' : f a; rw [e'] at q; simp only [Option.map, e'] at e; cases e; exact q

theorem within_mapMP {α β : Type} {cs : List Part} {r : State} {f : α × State → β × State} {o : Option (α × State)} (h : OptPairWithin cs r o) (g : ∀ p : α × State, Within cs r p.2 → PairWithin cs r (f p)) : OptPairWithin cs r (o.map f) := by
  intro x t e
  cases o with
  | none => exact nomatch e
  | some a => have q := g a (h a.1 a.2 rfl); cases e' : f a; rw [e'] at q; simp only [Option.map, e'] at e; cases e; exact q

theorem within_mapPM {α : Type} {cs : List Part} {r : State} {f : α × State → State} {o : Option (α × State)} (h : OptPairWithin cs r o) (g : ∀ p : α × State, Within cs r p.2 → Within cs r (f p)) : OptWithin cs r (o.map f) := by
  intro t e
  cases o with
  | none => exact nomatch e
  | some a => cases e; exact g a (h a.1 a.2 rfl)

theorem within_bindM {cs : List Part} {r : State} {f : State → Option State} {o : Option State} (h : OptWithin cs r o) (g : ∀ t, Within cs r t → OptWithin cs r (f t)) : OptWithin cs r (o.bind f) := by
  cases o with
  | none => exact fun _ e => nomatch e
  | some a => exact g a (h a rfl)

theorem within_bindPM {α : Type} {cs : List Part} {r : State} {f : α × State → Option State} {o : Option (α × State)} (h : OptPairWithin cs r o) (g : ∀ p : α × State, Within cs r p.2 → OptWithin cs r (f p)) : OptWithin cs r (o.bind f) := by
  cases o with
  | none => exact fun _ e => nomatch e
  | some a => exact g a (h a.1 a.2 rfl)

theorem within_bindMP {α β : Type} {cs : List Part} {r : State} {f : α × State → Option (β × State)} {o : Option (α × State)} (h : OptPairWithin cs r o) (g : ∀ p : α × State, Within cs r p.2 → OptPairWithin cs r (f p)) : OptPairWithin cs r (o.bind f) := by
  cases o with
  | none => exact fun _ _ e => nomatch e
  | some a => exact g a (h a.1 a.2 rfl)

theorem within_of_inr {α : Type} {cs : List Part} {r t : State} {p : α ⊕ State} (e : p = .inr t) (h : SumWithin cs r p) : Within cs r t := h t e

theorem within_of_done {cs : List Part} {r t : State} {p : OpRes} {a b} (e : p = .done a b t) (h : OpWithin cs r p) : Within cs r t := by subst e; exact h

theorem within_of_fail {cs : List Part} {r t : State} {p : OpRes} {a b} (e : p = .fail a b t) (h : OpWithin cs r p) : Within cs r t := by subst e; exact h

theorem within_of_chain {cs : List Part} {r t : State} {p : OpRes} {a b} (e : p = .chain a b t) (h : OpWithin cs r p) : Within cs r t := by subst e; exact h

theorem within_of_mo {cs : List Part} {r : State} {p : Option OpRes} {x} (e : p = some x) (h : OptOpWithin cs r p) : OpWithin cs r x := h x e

theorem within_of_so {α : Type} {cs : List Part} {r : State} {p : α ⊕ OpRes} {x} (e : p = .inr x) (h : SumOpWithin cs r p) : OpWithin cs r x := h x e

theorem within_mapM {cs : List Part} {r : State} {o : Option State} {f : State → State} (h : OptWithin cs r o)
    (g : ∀ x, Within cs r x → Within cs r (f x)) : OptWithin cs r (o.map f) := by
  intro t e
  cases o with
  | none => cases e
  | some x => cases e; exact g _ (h _ rfl)

theorem within_map {α : Type} {cs : List Part} {r : State} {f : α → State} {o : Option α} (h : ∀ x, Within cs r (f x)) : OptWithin cs r (o.map f) := by
  intro t e
  cases o with
  | none => exact nomatch e
  | some x => cases e; exact h x

theorem within_findSome {α : Type} {cs : List Part} {r : State} {f : α → Option State} {l : List α} (h : ∀ x, OptWithin cs r (f x)) : OptWithin cs r (l.findSome? f) := by
  intro t e
  obtain ⟨x, _, hx⟩ := List.exists_of_findSome?_eq_some e
  exact h x t hx

theorem within_snd {α : Type} {cs : List Part} {r : State} {p : α × State} (h : PairWithin cs r p) : Within cs r p.2 := h

theorem within_foldl {α : Type} {cs : List Part} {r : State} {f : State → α → State} {l : List α} {s : State}
    (hf : ∀ s x, Within cs r s → Within cs r (f s x)) (h : Within cs r s) : Within cs r (l.foldl f s) := by
  induction l generalizing s with
  | nil => exact h
  | cons x l ih => exact ih (hf s x h)

end Sys2Proof.Machine
end

