-- ==== Sys2Proof/Laws/WithinStores.lean ====
section
/-! SUPPORT. What each operation of the stores, the scratchpad, links and learning may change, once for each (`<operation>_within`); callers cite these and do not unfold. -/

set_option linter.unusedVariables false
set_option linter.unusedSimpArgs false
namespace Sys2Proof.Machine

theorem drawFresh_within {cs : List Part} {r : State} (s : State) (hc : subParts [.fresh] cs = true) (h : Within cs r s) : PairWithin cs r (drawFresh s) := by
  delta drawFresh
  with_reducible refine within_mkP ?_
  with_reducible refine within_set_fresh (sub_of hc (by decide)) ?_ ?_
  with_reducible exact Nat.le_add_right _ _
  with_reducible assumption

theorem State.put_within {cs : List Part} {r : State} (s : State) (k : Nat) (v : Nat) (hc : subParts [.live] cs = true) (h : Within cs r s) : Within cs r (State.put s k v) := by
  delta State.put
  with_reducible refine within_set_dict_live (sub_of hc (by decide)) ?_
  with_reducible assumption

theorem State.setObj_within {cs : List Part} {r : State} (s : State) (k : Nat) (v : Nat) (hc : subParts [.live] cs = true) (h : Within cs r s) : Within cs r (State.setObj s k v) := by
  delta State.setObj
  with_reducible refine within_set_dict_live (sub_of hc (by decide)) ?_
  with_reducible assumption

theorem State.bumpBy_within {cs : List Part} {r : State} (s : State) (k : Nat) (n : Nat) (hc : subParts [.live] cs = true) (h : Within cs r s) : Within cs r (State.bumpBy s k n) := by
  delta State.bumpBy
  with_reducible apply State.put_within
  with_reducible exact sub_of hc (by decide)
  with_reducible assumption

theorem State.bump_within {cs : List Part} {r : State} (s : State) (k : Nat) (hc : subParts [.live] cs = true) (h : Within cs r s) : Within cs r (State.bump s k) := by
  delta State.bump
  with_reducible apply State.bumpBy_within
  with_reducible exact sub_of hc (by decide)
  with_reducible assumption

theorem State.peak_within {cs : List Part} {r : State} (s : State) (k : Nat) (v : Nat) (hc : subParts [.live] cs = true) (h : Within cs r s) : Within cs r (State.peak s k v) := by
  delta State.peak
  with_reducible apply State.put_within
  with_reducible exact sub_of hc (by decide)
  with_reducible assumption

theorem emit_within {cs : List Part} {r : State} (o : Output) (s : State) (hc : subParts [.out] cs = true) (h : Within cs r s) : Within cs r (emit o s) := by
  delta emit
  with_reducible refine within_set_out (sub_of hc (by decide)) (List.suffix_cons _ _) ?_
  with_reducible assumption

theorem vector_within {cs : List Part} {r : State} (v : Nat) (s : State) (hc : subParts [.endpoint, .out] cs = true) (h : Within cs r s) : Within cs r (vector v s) := by
  delta vector
  with_reducible refine within_ite (fun _ => ?_) (fun _ => ?_)
  with_reducible apply emit_within
  with_reducible exact sub_of hc (by decide)
  with_reducible assumption
  with_reducible refine within_set_host_held (sub_of hc (by decide)) ?_
  with_reducible assumption

theorem sign_within {cs : List Part} {r : State} (m : Sys2Proof.Bytes) (s : State) (hc : subParts [.fresh] cs = true) (h : Within cs r s) : PairWithin cs r (sign m s) := by
  delta sign
  split
  with_reducible refine within_mkP ?_
  with_reducible refine within_of_pair (by assumption) ?_
  with_reducible apply drawFresh_within
  with_reducible exact sub_of hc (by decide)
  with_reducible assumption

theorem drbg16_within {cs : List Part} {r : State} (s : State) (hc : subParts [.fresh] cs = true) (h : Within cs r s) : PairWithin cs r (drbg16 s) := by
  delta drbg16
  split
  with_reducible refine within_mkP ?_
  with_reducible refine within_of_pair (by assumption) ?_
  with_reducible apply drawFresh_within
  with_reducible exact sub_of hc (by decide)
  with_reducible assumption

theorem onVault_within {cs : List Part} {r : State} (f : Vault → Vault) (s : State) (hc : subParts [.vault] cs = true) (h : Within cs r s) : Within cs r (onVault f s) := by
  delta onVault
  with_reducible refine within_ite (fun _ => ?_) (fun _ => ?_)
  extract_lets a7 a8
  with_reducible refine within_set_keys_vault (sub_of hc (by decide)) ?_
  with_reducible assumption
  with_reducible assumption

theorem numberOne_within {cs : List Part} {r : State} (type : Nat) (cont : Bool) (data : Sys2Proof.Bytes) (s : State) (hc : subParts [.vault, .tally, .endpoint, .out] cs = true) (h : Within cs r s) : Within cs r (numberOne type cont data s) := by
  delta numberOne
  extract_lets a8 a9 a10 a11 a12
  have e_a11 : Within cs r a11 := by
    unfold a11
    with_reducible refine within_set_tally (sub_of hc (by decide)) ?_
    with_reducible assumption
  clear_value a11
  have e_a12 : Within cs r a12 := by
    unfold a12
    with_reducible apply onVault_within
    with_reducible exact sub_of hc (by decide)
    with_reducible assumption
  clear_value a12
  with_reducible refine within_ite (fun _ => ?_) (fun _ => ?_)
  with_reducible apply vector_within
  with_reducible exact sub_of hc (by decide)
  with_reducible assumption
  with_reducible assumption

theorem numberPieces_within {cs : List Part} {r : State} (type : Nat) (a1 : List Sys2Proof.Bytes) (a2 : State) (hc : subParts [.vault, .tally, .endpoint, .out] cs = true) (h : Within cs r a2) : Within cs r (numberPieces type a1 a2) := by
  induction a1 generalizing type a2 with
| nil => ?_
| cons d ds ih => ?_
  exact numberOne_within _ _ _ _ (sub_of hc (by decide)) h
  cases ds
  exact numberOne_within _ _ _ _ (sub_of hc (by decide)) h
  exact ih _ _ (numberOne_within _ _ _ _ (sub_of hc (by decide)) h)

theorem numberRecord_within {cs : List Part} {r : State} (type : Nat) (data : Sys2Proof.Bytes) (s : State) (hc : subParts [.vault, .tally, .endpoint, .out] cs = true) (h : Within cs r s) : Within cs r (numberRecord type data s) := by
  delta numberRecord
  with_reducible apply numberPieces_within
  with_reducible exact sub_of hc (by decide)
  with_reducible assumption

theorem journal_within {cs : List Part} {r : State} (type : Nat) (data : Sys2Proof.Bytes) (s : State) (hc : subParts [.vault, .tally, .endpoint, .out] cs = true) (h : Within cs r s) : Within cs r (journal type data s) := by
  delta journal
  with_reducible refine within_ite (fun _ => ?_) (fun _ => ?_)
  with_reducible apply numberRecord_within
  with_reducible exact sub_of hc (by decide)
  with_reducible assumption
  with_reducible refine within_set_tally (sub_of hc (by decide)) ?_
  with_reducible assumption

theorem journalWaiting_within {cs : List Part} {r : State} (s : State) (hc : subParts [.vault, .tally, .endpoint, .out] cs = true) (h : Within cs r s) : Within cs r (journalWaiting s) := by
  delta journalWaiting
  extract_lets a5 a6
  with_reducible refine within_foldl (fun _ _ _ => ?_) ?_
  with_reducible apply numberRecord_within
  with_reducible exact sub_of hc (by decide)
  with_reducible assumption
  with_reducible refine within_set_tally (sub_of hc (by decide)) ?_
  with_reducible assumption

theorem changeMode_within {cs : List Part} {r : State} (mode : Nat) (cause : Nat) (s : State) (hc : subParts [.mode, .busy, .vault, .tally, .endpoint, .out] cs = true) (h : Within cs r s) (hm : legalMode mode) : Within cs r (changeMode mode cause s) := by
  delta changeMode
  extract_lets a8 a9
  with_reducible refine within_ite (fun _ => ?_) (fun _ => ?_)
  with_reducible assumption
  with_reducible apply journal_within
  with_reducible exact sub_of hc (by decide)
  with_reducible refine within_update (ps := [.mode, .busy]) rfl (sub_of hc (by decide)) (fun p hp => by cases p <;> first | exact absurd (by decide) hp | with_unfolding_all rfl) ?_ ?_ ?_ ?_ ?_ ?_ ?_ ?_ ?_ ?_ ?_ ?_ ?_ ?_ ?_
  with_reducible rfl
  with_reducible exact Nat.le_refl _
  with_reducible exact Nat.le_refl _
  with_reducible exact List.suffix_refl _
  with_reducible exact id
  with_reducible exact id
  with_reducible exact id
  with_reducible exact id
  with_reducible exact id
  with_reducible intro _
  with_reducible assumption
  with_reducible exact id
  with_reducible exact id
  with_reducible exact id
  with_reducible exact id
  with_reducible assumption

theorem settleMode_within {cs : List Part} {r : State} (cause : Nat) (s : State) (hc : subParts [.mode, .busy, .vault, .tally, .endpoint, .out] cs = true) (h : Within cs r s) : Within cs r (settleMode cause s) := by
  delta settleMode
  with_reducible refine within_ite (fun _ => ?_) (fun _ => ?_)
  with_reducible apply changeMode_within
  with_reducible exact sub_of hc (by decide)
  with_reducible assumption
  with_reducible exact modeNow_legal _
  with_reducible assumption

theorem drowseBusy_within {cs : List Part} {r : State} (s : State) (hc : subParts [.busy] cs = true) (h : Within cs r s) : Within cs r (drowseBusy s) := by
  delta drowseBusy
  with_reducible refine within_set_modes_busyAt (sub_of hc (by decide)) ?_
  with_reducible assumption

theorem drowseTrigger_within {cs : List Part} {r : State} (s : State) (hc : subParts [.drowse, .busy] cs = true) (h : Within cs r s) : Within cs r (drowseTrigger s) := by
  delta drowseTrigger
  extract_lets a5 a6
  have e_a5 : Within cs r a5 := by
    unfold a5
    with_reducible apply drowseBusy_within
    with_reducible exact sub_of hc (by decide)
    with_reducible assumption
  clear_value a5
  with_reducible refine within_ite (fun _ => ?_) (fun _ => ?_)
  with_reducible refine within_update (ps := [.drowse]) rfl (sub_of hc (by decide)) (fun p hp => by cases p <;> first | exact absurd (by decide) hp | with_unfolding_all rfl) rfl (Nat.le_refl _) (Nat.le_refl _) (List.suffix_refl _) id id id id id id id id id id ?_
  with_reducible assumption
  with_reducible refine within_ite (fun _ => ?_) (fun _ => ?_)
  with_reducible refine within_update (ps := [.drowse]) rfl (sub_of hc (by decide)) (fun p hp => by cases p <;> first | exact absurd (by decide) hp | with_unfolding_all rfl) rfl (Nat.le_refl _) (Nat.le_refl _) (List.suffix_refl _) id id id id id id id id id id ?_
  with_reducible assumption
  with_reducible assumption

theorem canSend_within {cs : List Part} {r : State} (cob : Nat) (data : Sys2Proof.Bytes) (s : State) (hc : subParts [.out] cs = true) (h : Within cs r s) : Within cs r (canSend cob data s) := by
  delta canSend
  with_reducible refine within_ite (fun _ => ?_) (fun _ => ?_)
  with_reducible apply emit_within
  with_reducible exact sub_of hc (by decide)
  with_reducible assumption
  with_reducible assumption

theorem emcyNow_within {cs : List Part} {r : State} (code : Nat) (b : Sys2Proof.Bytes) (s : State) (hc : subParts [.faults, .out] cs = true) (h : Within cs r s) : Within cs r (emcyNow code b s) := by
  delta emcyNow
  extract_lets a7 a8 a9
  have e_a9 : Within cs r a9 := by
    unfold a9
    with_reducible refine within_set_modes_emcyAt (sub_of hc (by decide)) ?_
    with_reducible assumption
  clear_value a9
  with_reducible refine within_ite (fun _ => ?_) (fun _ => ?_)
  with_reducible assumption
  with_reducible apply canSend_within
  with_reducible exact sub_of hc (by decide)
  with_reducible assumption

theorem emcySpaced_within {cs : List Part} {r : State} (code : Nat) (b : Sys2Proof.Bytes) (s : State) (hc : subParts [.faults, .live, .out] cs = true) (h : Within cs r s) : Within cs r (emcySpaced code b s) := by
  delta emcySpaced
  extract_lets a7 a8 a9
  have e_a8 : Within cs r a8 := by
    unfold a8
    with_reducible refine within_ite (fun _ => ?_) (fun _ => ?_)
    with_reducible apply State.bump_within
    with_reducible exact sub_of hc (by decide)
    with_reducible assumption
    with_reducible assumption
  clear_value a8
  with_reducible refine within_ite (fun _ => ?_) (fun _ => ?_)
  with_reducible refine within_set_modes_emcyWait (sub_of hc (by decide)) ?_
  with_reducible assumption
  with_reducible apply emcyNow_within
  with_reducible exact sub_of hc (by decide)
  with_reducible assumption

theorem emcy_within {cs : List Part} {r : State} (code : Nat) (raised : Bool) (detail : Nat) (s : State) (hc : subParts [.faults, .live, .out] cs = true) (h : Within cs r s) : Within cs r (emcy code raised detail s) := by
  delta emcy
  extract_lets a8 a9
  with_reducible refine within_ite (fun _ => ?_) (fun _ => ?_)
  with_reducible assumption
  with_reducible refine within_ite (fun _ => ?_) (fun _ => ?_)
  with_reducible refine within_set_modes_early (sub_of hc (by decide)) ?_
  with_reducible assumption
  with_reducible apply emcySpaced_within
  with_reducible exact sub_of hc (by decide)
  with_reducible assumption

theorem raiseFault_within {cs : List Part} {r : State} (code : Nat) (detail : Nat) (s : State) (hc : subParts [.faults, .live, .endpoint, .out] cs = true) (h : Within cs r s) : Within cs r (raiseFault code detail s) := by
  delta raiseFault
  extract_lets a7 a8 a9 a10 a11 a12 a13
  have e_a9 : Within cs r a9 := by
    unfold a9
    with_reducible refine within_set_modes_active (sub_of hc (by decide)) ?_
    with_reducible assumption
  clear_value a9
  have e_a10 : Within cs r a10 := by
    unfold a10
    with_reducible apply State.bump_within
    with_reducible exact sub_of hc (by decide)
    with_reducible assumption
  clear_value a10
  have e_a11 : Within cs r a11 := by
    unfold a11
    with_reducible apply State.put_within
    with_reducible exact sub_of hc (by decide)
    with_reducible assumption
  clear_value a11
  have e_a12 : Within cs r a12 := by
    unfold a12
    with_reducible apply State.put_within
    with_reducible exact sub_of hc (by decide)
    with_reducible assumption
  clear_value a12
  have e_a13 : Within cs r a13 := by
    unfold a13
    with_reducible apply State.put_within
    with_reducible exact sub_of hc (by decide)
    with_reducible assumption
  clear_value a13
  with_reducible refine within_ite (fun _ => ?_) (fun _ => ?_)
  with_reducible assumption
  with_reducible apply vector_within
  with_reducible exact sub_of hc (by decide)
  with_reducible apply emcy_within
  with_reducible exact sub_of hc (by decide)
  with_reducible assumption

theorem clearFault_within {cs : List Part} {r : State} (code : Nat) (s : State) (hc : subParts [.faults, .live, .endpoint, .out] cs = true) (h : Within cs r s) : Within cs r (clearFault code s) := by
  delta clearFault
  split
  with_reducible assumption
  extract_lets a11 a12 a13 a14 a15
  have e_a12 : Within cs r a12 := by
    unfold a12
    with_reducible refine within_set_modes_active (sub_of hc (by decide)) ?_
    with_reducible assumption
  clear_value a12
  have e_a13 : Within cs r a13 := by
    unfold a13
    with_reducible apply State.put_within
    with_reducible exact sub_of hc (by decide)
    with_reducible assumption
  clear_value a13
  have e_a14 : Within cs r a14 := by
    unfold a14
    with_reducible apply State.put_within
    with_reducible exact sub_of hc (by decide)
    with_reducible assumption
  clear_value a14
  have e_a15 : Within cs r a15 := by
    unfold a15
    with_reducible apply State.put_within
    with_reducible exact sub_of hc (by decide)
    with_reducible assumption
  clear_value a15
  with_reducible apply vector_within
  with_reducible exact sub_of hc (by decide)
  with_reducible apply emcy_within
  with_reducible exact sub_of hc (by decide)
  with_reducible assumption

theorem quarantineMark_within {cs : List Part} {r : State} (u : Nat) (s : State) (hc : subParts [.modes, .mode, .faults, .busy, .live, .vault, .tally, .endpoint, .out] cs = true) (h : Within cs r s) : Within cs r (quarantineMark u s) := by
  delta quarantineMark
  with_reducible refine within_ite (fun _ => ?_) (fun _ => ?_)
  with_reducible assumption
  with_reducible apply raiseFault_within
  with_reducible exact sub_of hc (by decide)
  with_reducible apply settleMode_within
  with_reducible exact sub_of hc (by decide)
  with_reducible refine within_set_modes_quarantine (sub_of hc (by decide)) ?_
  with_reducible assumption

theorem setLocked_within {cs : List Part} {r : State} (mask : Nat) (s : State) (hc : subParts [.modes, .mode, .faults, .busy, .live, .vault, .tally, .endpoint, .out] cs = true) (h : Within cs r s) : Within cs r (setLocked mask s) := by
  delta setLocked
  extract_lets a6 a7
  have e_a7 : Within cs r a7 := by
    unfold a7
    with_reducible refine within_set_modes_locked (sub_of hc (by decide)) ?_
    with_reducible assumption
  clear_value a7
  with_reducible refine within_ite (fun _ => ?_) (fun _ => ?_)
  with_reducible apply settleMode_within
  with_reducible exact sub_of hc (by decide)
  with_reducible apply clearFault_within
  with_reducible exact sub_of hc (by decide)
  with_reducible assumption
  with_reducible apply raiseFault_within
  with_reducible exact sub_of hc (by decide)
  with_reducible apply settleMode_within
  with_reducible exact sub_of hc (by decide)
  with_reducible assumption

theorem onFurrow_within {cs : List Part} {r : State} (f : Furrow → Furrow) (s : State) (hc : subParts [.furrow] cs = true) (h : Within cs r s) : Within cs r (onFurrow f s) := by
  delta onFurrow
  with_reducible refine within_set_furrow (sub_of hc (by decide)) ?_
  with_reducible assumption

theorem takeBlock_within {cs : List Part} {r : State} (st : Nat) (n : Nat) (s : State) (hc : subParts [.furrow, .fresh] cs = true) (h : Within cs r s) : OptPairWithin cs r (takeBlock st n s) := by
  delta takeBlock
  extract_lets a7
  split
  with_reducible refine within_mapP (fun _ => ?_)
  with_reducible refine within_mkP ?_
  with_reducible apply onFurrow_within
  with_reducible exact sub_of hc (by decide)
  with_reducible refine within_of_pair (by assumption) ?_
  with_reducible apply drawFresh_within
  with_reducible exact sub_of hc (by decide)
  with_reducible assumption

theorem takeBlocks_within {cs : List Part} {r : State} (st : Nat) (a1 : List Nat) (a2 : State) (hc : subParts [.furrow, .fresh] cs = true) (h : Within cs r a2) : OptPairWithin cs r (takeBlocks st a1 a2) := by
  induction a1 generalizing a2 with
| nil => ?_
| cons x l ih => ?_
  all_goals rw [takeBlocks]
  with_reducible refine within_someP ?_
  with_reducible assumption
  with_reducible refine within_bindMP ?_ (fun _ _ => ?_)
  with_reducible apply takeBlock_within
  with_reducible exact sub_of hc (by decide)
  with_reducible assumption
  with_reducible refine within_mapMP ?_ (fun _ _ => ?_)
  with_reducible apply ih
  with_reducible assumption
  with_reducible refine within_mkP ?_
  with_reducible assumption

theorem placeIn_within {cs : List Part} {r : State} (t : Nat) (counts : List Nat) (n : Nat × Nat × Nat) (s : State) (st : Nat) (hc : subParts [.furrow, .fresh] cs = true) (h : Within cs r s) : OptWithin cs r (placeIn t counts n s st) := by
  delta placeIn
  with_reducible refine within_bindPM ?_ (fun _ _ => ?_)
  with_reducible apply takeBlock_within
  with_reducible exact sub_of hc (by decide)
  with_reducible assumption
  with_reducible refine within_mapPM ?_ (fun _ _ => ?_)
  with_reducible apply takeBlocks_within
  with_reducible exact sub_of hc (by decide)
  with_reducible assumption
  extract_lets a13
  with_reducible apply onFurrow_within
  with_reducible exact sub_of hc (by decide)
  with_reducible assumption

theorem placeNode_within {cs : List Part} {r : State} (t : Nat) (n : Nat × Nat × Nat) (s : State) (hc : subParts [.furrow, .fresh] cs = true) (h : Within cs r s) : OptWithin cs r (placeNode t n s) := by
  delta placeNode
  extract_lets a7 a8
  with_reducible refine within_findSome (fun _ => ?_)
  with_reducible apply placeIn_within
  with_reducible exact sub_of hc (by decide)
  with_reducible refine within_set_fresh (sub_of hc (by decide)) ?_ ?_
  with_reducible exact Nat.le_add_right _ _
  with_reducible assumption

theorem placeNodes_within {cs : List Part} {r : State} (t : Nat) (a1 : List (Nat × Nat × Nat)) (a2 : State) (hc : subParts [.furrow, .fresh] cs = true) (h : Within cs r a2) : OptWithin cs r (placeNodes t a1 a2) := by
  induction a1 generalizing a2 with
| nil => ?_
| cons x l ih => ?_
  all_goals rw [placeNodes]
  with_reducible refine within_some ?_
  with_reducible assumption
  with_reducible refine within_bindM ?_ (fun _ _ => ?_)
  with_reducible apply placeNode_within
  with_reducible exact sub_of hc (by decide)
  with_reducible assumption
  with_reducible apply ih
  with_reducible assumption

theorem setRoot_within {cs : List Part} {r : State} (t : Nat) (s : State) (hc : subParts [.furrow] cs = true) (h : Within cs r s) : Within cs r (setRoot t s) := by
  delta setRoot
  with_reducible apply onFurrow_within
  with_reducible exact sub_of hc (by decide)
  with_reducible assumption

theorem writeWords_within {cs : List Part} {r : State} (ws : List (Nat × Nat)) (s : State) (hc : subParts [.furrow] cs = true) (h : Within cs r s) : Within cs r (writeWords ws s) := by
  delta writeWords
  with_reducible refine within_foldl (fun _ _ _ => ?_) ?_
  with_reducible apply onFurrow_within
  with_reducible exact sub_of hc (by decide)
  with_reducible assumption
  with_reducible assumption

theorem dropPlaces_within {cs : List Part} {r : State} (t : Nat) (ns : List (Nat × Nat × Nat)) (s : State) (hc : subParts [.furrow] cs = true) (h : Within cs r s) : Within cs r (dropPlaces t ns s) := by
  delta dropPlaces
  with_reducible refine within_foldl (fun _ _ _ => ?_) ?_
  with_reducible apply onFurrow_within
  with_reducible exact sub_of hc (by decide)
  with_reducible assumption
  with_reducible assumption

theorem moveBlock_within {cs : List Part} {r : State} (t : Nat) (w : PublishWrite) (s : State) (hc : subParts [.furrow, .fresh] cs = true) (h : Within cs r s) : OptPairWithin cs r (moveBlock t w s) := by
  delta moveBlock
  split
  split
  with_reducible refine within_someP ?_
  with_reducible assumption
  with_reducible refine within_mapMP ?_ (fun _ _ => ?_)
  with_reducible apply takeBlock_within
  with_reducible exact sub_of hc (by decide)
  with_reducible assumption
  extract_lets a17
  with_reducible refine within_mkP ?_
  with_reducible apply onFurrow_within
  with_reducible exact sub_of hc (by decide)
  with_reducible assumption
  with_reducible refine within_someP ?_
  with_reducible assumption

theorem sendMarker_within {cs : List Part} {r : State} (t : Nat) (blocks : List Nat) (s : State) (hc : subParts [.live, .furrow] cs = true) (h : Within cs r s) : Within cs r (sendMarker t blocks s) := by
  delta sendMarker
  with_reducible apply State.bump_within
  with_reducible exact sub_of hc (by decide)
  with_reducible apply onFurrow_within
  with_reducible exact sub_of hc (by decide)
  with_reducible assumption

theorem publish_within {cs : List Part} {r : State} (t : Nat) (w : PublishWrite) (load : Bool) (prefixes : SMap Nat) (s : State) (hc : subParts [.live, .furrow, .fresh] cs = true) (h : Within cs r s) : OptWithin cs r (publish t w load prefixes s) := by
  delta publish
  extract_lets a9 a10 a11 a12 a13 a14 a15
  have e_a15 : Within cs r a15 := by
    unfold a15
    with_reducible apply onFurrow_within
    with_reducible exact sub_of hc (by decide)
    with_reducible apply dropPlaces_within
    with_reducible exact sub_of hc (by decide)
    with_reducible assumption
  clear_value a15
  with_reducible refine within_bindM ?_ (fun _ _ => ?_)
  with_reducible apply placeNodes_within
  with_reducible exact sub_of hc (by decide)
  with_reducible assumption
  with_reducible refine within_mapPM ?_ (fun _ _ => ?_)
  with_reducible apply moveBlock_within
  with_reducible exact sub_of hc (by decide)
  with_reducible assumption
  extract_lets a21
  have e_a21 : Within cs r a21 := by
    unfold a21
    with_reducible apply setRoot_within
    with_reducible exact sub_of hc (by decide)
    with_reducible apply writeWords_within
    with_reducible exact sub_of hc (by decide)
    with_reducible assumption
  clear_value a21
  with_reducible apply State.peak_within
  with_reducible exact sub_of hc (by decide)
  with_reducible apply sendMarker_within
  with_reducible exact sub_of hc (by decide)
  with_reducible assumption

theorem rebuildWord_within {cs : List Part} {r : State} (w : Nat) (s : State) (hc : subParts [.live, .furrow, .fresh] cs = true) (h : Within cs r s) : Within cs r (rebuildWord w s) := by
  delta rebuildWord
  split
  with_reducible apply onFurrow_within
  with_reducible exact sub_of hc (by decide)
  with_reducible assumption
  extract_lets a12
  split
  extract_lets a18
  have e_a18 : Within cs r a18 := by
    unfold a18
    with_reducible apply setRoot_within
    with_reducible exact sub_of hc (by decide)
    with_reducible apply writeWords_within
    with_reducible exact sub_of hc (by decide)
    with_reducible refine within_of_some (by assumption) ?_
    with_reducible apply placeNode_within
    with_reducible exact sub_of hc (by decide)
    with_reducible assumption
  clear_value a18
  with_reducible apply State.peak_within
  with_reducible exact sub_of hc (by decide)
  with_reducible apply sendMarker_within
  with_reducible exact sub_of hc (by decide)
  with_reducible apply onFurrow_within
  with_reducible exact sub_of hc (by decide)
  with_reducible assumption
  split
  with_reducible apply writeWords_within
  with_reducible exact sub_of hc (by decide)
  with_reducible assumption
  with_reducible assumption

theorem trieLookup_within {cs : List Part} {r : State} (live : SMap Nat) (n : Nat) (t : Nat) (key : Nat) (s : State) (hc : subParts [.live] cs = true) (h : Within cs r s) : PairWithin cs r (trieLookup live n t key s) := by
  delta trieLookup
  extract_lets a9 a10 a11
  have e_a11 : Within cs r a11 := by
    unfold a11
    with_reducible apply State.bump_within
    with_reducible exact sub_of hc (by decide)
    with_reducible assumption
  clear_value a11
  with_reducible refine within_mkP ?_
  with_reducible assumption

theorem trieGate_within {cs : List Part} {r : State} (s : State) (hc : subParts [] cs = true) (h : Within cs r s) : OptOpWithin cs r (trieGate s) := by
  delta trieGate
  split
  with_reducible refine within_mosome ?_
  with_reducible refine within_ofail ?_
  with_reducible assumption
  split
  with_reducible refine within_mosome ?_
  with_reducible exact within_owait
  with_reducible exact within_monone

theorem trieChange_within {cs : List Part} {r : State} (del : Bool) (t : Nat) (prefixes : SMap Nat) (s : State) (hc : subParts [.live, .furrow, .fresh] cs = true) (h : Within cs r s) : OpWithin cs r (trieChange del t prefixes s) := by
  delta trieChange
  extract_lets a8 a9 a10 a11 a12 a13 a14
  split
  with_reducible refine within_ofail ?_
  with_reducible apply State.bump_within
  with_reducible exact sub_of hc (by decide)
  with_reducible assumption
  split
  split
  with_reducible refine within_ofail ?_
  with_reducible apply State.bump_within
  with_reducible exact sub_of hc (by decide)
  with_reducible assumption
  split
  with_reducible refine within_odone ?_
  with_reducible refine within_ite (fun _ => ?_) (fun _ => ?_)
  with_reducible apply State.bump_within
  with_reducible exact sub_of hc (by decide)
  with_reducible refine within_of_some (by assumption) ?_
  with_reducible apply publish_within
  with_reducible exact sub_of hc (by decide)
  with_reducible assumption
  with_reducible refine within_of_some (by assumption) ?_
  with_reducible apply publish_within
  with_reducible exact sub_of hc (by decide)
  with_reducible assumption
  with_reducible refine within_ofail ?_
  with_reducible apply State.bump_within
  with_reducible exact sub_of hc (by decide)
  with_reducible assumption
  split
  with_reducible refine within_ofail ?_
  with_reducible apply State.bump_within
  with_reducible exact sub_of hc (by decide)
  with_reducible assumption
  split
  with_reducible refine within_odone ?_
  with_reducible refine within_ite (fun _ => ?_) (fun _ => ?_)
  with_reducible apply State.bump_within
  with_reducible exact sub_of hc (by decide)
  with_reducible refine within_of_some (by assumption) ?_
  with_reducible apply publish_within
  with_reducible exact sub_of hc (by decide)
  with_reducible assumption
  with_reducible refine within_of_some (by assumption) ?_
  with_reducible apply publish_within
  with_reducible exact sub_of hc (by decide)
  with_reducible assumption
  with_reducible refine within_ofail ?_
  with_reducible apply State.bump_within
  with_reducible exact sub_of hc (by decide)
  with_reducible assumption

theorem opTrieAdd_within {cs : List Part} {r : State} (d : Sys2Proof.Bytes) (s : State) (hc : subParts [.live, .furrow, .fresh] cs = true) (h : Within cs r s) : OpWithin cs r (opTrieAdd d s) := by
  delta opTrieAdd
  split
  with_reducible refine within_of_mo (by assumption) ?_
  with_reducible apply trieGate_within
  with_reducible exact sub_of hc (by decide)
  with_reducible assumption
  extract_lets a10 a11
  split
  with_reducible refine within_ofail ?_
  with_reducible assumption
  split
  with_reducible refine within_ofail ?_
  with_reducible assumption
  split
  split
  with_reducible refine within_ofail ?_
  with_reducible assumption
  split
  with_reducible refine within_odone ?_
  with_reducible assumption
  with_reducible apply trieChange_within
  with_reducible exact sub_of hc (by decide)
  with_reducible assumption
  with_reducible apply trieChange_within
  with_reducible exact sub_of hc (by decide)
  with_reducible assumption

theorem opTrieDelete_within {cs : List Part} {r : State} (d : Sys2Proof.Bytes) (s : State) (hc : subParts [.live, .furrow, .fresh] cs = true) (h : Within cs r s) : OpWithin cs r (opTrieDelete d s) := by
  delta opTrieDelete
  split
  with_reducible refine within_of_mo (by assumption) ?_
  with_reducible apply trieGate_within
  with_reducible exact sub_of hc (by decide)
  with_reducible assumption
  extract_lets a10 a11
  split
  with_reducible refine within_ofail ?_
  with_reducible assumption
  split
  with_reducible refine within_ofail ?_
  with_reducible assumption
  split
  with_reducible refine within_ofail ?_
  with_reducible assumption
  with_reducible apply trieChange_within
  with_reducible exact sub_of hc (by decide)
  with_reducible assumption

theorem loadTrie_within {cs : List Part} {r : State} (t : Nat) (img : Sys2Proof.Bytes) (s : State) (hc : subParts [.live, .furrow, .fresh] cs = true) (h : Within cs r s) : OpWithin cs r (loadTrie t img s) := by
  delta loadTrie
  split
  with_reducible refine within_of_mo (by assumption) ?_
  with_reducible apply trieGate_within
  with_reducible exact sub_of hc (by decide)
  with_reducible assumption
  extract_lets a11 a12 a13 a14 a15 a16 a17
  split
  with_reducible refine within_ofail ?_
  with_reducible assumption
  split
  with_reducible refine within_ofail ?_
  with_reducible assumption
  split
  with_reducible refine within_ofail ?_
  with_reducible apply State.bump_within
  with_reducible exact sub_of hc (by decide)
  with_reducible assumption
  split
  with_reducible refine within_ofail ?_
  with_reducible apply State.bump_within
  with_reducible exact sub_of hc (by decide)
  with_reducible assumption
  split
  with_reducible refine within_odone ?_
  with_reducible refine within_of_some (by assumption) ?_
  with_reducible apply publish_within
  with_reducible exact sub_of hc (by decide)
  with_reducible assumption
  with_reducible refine within_ofail ?_
  with_reducible apply State.bump_within
  with_reducible exact sub_of hc (by decide)
  with_reducible assumption

theorem execDrainMarkerDone_within {cs : List Part} {r : State} (table : Nat) (s : State) (hc : subParts [.furrow] cs = true) (h : Within cs r s) : ResultWithin cs r (execDrainMarkerDone table s) := by
  delta execDrainMarkerDone
  with_reducible apply within_onUnit
  split
  with_reducible assumption
  with_reducible apply onFurrow_within
  with_reducible exact sub_of hc (by decide)
  with_reducible assumption

theorem onInteg_within {cs : List Part} {r : State} (f : Integrity → Integrity) (s : State) (hc : subParts [.integ] cs = true) (h : Within cs r s) (hf : ∀ i, i.regions.length = 18 → (f i).regions.length = 18) : Within cs r (onInteg f s) := by
  delta onInteg
  with_reducible refine within_set_integ (sub_of hc (by decide)) ?_ ?_
  with_reducible intro _
  with_reducible exact hf _ ‹_›
  with_reducible assumption

theorem wrote_within {cs : List Part} {r : State} (region : Nat) (word : Nat) (s : State) (hc : subParts [.integ] cs = true) (h : Within cs r s) : Within cs r (wrote region word s) := by
  delta wrote
  with_reducible apply onInteg_within
  with_reducible exact sub_of hc (by decide)
  with_reducible assumption
  with_reducible intro _ _
  simp_all only [List.length_set, List.length_modify, List.length_map]

theorem retireMerge_within {cs : List Part} {r : State} (e : MergeEntry) (s : State) (hc : subParts [.live, .integ] cs = true) (h : Within cs r s) : Within cs r (retireMerge e s) := by
  delta retireMerge
  with_reducible apply State.bump_within
  with_reducible exact sub_of hc (by decide)
  with_reducible apply onInteg_within
  with_reducible exact sub_of hc (by decide)
  with_reducible assumption
  with_reducible exact fun _ h => h

theorem mergeWriteFull_within {cs : List Part} {r : State} (bank : Nat) (word : Nat) (mask : Nat) (s : State) (hc : subParts [.live, .integ] cs = true) (h : Within cs r s) : PairWithin cs r (mergeWriteFull bank word mask s) := by
  delta mergeWriteFull
  split
  extract_lets a13
  with_reducible refine pairWithin_ite (fun _ => ?_) (fun _ => ?_)
  with_reducible refine within_mkP ?_
  with_reducible apply onInteg_within
  with_reducible exact sub_of hc (by decide)
  with_reducible assumption
  with_reducible exact fun _ h => h
  with_reducible refine within_mkP ?_
  with_reducible apply onInteg_within
  with_reducible exact sub_of hc (by decide)
  with_reducible assumption
  with_reducible exact fun _ h => h
  extract_lets a12 a13
  have e_a13 : Within cs r a13 := by
    unfold a13
    (clear_value a12; split)
    with_reducible refine within_ite (fun _ => ?_) (fun _ => ?_)
    with_reducible apply retireMerge_within
    with_reducible exact sub_of hc (by decide)
    with_reducible assumption
    with_reducible assumption
    with_reducible assumption
  clear_value a13
  with_reducible refine within_mkP ?_
  with_reducible apply onInteg_within
  with_reducible exact sub_of hc (by decide)
  with_reducible assumption
  with_reducible exact fun _ h => h

theorem mergeWrite_within {cs : List Part} {r : State} (bank : Nat) (word : Nat) (mask : Nat) (s : State) (hc : subParts [.live, .integ] cs = true) (h : Within cs r s) : Within cs r (mergeWrite bank word mask s) := by
  delta mergeWrite
  with_reducible refine within_snd ?_
  with_reducible apply mergeWriteFull_within
  with_reducible exact sub_of hc (by decide)
  with_reducible assumption

theorem mergeDiscard_within {cs : List Part} {r : State} (bank : Nat) (word : Nat) (s : State) (hc : subParts [.integ] cs = true) (h : Within cs r s) : Within cs r (mergeDiscard bank word s) := by
  delta mergeDiscard
  with_reducible apply onInteg_within
  with_reducible exact sub_of hc (by decide)
  with_reducible assumption
  with_reducible exact fun _ h => h

theorem mergeFlush_within {cs : List Part} {r : State} (bank : Nat) (word : Nat) (s : State) (hc : subParts [.live, .integ] cs = true) (h : Within cs r s) : Within cs r (mergeFlush bank word s) := by
  delta mergeFlush
  split
  with_reducible apply retireMerge_within
  with_reducible exact sub_of hc (by decide)
  with_reducible assumption
  with_reducible assumption

theorem execMergeEntryRetire_within {cs : List Part} {r : State} (bank : Nat) (word : Nat) (s : State) (hc : subParts [.live, .integ] cs = true) (h : Within cs r s) : ResultWithin cs r (execMergeEntryRetire bank word s) := by
  delta execMergeEntryRetire
  with_reducible apply within_onUnit
  with_reducible apply mergeFlush_within
  with_reducible exact sub_of hc (by decide)
  with_reducible assumption

theorem onRing_within {cs : List Part} {r : State} (r_ : Nat) (f : Ring → Ring) (s : State) (hc : subParts [.rings] cs = true) (h : Within cs r s) : Within cs r (onRing r_ f s) := by
  delta onRing
  with_reducible refine within_set_host_rings (sub_of hc (by decide)) ?_ ?_
  with_reducible intro _
  simp_all only [List.length_set, List.length_modify, List.length_map]
  with_reducible assumption

theorem loseTargets_within {cs : List Part} {r : State} (r_ : Nat) (s : State) (hc : subParts [.rings] cs = true) (h : Within cs r s) : Within cs r (loseTargets r_ s) := by
  delta loseTargets
  extract_lets a6 a7 a8
  with_reducible refine within_set_host_rings (sub_of hc (by decide)) ?_ ?_
  with_reducible intro _
  simp_all only [List.length_set, List.length_modify, List.length_map]
  with_reducible assumption

theorem disableRing_within {cs : List Part} {r : State} (r_ : Nat) (reset : Bool) (s : State) (hc : subParts [.rings] cs = true) (h : Within cs r s) : Within cs r (disableRing r_ reset s) := by
  delta disableRing
  with_reducible apply loseTargets_within
  with_reducible exact sub_of hc (by decide)
  with_reducible apply onRing_within
  with_reducible exact sub_of hc (by decide)
  with_reducible assumption

theorem announceKeys_within {cs : List Part} {r : State} (s : State) (hc : subParts [.keys, .endpoint, .out] cs = true) (h : Within cs r s) : Within cs r (announceKeys s) := by
  delta announceKeys
  with_reducible refine within_ite (fun _ => ?_) (fun _ => ?_)
  with_reducible apply vector_within
  with_reducible exact sub_of hc (by decide)
  with_reducible refine within_set_keys_event (sub_of hc (by decide)) ?_
  with_reducible assumption
  with_reducible assumption

theorem ringIdle_within {cs : List Part} {r : State} (r_ : Nat) (s : State) (hc : subParts [.keys, .endpoint, .rings, .out] cs = true) (h : Within cs r s) : Within cs r (ringIdle r_ s) := by
  delta ringIdle
  extract_lets a6 a7
  have e_a6 : Within cs r a6 := by
    unfold a6
    with_reducible apply announceKeys_within
    with_reducible exact sub_of hc (by decide)
    with_reducible apply onRing_within
    with_reducible exact sub_of hc (by decide)
    with_reducible assumption
  clear_value a6
  with_reducible refine within_ite (fun _ => ?_) (fun _ => ?_)
  with_reducible assumption
  with_reducible apply disableRing_within
  with_reducible exact sub_of hc (by decide)
  with_reducible assumption

theorem writeCompletion_within {cs : List Part} {r : State} (r_ : Nat) (rec_ : Sys2Proof.Bytes) (notify : Bool) (ok : Bool) (s : State) (hc : subParts [.live, .endpoint, .rings, .out] cs = true) (h : Within cs r s) : Within cs r (writeCompletion r_ rec_ notify ok s) := by
  delta writeCompletion
  extract_lets a9 a10 a11 a12
  have e_a10 : Within cs r a10 := by
    unfold a10
    with_reducible refine within_ite (fun _ => ?_) (fun _ => ?_)
    with_reducible apply emit_within
    with_reducible exact sub_of hc (by decide)
    with_reducible assumption
    with_reducible apply emit_within
    with_reducible exact sub_of hc (by decide)
    with_reducible assumption
  clear_value a10
  have e_a11 : Within cs r a11 := by
    unfold a11
    with_reducible apply onRing_within
    with_reducible exact sub_of hc (by decide)
    with_reducible assumption
  clear_value a11
  have e_a12 : Within cs r a12 := by
    unfold a12
    with_reducible apply State.bump_within
    with_reducible exact sub_of hc (by decide)
    with_reducible assumption
  clear_value a12
  with_reducible refine within_ite (fun _ => ?_) (fun _ => ?_)
  with_reducible apply vector_within
  with_reducible exact sub_of hc (by decide)
  with_reducible assumption
  with_reducible assumption

theorem completeCommand_within {cs : List Part} {r : State} (r_ : Nat) (status : Nat) (result : Nat) (ok : Bool) (s : State) (hc : subParts [.live, .keys, .endpoint, .rings, .out] cs = true) (h : Within cs r s) : Within cs r (completeCommand r_ status result ok s) := by
  delta completeCommand
  extract_lets a9 a10 a11 a12
  have e_a12 : Within cs r a12 := by
    unfold a12
    with_reducible refine within_ite (fun _ => ?_) (fun _ => ?_)
    with_reducible apply onRing_within
    with_reducible exact sub_of hc (by decide)
    with_reducible assumption
    with_reducible assumption
  clear_value a12
  with_reducible apply ringIdle_within
  with_reducible exact sub_of hc (by decide)
  with_reducible apply writeCompletion_within
  with_reducible exact sub_of hc (by decide)
  with_reducible assumption

theorem haltRing_within {cs : List Part} {r : State} (r_ : Nat) (status : Nat) (detail : Nat) (s : State) (hc : subParts [.live, .keys, .endpoint, .rings, .out] cs = true) (h : Within cs r s) : Within cs r (haltRing r_ status detail s) := by
  delta haltRing
  extract_lets a8
  have e_a8 : Within cs r a8 := by
    unfold a8
    with_reducible apply onRing_within
    with_reducible exact sub_of hc (by decide)
    with_reducible assumption
  clear_value a8
  with_reducible apply ringIdle_within
  with_reducible exact sub_of hc (by decide)
  with_reducible apply vector_within
  with_reducible exact sub_of hc (by decide)
  with_reducible apply State.bump_within
  with_reducible exact sub_of hc (by decide)
  with_reducible assumption

theorem restartFences_within {cs : List Part} {r : State} (s : State) (hc : subParts [.rings] cs = true) (h : Within cs r s) : Within cs r (restartFences s) := by
  delta restartFences
  extract_lets a5 a6
  with_reducible refine within_set_host_rings (sub_of hc (by decide)) ?_ ?_
  with_reducible intro _
  simp_all only [List.length_set, List.length_modify, List.length_map]
  with_reducible assumption

theorem settleFence_within {cs : List Part} {r : State} (s : State) (hc : subParts [.live, .keys, .endpoint, .rings, .out] cs = true) (h : Within cs r s) : OptWithin cs r (settleFence s) := by
  delta settleFence
  split
  with_reducible exact within_none
  with_reducible refine within_map (fun _ => ?_)
  with_reducible apply completeCommand_within
  with_reducible exact sub_of hc (by decide)
  with_reducible assumption

theorem settleFences_within {cs : List Part} {r : State} (a0 : Nat) (a1 : State) (hc : subParts [.live, .keys, .endpoint, .rings, .out] cs = true) (h : Within cs r a1) : Within cs r (settleFences a0 a1) := by
  induction a0 generalizing a1 with
| zero => ?_
| succ n ih => ?_
  all_goals rw [settleFences]
  with_reducible assumption
  split
  with_reducible apply ih
  with_reducible refine within_of_some (by assumption) ?_
  with_reducible apply settleFence_within
  with_reducible exact sub_of hc (by decide)
  with_reducible assumption
  with_reducible assumption

theorem slotsReturned_within {cs : List Part} {r : State} (ids : List Nat) (s : State) (hc : subParts [.live, .keys, .endpoint, .rings, .out] cs = true) (h : Within cs r s) : Within cs r (slotsReturned ids s) := by
  delta slotsReturned
  extract_lets a6 a7
  with_reducible apply settleFences_within
  with_reducible exact sub_of hc (by decide)
  with_reducible refine within_set_host_rings (sub_of hc (by decide)) ?_ ?_
  with_reducible intro _
  simp_all only [List.length_set, List.length_modify, List.length_map]
  with_reducible assumption

theorem onLink_within {cs : List Part} {r : State} (m : Nat) (f : Link → Link) (s : State) (hc : subParts [.links] cs = true) (h : Within cs r s) : Within cs r (onLink m f s) := by
  delta onLink
  with_reducible refine within_set_headgate_links (sub_of hc (by decide)) ?_ ?_
  with_reducible intro _
  simp_all only [List.length_set, List.length_modify, List.length_map]
  with_reducible assumption

theorem sendData_within {cs : List Part} {r : State} (m : Nat) (body : Sys2Proof.Bytes) (s : State) (hc : subParts [.links, .out] cs = true) (h : Within cs r s) : Within cs r (sendData m body s) := by
  delta sendData
  extract_lets a7 a8
  have e_a8 : Within cs r a8 := by
    unfold a8
    with_reducible apply emit_within
    with_reducible exact sub_of hc (by decide)
    with_reducible assumption
  clear_value a8
  with_reducible apply onLink_within
  with_reducible exact sub_of hc (by decide)
  with_reducible assumption

theorem takeGrants_within {cs : List Part} {r : State} (m : Nat) (s : State) (hc : subParts [.links] cs = true) (h : Within cs r s) : PairWithin cs r (takeGrants m s) := by
  delta takeGrants
  extract_lets a6 a7
  have e_a7 : Within cs r a7 := by
    unfold a7
    with_reducible apply onLink_within
    with_reducible exact sub_of hc (by decide)
    with_reducible assumption
  clear_value a7
  with_reducible refine within_mkP ?_
  with_reducible assumption

theorem grantsSent_within {cs : List Part} {r : State} (m : Nat) (s : State) (hc : subParts [.links] cs = true) (h : Within cs r s) : Within cs r (grantsSent m s) := by
  delta grantsSent
  with_reducible apply onLink_within
  with_reducible exact sub_of hc (by decide)
  with_reducible assumption

theorem sendTokens_within {cs : List Part} {r : State} (m : Nat) (always : Bool) (tokens : Sys2Proof.Bytes) (s : State) (hc : subParts [.links, .out] cs = true) (h : Within cs r s) : Within cs r (sendTokens m always tokens s) := by
  delta sendTokens
  split
  extract_lets a14 a15 a16
  with_reducible refine within_ite (fun _ => ?_) (fun _ => ?_)
  with_reducible refine within_of_pair (by assumption) ?_
  with_reducible apply takeGrants_within
  with_reducible exact sub_of hc (by decide)
  with_reducible assumption
  with_reducible apply sendData_within
  with_reducible exact sub_of hc (by decide)
  with_reducible refine within_ite (fun _ => ?_) (fun _ => ?_)
  with_reducible apply grantsSent_within
  with_reducible exact sub_of hc (by decide)
  with_reducible refine within_of_pair (by assumption) ?_
  with_reducible apply takeGrants_within
  with_reducible exact sub_of hc (by decide)
  with_reducible assumption
  with_reducible refine within_of_pair (by assumption) ?_
  with_reducible apply takeGrants_within
  with_reducible exact sub_of hc (by decide)
  with_reducible assumption

theorem settleGrants_within {cs : List Part} {r : State} (s : State) (hc : subParts [.links, .out] cs = true) (h : Within cs r s) : Within cs r (settleGrants s) := by
  delta settleGrants
  with_reducible refine within_foldl (fun _ _ _ => ?_) ?_
  with_reducible refine within_ite (fun _ => ?_) (fun _ => ?_)
  with_reducible apply sendTokens_within
  with_reducible exact sub_of hc (by decide)
  with_reducible assumption
  with_reducible assumption
  with_reducible assumption

theorem returnSlots_within {cs : List Part} {r : State} (p : Slot → Bool) (s : State) (hc : subParts [.live, .keys, .endpoint, .rings, .slots, .out] cs = true) (h : Within cs r s) : Within cs r (returnSlots p s) := by
  delta returnSlots
  extract_lets a6 a7
  with_reducible apply slotsReturned_within
  with_reducible exact sub_of hc (by decide)
  with_reducible refine within_set_headgate_slots (sub_of hc (by decide)) ?_
  with_reducible assumption

theorem discardSlots_within {cs : List Part} {r : State} (m : Nat) (p : Slot → Bool) (s : State) (hc : subParts [.live, .keys, .endpoint, .rings, .slots, .out] cs = true) (h : Within cs r s) : Within cs r (discardSlots m p s) := by
  delta discardSlots
  extract_lets a7
  with_reducible apply returnSlots_within
  with_reducible exact sub_of hc (by decide)
  with_reducible apply State.bumpBy_within
  with_reducible exact sub_of hc (by decide)
  with_reducible assumption

theorem discardHeld_within {cs : List Part} {r : State} (m : Nat) (s : State) (hc : subParts [.live, .keys, .endpoint, .rings, .slots, .out] cs = true) (h : Within cs r s) : Within cs r (discardHeld m s) := by
  delta discardHeld
  with_reducible apply discardSlots_within
  with_reducible exact sub_of hc (by decide)
  with_reducible assumption

theorem discardAll_within {cs : List Part} {r : State} (m : Nat) (s : State) (hc : subParts [.live, .keys, .endpoint, .rings, .slots, .out] cs = true) (h : Within cs r s) : Within cs r (discardAll m s) := by
  delta discardAll
  with_reducible apply discardSlots_within
  with_reducible exact sub_of hc (by decide)
  with_reducible assumption

theorem onTcam_within {cs : List Part} {r : State} (f : Tcam → Tcam) (s : State) (hc : subParts [.tcam] cs = true) (h : Within cs r s) : Within cs r (onTcam f s) := by
  delta onTcam
  with_reducible refine within_set_tcam (sub_of hc (by decide)) ?_
  with_reducible assumption

theorem writeSlot_within {cs : List Part} {r : State} (k : Nat) (h_ : Shadow) (s : State) (hc : subParts [.tcam] cs = true) (h : Within cs r s) : Within cs r (writeSlot k h_ s) := by
  delta writeSlot
  with_reducible apply onTcam_within
  with_reducible exact sub_of hc (by decide)
  with_reducible assumption

theorem tcamLookup_within {cs : List Part} {r : State} (q : Nat) (t : Nat) (wide : Bool) (word : Nat) (s : State) (hc : subParts [.modes, .mode, .faults, .busy, .live, .vault, .tally, .endpoint, .tcam, .out] cs = true) (h : Within cs r s) : PairWithin cs r (tcamLookup q t wide word s) := by
  delta tcamLookup
  extract_lets a9 a10
  split
  with_reducible refine within_mkP ?_
  with_reducible assumption
  extract_lets a17 a18 a19 a20
  have e_a18 : Within cs r a18 := by
    unfold a18
    with_reducible apply writeSlot_within
    with_reducible exact sub_of hc (by decide)
    with_reducible assumption
  clear_value a18
  have e_a19 : Within cs r a19 := by
    unfold a19
    with_reducible refine within_ite (fun _ => ?_) (fun _ => ?_)
    with_reducible apply writeSlot_within
    with_reducible exact sub_of hc (by decide)
    with_reducible assumption
    with_reducible assumption
  clear_value a19
  have e_a20 : Within cs r a20 := by
    unfold a20
    with_reducible apply onTcam_within
    with_reducible exact sub_of hc (by decide)
    with_reducible apply State.bump_within
    with_reducible exact sub_of hc (by decide)
    with_reducible apply State.bump_within
    with_reducible exact sub_of hc (by decide)
    with_reducible assumption
  clear_value a20
  with_reducible refine pairWithin_ite (fun _ => ?_) (fun _ => ?_)
  with_reducible refine within_mkP ?_
  with_reducible assumption
  with_reducible refine within_mkP ?_
  with_reducible refine within_ite (fun _ => ?_) (fun _ => ?_)
  with_reducible apply quarantineMark_within
  with_reducible exact sub_of hc (by decide)
  with_reducible assumption
  with_reducible assumption

theorem sendWrite_within {cs : List Part} {r : State} (p : Nat) (h_ : Shadow) (s : State) (hc : subParts [.out] cs = true) (h : Within cs r s) : Within cs r (sendWrite p h_ s) := by
  delta sendWrite
  with_reducible apply emit_within
  with_reducible exact sub_of hc (by decide)
  with_reducible assumption

theorem setRecord_within {cs : List Part} {r : State} (p : Nat) (r_ : Nat) (s : State) (hc : subParts [.tcam] cs = true) (h : Within cs r s) : Within cs r (setRecord p r_ s) := by
  delta setRecord
  extract_lets a7 a8
  with_reducible apply onTcam_within
  with_reducible exact sub_of hc (by decide)
  with_reducible assumption

theorem writePlace_within {cs : List Part} {r : State} (p : Nat) (h_ : Shadow) (s : State) (hc : subParts [.tcam] cs = true) (h : Within cs r s) : Within cs r (writePlace p h_ s) := by
  delta writePlace
  with_reducible refine within_ite (fun _ => ?_) (fun _ => ?_)
  with_reducible apply setRecord_within
  with_reducible exact sub_of hc (by decide)
  with_reducible assumption
  with_reducible apply writeSlot_within
  with_reducible exact sub_of hc (by decide)
  with_reducible assumption

theorem setRemote_within {cs : List Part} {r : State} (p : Nat) (h_ : Shadow) (s : State) (hc : subParts [.tcam] cs = true) (h : Within cs r s) : Within cs r (setRemote p h_ s) := by
  delta setRemote
  with_reducible apply onTcam_within
  with_reducible exact sub_of hc (by decide)
  with_reducible assumption

theorem setPlace_within {cs : List Part} {r : State} (p : Nat) (h_ : Shadow) (s : State) (hc : subParts [.tcam] cs = true) (h : Within cs r s) : Within cs r (setPlace p h_ s) := by
  delta setPlace
  with_reducible refine within_ite (fun _ => ?_) (fun _ => ?_)
  with_reducible apply writeSlot_within
  with_reducible exact sub_of hc (by decide)
  with_reducible assumption
  with_reducible apply setRemote_within
  with_reducible exact sub_of hc (by decide)
  with_reducible assumption

theorem flipHead_within {cs : List Part} {r : State} (f : Nat × Nat × Nat) (s : State) (hc : subParts [.tcam] cs = true) (h : Within cs r s) : Within cs r (flipHead f s) := by
  delta flipHead
  split
  extract_lets a10
  with_reducible apply onTcam_within
  with_reducible exact sub_of hc (by decide)
  with_reducible assumption

theorem runWrites_within {cs : List Part} {r : State} (marked : Bool) (a1 : List (Nat × Shadow)) (a2 : ChainJob) (a3 : State) (hc : subParts [.tcam, .out] cs = true) (h : Within cs r a3) : PairWithin cs r (runWrites marked a1 a2 a3) := by
  induction a1 generalizing a2 a3 with
| nil => ?_
| cons x l ih => ?_
  rotate_left
  obtain ⟨x1, x2⟩ := x
  all_goals rw [runWrites]
  with_reducible refine pairWithin_ite (fun _ => ?_) (fun _ => ?_)
  with_reducible refine within_mkP ?_
  with_reducible assumption
  extract_lets a16
  with_reducible refine pairWithin_ite (fun _ => ?_) (fun _ => ?_)
  with_reducible apply ih
  with_reducible apply writePlace_within
  with_reducible exact sub_of hc (by decide)
  with_reducible assumption
  with_reducible refine pairWithin_ite (fun _ => ?_) (fun _ => ?_)
  with_reducible apply ih
  with_reducible apply setRemote_within
  with_reducible exact sub_of hc (by decide)
  with_reducible assumption
  with_reducible refine within_mkP ?_
  with_reducible apply sendWrite_within
  with_reducible exact sub_of hc (by decide)
  with_reducible assumption
  with_reducible refine within_mkP ?_
  with_reducible assumption

theorem switchLoads_within {cs : List Part} {r : State} (j : ChainJob) (s : State) (hc : subParts [.tcam, .out] cs = true) (h : Within cs r s) : PairWithin cs r (switchLoads j s) := by
  delta switchLoads
  extract_lets a6 a7 a8 a9 a10 a11
  have e_a7 : Within cs r a7 := by
    unfold a7
    with_reducible refine within_foldl (fun _ _ _ => ?_) ?_
    with_reducible apply flipHead_within
    with_reducible exact sub_of hc (by decide)
    with_reducible assumption
    with_reducible assumption
  clear_value a7
  have e_a11 : Within cs r a11 := by
    unfold a11
    with_reducible refine within_foldl (fun _ _ _ => ?_) ?_
    with_reducible apply sendWrite_within
    with_reducible exact sub_of hc (by decide)
    with_reducible assumption
    with_reducible assumption
  clear_value a11
  with_reducible refine pairWithin_ite (fun _ => ?_) (fun _ => ?_)
  with_reducible apply runWrites_within
  with_reducible exact sub_of hc (by decide)
  with_reducible assumption
  with_reducible refine within_mkP ?_
  with_reducible assumption

theorem runJob_within {cs : List Part} {r : State} (j : ChainJob) (s : State) (hc : subParts [.tcam, .out] cs = true) (h : Within cs r s) : PairWithin cs r (runJob j s) := by
  delta runJob
  with_reducible refine pairWithin_ite (fun _ => ?_) (fun _ => ?_)
  with_reducible refine within_mkP ?_
  with_reducible assumption
  extract_lets a7
  split
  with_reducible refine pairWithin_ite (fun _ => ?_) (fun _ => ?_)
  with_reducible refine within_mkP ?_
  with_reducible refine within_of_pair (by assumption) ?_
  with_reducible apply runWrites_within
  with_reducible exact sub_of hc (by decide)
  with_reducible assumption
  with_reducible refine pairWithin_ite (fun _ => ?_) (fun _ => ?_)
  with_reducible refine within_mkP ?_
  with_reducible refine within_of_pair (by assumption) ?_
  with_reducible apply runWrites_within
  with_reducible exact sub_of hc (by decide)
  with_reducible assumption
  with_reducible apply switchLoads_within
  with_reducible exact sub_of hc (by decide)
  with_reducible refine within_of_pair (by assumption) ?_
  with_reducible apply runWrites_within
  with_reducible exact sub_of hc (by decide)
  with_reducible assumption

theorem ackJob_within {cs : List Part} {r : State} (p : Nat) (j : ChainJob) (s : State) (hc : subParts [.tcam] cs = true) (h : Within cs r s) : PairWithin cs r (ackJob p j s) := by
  delta ackJob
  extract_lets a7
  have e_a7 : Within cs r a7 := by
    unfold a7
    split
    with_reducible apply setRemote_within
    with_reducible exact sub_of hc (by decide)
    with_reducible assumption
    with_reducible assumption
  clear_value a7
  with_reducible refine within_mkP ?_
  with_reducible assumption

theorem abandonJob_within {cs : List Part} {r : State} (j : ChainJob) (s : State) (hc : subParts [.tcam] cs = true) (h : Within cs r s) : Within cs r (abandonJob j s) := by
  delta abandonJob
  with_reducible refine within_foldl (fun _ _ _ => ?_) ?_
  with_reducible apply setPlace_within
  with_reducible exact sub_of hc (by decide)
  with_reducible assumption
  with_reducible refine within_foldl (fun _ _ _ => ?_) ?_
  with_reducible apply flipHead_within
  with_reducible exact sub_of hc (by decide)
  with_reducible assumption
  with_reducible assumption

theorem queueJob_within {cs : List Part} {r : State} (j : ChainJob) (s : State) (hc : subParts [.tcam, .chain, .out] cs = true) (h : Within cs r s) : Within cs r (queueJob j s) := by
  delta queueJob
  extract_lets a6
  with_reducible refine within_ite (fun _ => ?_) (fun _ => ?_)
  split
  dsimp only [a6]
  with_reducible refine within_set_chain (sub_of hc (by decide)) ?_
  with_reducible refine within_of_pair (by assumption) ?_
  with_reducible apply runJob_within
  with_reducible exact sub_of hc (by decide)
  with_reducible assumption
  dsimp only [a6]
  with_reducible refine within_set_chain (sub_of hc (by decide)) ?_
  with_reducible assumption

theorem queueWrites_within {cs : List Part} {r : State} (q : Nat) (i : Nat) (ws : List (Nat × Shadow)) (s : State) (hc : subParts [.tcam, .chain, .out] cs = true) (h : Within cs r s) : Within cs r (queueWrites q i ws s) := by
  delta queueWrites
  with_reducible apply queueJob_within
  with_reducible exact sub_of hc (by decide)
  with_reducible assumption

theorem startJob_within {cs : List Part} {r : State} (j : ChainJob) (result : Nat) (s : State) (hc : subParts [.tcam, .out] cs = true) (h : Within cs r s) : OpWithin cs r (startJob j result s) := by
  delta startJob
  split
  split
  with_reducible refine within_odone ?_
  with_reducible refine within_of_pair (by assumption) ?_
  with_reducible apply runJob_within
  with_reducible exact sub_of hc (by decide)
  with_reducible assumption
  with_reducible refine within_ochain ?_
  with_reducible refine within_of_pair (by assumption) ?_
  with_reducible apply runJob_within
  with_reducible exact sub_of hc (by decide)
  with_reducible assumption

theorem finishWrites_within {cs : List Part} {r : State} (q : Nat) (i : Nat) (moves : Nat) (ws : List (Nat × Shadow)) (result : Nat) (s : State) (hc : subParts [.tcam, .out] cs = true) (h : Within cs r s) : OpWithin cs r (finishWrites q i moves ws result s) := by
  delta finishWrites
  with_reducible apply startJob_within
  with_reducible exact sub_of hc (by decide)
  with_reducible assumption

theorem withTable_within {cs : List Part} {r : State} (kind : Nat) (b : Sys2Proof.Bytes) (s : State) (run : Nat → Nat → TcamEntry → OpRes)
    (hc : subParts [] cs = true) (h : Within cs r s) (hf : ∀ q i e, OpWithin cs r (run q i e)) : OpWithin cs r (withTable kind b s run) := by
  delta withTable
  split
  with_reducible refine within_ofail ?_
  with_reducible assumption
  split
  with_reducible refine within_ofail ?_
  with_reducible assumption
  extract_lets a14
  split
  with_reducible refine within_ofail ?_
  with_reducible assumption
  extract_lets a20
  split
  with_reducible refine within_ofail ?_
  with_reducible assumption
  with_reducible exact hf _ _ _

theorem opTcamInsert_within {cs : List Part} {r : State} (b : Sys2Proof.Bytes) (s : State) (hc : subParts [.live, .tcam, .out] cs = true) (h : Within cs r s) : OpWithin cs r (opTcamInsert b s) := by
  delta opTcamInsert
  with_reducible apply withTable_within
  with_reducible exact sub_of hc (by decide)
  with_reducible assumption
  with_reducible intro _ _ _
  split
  with_reducible refine within_ofail ?_
  with_reducible assumption
  split
  with_reducible refine within_ofail ?_
  with_reducible apply State.bump_within
  with_reducible exact sub_of hc (by decide)
  with_reducible assumption
  with_reducible refine within_ofail ?_
  with_reducible assumption
  with_reducible apply finishWrites_within
  with_reducible exact sub_of hc (by decide)
  with_reducible apply State.bumpBy_within
  with_reducible exact sub_of hc (by decide)
  with_reducible assumption

theorem opTcamDelete_within {cs : List Part} {r : State} (b : Sys2Proof.Bytes) (s : State) (hc : subParts [.live, .tcam, .out] cs = true) (h : Within cs r s) : OpWithin cs r (opTcamDelete b s) := by
  delta opTcamDelete
  with_reducible apply withTable_within
  with_reducible exact sub_of hc (by decide)
  with_reducible assumption
  with_reducible intro _ _ _
  split
  with_reducible refine within_ofail ?_
  with_reducible assumption
  split
  with_reducible refine within_ofail ?_
  with_reducible assumption
  split
  with_reducible apply finishWrites_within
  with_reducible exact sub_of hc (by decide)
  with_reducible apply State.bumpBy_within
  with_reducible exact sub_of hc (by decide)
  with_reducible assumption

theorem opTcamModify_within {cs : List Part} {r : State} (b : Sys2Proof.Bytes) (s : State) (hc : subParts [.tcam, .out] cs = true) (h : Within cs r s) : OpWithin cs r (opTcamModify b s) := by
  delta opTcamModify
  with_reducible apply withTable_within
  with_reducible exact sub_of hc (by decide)
  with_reducible assumption
  with_reducible intro _ _ _
  split
  with_reducible refine within_ofail ?_
  with_reducible assumption
  split
  with_reducible refine within_ofail ?_
  with_reducible assumption
  with_reducible apply finishWrites_within
  with_reducible exact sub_of hc (by decide)
  with_reducible assumption

theorem tcamCommit_within {cs : List Part} {r : State} (old : SMap Nat) (s : State) (hc : subParts [.live, .tcam] cs = true) (h : Within cs r s) : Within cs r (tcamCommit old s) := by
  delta tcamCommit
  extract_lets a6 a7 a8
  have e_a7 : Within cs r a7 := by
    unfold a7
    with_reducible refine within_set_dict_live (sub_of hc (by decide)) ?_
    with_reducible assumption
  clear_value a7
  with_reducible apply onTcam_within
  with_reducible exact sub_of hc (by decide)
  with_reducible assumption

theorem rebuildTcam_within {cs : List Part} {r : State} (q : Nat) (i : Nat) (all : List TcamEntry) (count : Nat) (s : State) (hc : subParts [.fresh] cs = true) (h : Within cs r s) : OpWithin cs r (rebuildTcam q i all count s) := by
  delta rebuildTcam
  extract_lets a9 a10 a11 a12 a13 a14 a15
  have e_a14 : Within cs r a14 := by
    unfold a14
    with_reducible refine within_set_fresh (sub_of hc (by decide)) ?_ ?_
    with_reducible exact Nat.le_add_right _ _
    with_reducible assumption
  clear_value a14
  split
  with_reducible refine within_ofail ?_
  with_reducible assumption
  split
  with_reducible refine within_ofail ?_
  with_reducible assumption
  extract_lets a23 a24
  split
  with_reducible refine within_ofail ?_
  with_reducible assumption
  with_reducible refine within_ochain ?_
  with_reducible assumption

theorem loadTcam_within {cs : List Part} {r : State} (operand : Nat) (img : Sys2Proof.Bytes) (s : State) (hc : subParts [.tcam, .fresh, .out] cs = true) (h : Within cs r s) : OpWithin cs r (loadTcam operand img s) := by
  delta loadTcam
  extract_lets a7 a8 a9
  split
  with_reducible refine within_ofail ?_
  with_reducible assumption
  split
  with_reducible refine within_ofail ?_
  with_reducible assumption
  extract_lets a16 a17 a18 a19
  split
  with_reducible refine within_ofail ?_
  with_reducible assumption
  split
  with_reducible refine within_ofail ?_
  with_reducible assumption
  split
  with_reducible refine within_ofail ?_
  with_reducible assumption
  split
  with_reducible apply startJob_within
  with_reducible exact sub_of hc (by decide)
  with_reducible refine within_of_chain (by assumption) ?_
  with_reducible apply rebuildTcam_within
  with_reducible exact sub_of hc (by decide)
  with_reducible assumption
  with_reducible apply rebuildTcam_within
  with_reducible exact sub_of hc (by decide)
  with_reducible assumption

theorem sealTcamIn_within {cs : List Part} {r : State} (t : Nat) (rs : List Sys2Proof.Bytes) (j : ChainJob) (s : State) (a4 : List Nat) (hc : subParts [.fresh] cs = true) (h : Within cs r s) : SumPairWithin cs r (sealTcamIn t rs j s a4) := by
  induction a4 generalizing j s with
| nil => ?_
| cons x l ih => ?_
  all_goals rw [sealTcamIn]
  with_reducible refine within_inrP ?_
  with_reducible assumption
  split
  with_reducible apply ih
  with_reducible assumption
  extract_lets a19 a20 a21 a22
  with_reducible refine ite_SumPairWithin (fun _ => ?_) (fun _ => ?_)
  with_reducible apply ih
  with_reducible assumption
  with_reducible refine ite_SumPairWithin (fun _ => ?_) (fun _ => ?_)
  with_reducible exact within_inlP
  split
  with_reducible apply ih
  with_reducible refine within_of_chain (by assumption) ?_
  with_reducible apply rebuildTcam_within
  with_reducible exact sub_of hc (by decide)
  with_reducible assumption
  with_reducible exact within_inlP

theorem sealTcam_within {cs : List Part} {r : State} (t : Nat) (img : Sys2Proof.Bytes) (s : State) (hc : subParts [.fresh] cs = true) (h : Within cs r s) : SumPairWithin cs r (sealTcam t img s) := by
  delta sealTcam
  extract_lets a7 a8
  with_reducible refine ite_SumPairWithin (fun _ => ?_) (fun _ => ?_)
  with_reducible exact within_inlP
  with_reducible apply sealTcamIn_within
  with_reducible exact sub_of hc (by decide)
  with_reducible assumption

theorem execBlockPowerDown_within {cs : List Part} {r : State} (quarter : Nat) (block : Nat) (s : State) (hc : subParts [.tcam] cs = true) (h : Within cs r s) : ResultWithin cs r (execBlockPowerDown quarter block s) := by
  delta execBlockPowerDown
  with_reducible apply within_onUnit
  extract_lets a7
  with_reducible refine within_ite (fun _ => ?_) (fun _ => ?_)
  with_reducible assumption
  with_reducible apply onTcam_within
  with_reducible exact sub_of hc (by decide)
  with_reducible assumption

theorem onPair_within {cs : List Part} {r : State} (f : Pair → Pair) (s : State) (hc : subParts [.pair] cs = true) (h : Within cs r s) : Within cs r (onPair f s) := by
  delta onPair
  with_reducible refine within_set_pair (sub_of hc (by decide)) ?_
  with_reducible assumption

theorem pairDisagree_within {cs : List Part} {r : State} (kind : Nat) (unit : Nat) (tag : Nat) (s : State) (hc : subParts [.vault, .tally, .endpoint, .out] cs = true) (h : Within cs r s) : Within cs r (pairDisagree kind unit tag s) := by
  delta pairDisagree
  with_reducible apply journal_within
  with_reducible exact sub_of hc (by decide)
  with_reducible assumption

theorem compareResults_within {cs : List Part} {r : State} (link : Nat) (transition : Bool) (peer : Nat) (own : Nat) (s : State) (hc : subParts [.live, .vault, .tally, .endpoint, .pair, .out] cs = true) (h : Within cs r s) : Within cs r (compareResults link transition peer own s) := by
  delta compareResults
  with_reducible refine within_ite (fun _ => ?_) (fun _ => ?_)
  with_reducible apply State.bump_within
  with_reducible exact sub_of hc (by decide)
  with_reducible assumption
  with_reducible refine within_ite (fun _ => ?_) (fun _ => ?_)
  with_reducible apply State.bump_within
  with_reducible exact sub_of hc (by decide)
  with_reducible assumption
  extract_lets a11 a12
  have e_a11 : Within cs r a11 := by
    unfold a11
    with_reducible apply vector_within
    with_reducible exact sub_of hc (by decide)
    with_reducible apply State.bump_within
    with_reducible exact sub_of hc (by decide)
    with_reducible assumption
  clear_value a11
  with_reducible refine within_ite (fun _ => ?_) (fun _ => ?_)
  with_reducible assumption
  with_reducible apply pairDisagree_within
  with_reducible exact sub_of hc (by decide)
  with_reducible apply onPair_within
  with_reducible exact sub_of hc (by decide)
  with_reducible assumption

theorem settleOwn_within {cs : List Part} {r : State} (r_ : PairResult) (s : State) (hc : subParts [.pair] cs = true) (h : Within cs r s) : Within cs r (settleOwn r_ s) := by
  delta settleOwn
  with_reducible apply onPair_within
  with_reducible exact sub_of hc (by decide)
  with_reducible assumption

theorem keepOwn_within {cs : List Part} {r : State} (r_ : PairResult) (s : State) (hc : subParts [.pair] cs = true) (h : Within cs r s) : Within cs r (keepOwn r_ s) := by
  delta keepOwn
  with_reducible apply onPair_within
  with_reducible exact sub_of hc (by decide)
  with_reducible assumption

theorem ownResult_within {cs : List Part} {r : State} (link : Nat) (own : Nat) (s : State) (hc : subParts [.live, .vault, .tally, .endpoint, .pair, .out] cs = true) (h : Within cs r s) : Within cs r (ownResult link own s) := by
  delta ownResult
  with_reducible refine within_ite (fun _ => ?_) (fun _ => ?_)
  with_reducible assumption
  split
  with_reducible apply compareResults_within
  with_reducible exact sub_of hc (by decide)
  with_reducible apply keepOwn_within
  with_reducible exact sub_of hc (by decide)
  with_reducible apply onPair_within
  with_reducible exact sub_of hc (by decide)
  with_reducible assumption
  with_reducible apply keepOwn_within
  with_reducible exact sub_of hc (by decide)
  with_reducible assumption

theorem execResultDigest_within {cs : List Part} {r : State} (link : Nat) (transition : Bool) (token : Nat) (s : State) (hc : subParts [.live, .vault, .tally, .endpoint, .pair, .out] cs = true) (h : Within cs r s) : ResultWithin cs r (execResultDigest link transition token s) := by
  delta execResultDigest
  with_reducible apply within_onUnit
  with_reducible refine within_ite (fun _ => ?_) (fun _ => ?_)
  with_reducible assumption
  extract_lets a9
  split
  with_reducible apply compareResults_within
  with_reducible exact sub_of hc (by decide)
  with_reducible apply settleOwn_within
  with_reducible exact sub_of hc (by decide)
  with_reducible assumption
  with_reducible apply onPair_within
  with_reducible exact sub_of hc (by decide)
  with_reducible assumption

theorem missOwn_within {cs : List Part} {r : State} (r_ : PairResult) (s : State) (hc : subParts [.live, .pair] cs = true) (h : Within cs r s) : Within cs r (missOwn r_ s) := by
  delta missOwn
  with_reducible apply State.bump_within
  with_reducible exact sub_of hc (by decide)
  with_reducible apply settleOwn_within
  with_reducible exact sub_of hc (by decide)
  with_reducible assumption

theorem missPeer_within {cs : List Part} {r : State} (r_ : PairResult) (s : State) (hc : subParts [.live, .pair] cs = true) (h : Within cs r s) : Within cs r (missPeer r_ s) := by
  delta missPeer
  with_reducible apply State.bump_within
  with_reducible exact sub_of hc (by decide)
  with_reducible apply onPair_within
  with_reducible exact sub_of hc (by decide)
  with_reducible assumption

theorem execCompareTimeout_within {cs : List Part} {r : State} (link : Nat) (s : State) (hc : subParts [.live, .pair] cs = true) (h : Within cs r s) : ResultWithin cs r (execCompareTimeout link s) := by
  delta execCompareTimeout
  with_reducible apply within_onUnit
  extract_lets a6 a7
  with_reducible refine within_ite (fun _ => ?_) (fun _ => ?_)
  with_reducible assumption
  (clear_value a6 a7; split)
  with_reducible refine within_ite (fun _ => ?_) (fun _ => ?_)
  with_reducible apply missOwn_within
  with_reducible exact sub_of hc (by decide)
  with_reducible assumption
  with_reducible apply missPeer_within
  with_reducible exact sub_of hc (by decide)
  with_reducible assumption
  with_reducible apply missOwn_within
  with_reducible exact sub_of hc (by decide)
  with_reducible assumption
  with_reducible apply missPeer_within
  with_reducible exact sub_of hc (by decide)
  with_reducible assumption
  with_reducible assumption

theorem shareResult_within {cs : List Part} {r : State} (x : Slot) (token : Nat) (s : State) (hc : subParts [.live, .vault, .tally, .endpoint, .pair, .out] cs = true) (h : Within cs r s) : Within cs r (shareResult x token s) := by
  delta shareResult
  with_reducible refine within_ite (fun _ => ?_) (fun _ => ?_)
  with_reducible assumption
  extract_lets a8
  with_reducible refine within_ite (fun _ => ?_) (fun _ => ?_)
  with_reducible apply emit_within
  with_reducible exact sub_of hc (by decide)
  with_reducible assumption
  with_reducible apply ownResult_within
  with_reducible exact sub_of hc (by decide)
  with_reducible assumption

theorem putLine_within {cs : List Part} {r : State} (agent : Nat) (line : Nat) (c : CacheLine) (s : State) (hc : subParts [.coh] cs = true) (h : Within cs r s) : Within cs r (putLine agent line c s) := by
  delta putLine
  with_reducible refine within_set_coh (sub_of hc (by decide)) id ?_
  with_reducible assumption

theorem dropLine_within {cs : List Part} {r : State} (agent : Nat) (line : Nat) (s : State) (hc : subParts [.coh] cs = true) (h : Within cs r s) : Within cs r (dropLine agent line s) := by
  delta dropLine
  with_reducible refine within_set_coh (sub_of hc (by decide)) id ?_
  with_reducible assumption

theorem setPoison_within {cs : List Part} {r : State} (line : Nat) (i : Nat) (p : Bool) (s : State) (hc : subParts [.coh] cs = true) (h : Within cs r s) : Within cs r (setPoison line i p s) := by
  delta setPoison
  with_reducible refine within_set_coh (sub_of hc (by decide)) id ?_
  with_reducible assumption

theorem countPoison_within {cs : List Part} {r : State} (line : Nat) (old : Nat) (found : Nat) (s : State) (hc : subParts [.live] cs = true) (h : Within cs r s) : Within cs r (countPoison line old found s) := by
  delta countPoison
  with_reducible apply State.bumpBy_within
  with_reducible exact sub_of hc (by decide)
  with_reducible assumption

theorem storeHome_within {cs : List Part} {r : State} (g : Nat) (v : Nat) (s : State) (hc : subParts [.coh] cs = true) (h : Within cs r s) : Within cs r (storeHome g v s) := by
  delta storeHome
  extract_lets a7 a8 a9 a10 a11
  have e_a10 : Within cs r a10 := by
    unfold a10
    with_reducible refine within_set_coh (sub_of hc (by decide)) id ?_
    with_reducible assumption
  clear_value a10
  split
  with_reducible refine within_ite (fun _ => ?_) (fun _ => ?_)
  with_reducible refine within_set_coh (sub_of hc (by decide)) id ?_
  with_reducible assumption
  with_reducible assumption
  with_reducible assumption

theorem storeHomeLine_within {cs : List Part} {r : State} (line : Nat) (data : List Nat) (mask : Nat) (s : State) (hc : subParts [.coh] cs = true) (h : Within cs r s) : Within cs r (storeHomeLine line data mask s) := by
  delta storeHomeLine
  extract_lets a8
  have e_a8 : Within cs r a8 := by
    unfold a8
    with_reducible refine within_foldl (fun _ _ _ => ?_) ?_
    with_reducible apply storeHome_within
    with_reducible exact sub_of hc (by decide)
    with_reducible assumption
    with_reducible assumption
  clear_value a8
  with_reducible refine within_foldl (fun _ _ _ => ?_) ?_
  with_reducible apply setPoison_within
  with_reducible exact sub_of hc (by decide)
  with_reducible assumption
  with_reducible assumption

theorem storeGranule_within {cs : List Part} {r : State} (line : Nat) (i : Nat) (v : Nat) (s : State) (hc : subParts [.coh] cs = true) (h : Within cs r s) : Within cs r (storeGranule line i v s) := by
  delta storeGranule
  extract_lets a8 a9
  have e_a9 : Within cs r a9 := by
    unfold a9
    split
    with_reducible apply storeHome_within
    with_reducible exact sub_of hc (by decide)
    with_reducible assumption
    with_reducible apply storeHome_within
    with_reducible exact sub_of hc (by decide)
    with_reducible assumption
    with_reducible refine within_foldl (fun _ _ _ => ?_) ?_
    with_reducible apply storeHome_within
    with_reducible exact sub_of hc (by decide)
    with_reducible assumption
    with_reducible assumption
  clear_value a9
  with_reducible apply setPoison_within
  with_reducible exact sub_of hc (by decide)
  with_reducible assumption

theorem countSlice_within {cs : List Part} {r : State} (line : Nat) (s : State) (hc : subParts [.live] cs = true) (h : Within cs r s) : Within cs r (countSlice line s) := by
  delta countSlice
  with_reducible apply State.bump_within
  with_reducible exact sub_of hc (by decide)
  with_reducible assumption

theorem poisonHit_within {cs : List Part} {r : State} (s : State) (hc : subParts [.live] cs = true) (h : Within cs r s) : Within cs r (poisonHit s) := by
  delta poisonHit
  with_reducible apply State.bump_within
  with_reducible exact sub_of hc (by decide)
  with_reducible assumption

theorem atomCounts_within {cs : List Part} {r : State} (s : State) (op : Sys2Proof.AtomOp) (v : Nat) (hc : subParts [.live] cs = true) (h : Within cs r s) : Within cs r (atomCounts s op v) := by
  delta atomCounts
  split
  with_reducible refine within_ite (fun _ => ?_) (fun _ => ?_)
  with_reducible apply State.bump_within
  with_reducible exact sub_of hc (by decide)
  with_reducible assumption
  with_reducible apply State.bump_within
  with_reducible exact sub_of hc (by decide)
  with_reducible assumption
  with_reducible assumption

theorem onCoh_within {cs : List Part} {r : State} (f : Coherence → Coherence) (s : State) (hc : subParts [.coh] cs = true) (h : Within cs r s) (hf : ∀ c, c.nextTicket.length = 16 → (f c).nextTicket.length = 16) : Within cs r (onCoh f s) := by
  delta onCoh
  with_reducible refine within_set_coh (sub_of hc (by decide)) ?_ ?_
  with_reducible intro _
  with_reducible exact hf _ ‹_›
  with_reducible assumption

theorem illegalAt_within {cs : List Part} {r : State} (unit : Nat) (s : State) (hc : subParts [.coh] cs = true) (h : Within cs r s) : Within cs r (illegalAt unit s) := by
  delta illegalAt
  with_reducible apply onCoh_within
  with_reducible exact sub_of hc (by decide)
  with_reducible assumption
  with_reducible exact fun _ h => h

theorem send_within {cs : List Part} {r : State} (kind : MsgKind) (src : Nat) (dst : Nat) (line : Nat) (req : Nat) (data : List Nat) (poison : Nat) (s : State)
    (hc : subParts [.coh] cs = true) (h : Within cs r s) : Within cs r (send kind src dst line req data poison s) := by
  delta send
  with_reducible apply onCoh_within
  with_reducible exact sub_of hc (by decide)
  with_reducible assumption
  with_reducible exact fun _ h => h

theorem homeSend_within {cs : List Part} {r : State} (kind : MsgKind) (dst : Nat) (line : Nat) (req : Nat) (s : State) (hc : subParts [.coh] cs = true) (h : Within cs r s) : Within cs r (homeSend kind dst line req s) := by
  delta homeSend
  with_reducible apply send_within
  with_reducible exact sub_of hc (by decide)
  with_reducible assumption

theorem sendDataH_within {cs : List Part} {r : State} (dst : Nat) (line : Nat) (s : State) (hc : subParts [.coh] cs = true) (h : Within cs r s) : Within cs r (sendDataH dst line s) := by
  delta sendDataH
  with_reducible apply send_within
  with_reducible exact sub_of hc (by decide)
  with_reducible assumption

theorem startFetch_within {cs : List Part} {r : State} (agent : Nat) (line : Nat) (s : State) (hc : subParts [.coh] cs = true) (h : Within cs r s) : OptWithin cs r (startFetch agent line s) := by
  delta startFetch
  extract_lets a7
  split
  with_reducible refine within_some ?_
  with_reducible apply putLine_within
  with_reducible exact sub_of hc (by decide)
  with_reducible assumption
  with_reducible exact within_none

theorem respond_within {cs : List Part} {r : State} (kind : MsgKind) (agent : Nat) (line : Nat) (flag : Nat) (data : List Nat) (poison : Nat) (s : State)
    (hc : subParts [.coh] cs = true) (h : Within cs r s) : Within cs r (respond kind agent line flag data poison s) := by
  delta respond
  with_reducible apply send_within
  with_reducible exact sub_of hc (by decide)
  with_reducible assumption

theorem answerSnoop_within {cs : List Part} {r : State} (agent : Nat) (line : Nat) (kind : MsgKind) (requester : Nat) (s : State) (hc : subParts [.coh] cs = true) (h : Within cs r s) : Within cs r (answerSnoop agent line kind requester s) := by
  delta answerSnoop
  extract_lets a9 a10 a11
  split
  dsimp only [a9]
  with_reducible apply respond_within
  with_reducible exact sub_of hc (by decide)
  with_reducible assumption
  split
  dsimp only [a9]
  with_reducible apply respond_within
  with_reducible exact sub_of hc (by decide)
  with_reducible assumption
  with_reducible apply respond_within
  with_reducible exact sub_of hc (by decide)
  with_reducible assumption
  with_reducible apply respond_within
  with_reducible exact sub_of hc (by decide)
  dsimp only [a10]
  with_reducible apply send_within
  with_reducible exact sub_of hc (by decide)
  dsimp only [a11]
  with_reducible refine within_ite (fun _ => ?_) (fun _ => ?_)
  with_reducible apply putLine_within
  with_reducible exact sub_of hc (by decide)
  with_reducible assumption
  with_reducible apply dropLine_within
  with_reducible exact sub_of hc (by decide)
  with_reducible assumption
  with_reducible apply respond_within
  with_reducible exact sub_of hc (by decide)
  dsimp only [a10]
  with_reducible apply send_within
  with_reducible exact sub_of hc (by decide)
  dsimp only [a11]
  with_reducible refine within_ite (fun _ => ?_) (fun _ => ?_)
  with_reducible apply putLine_within
  with_reducible exact sub_of hc (by decide)
  with_reducible assumption
  with_reducible apply dropLine_within
  with_reducible exact sub_of hc (by decide)
  with_reducible assumption
  with_reducible apply respond_within
  with_reducible exact sub_of hc (by decide)
  dsimp only [a10]
  with_reducible apply send_within
  with_reducible exact sub_of hc (by decide)
  with_reducible apply dropLine_within
  with_reducible exact sub_of hc (by decide)
  with_reducible assumption
  with_reducible apply respond_within
  with_reducible exact sub_of hc (by decide)
  dsimp only [a10]
  with_reducible apply send_within
  with_reducible exact sub_of hc (by decide)
  with_reducible apply dropLine_within
  with_reducible exact sub_of hc (by decide)
  with_reducible assumption
  dsimp only [a9]
  with_reducible apply respond_within
  with_reducible exact sub_of hc (by decide)
  with_reducible apply dropLine_within
  with_reducible exact sub_of hc (by decide)
  with_reducible assumption
  dsimp only [a9]
  with_reducible apply respond_within
  with_reducible exact sub_of hc (by decide)
  with_reducible apply dropLine_within
  with_reducible exact sub_of hc (by decide)
  with_reducible assumption
  dsimp only [a9]
  with_reducible apply respond_within
  with_reducible exact sub_of hc (by decide)
  with_reducible apply dropLine_within
  with_reducible exact sub_of hc (by decide)
  with_reducible assumption
  dsimp only [a9]
  with_reducible apply respond_within
  with_reducible exact sub_of hc (by decide)
  with_reducible apply dropLine_within
  with_reducible exact sub_of hc (by decide)
  with_reducible assumption
  with_reducible apply respond_within
  with_reducible exact sub_of hc (by decide)
  with_reducible apply dropLine_within
  with_reducible exact sub_of hc (by decide)
  with_reducible assumption
  dsimp only [a9]
  with_reducible apply respond_within
  with_reducible exact sub_of hc (by decide)
  with_reducible apply putLine_within
  with_reducible exact sub_of hc (by decide)
  with_reducible assumption
  dsimp only [a9]
  with_reducible apply respond_within
  with_reducible exact sub_of hc (by decide)
  with_reducible apply putLine_within
  with_reducible exact sub_of hc (by decide)
  with_reducible assumption
  with_reducible apply illegalAt_within
  with_reducible exact sub_of hc (by decide)
  with_reducible assumption

theorem takeSnoop_within {cs : List Part} {r : State} (agent : Nat) (line : Nat) (kind : MsgKind) (requester : Nat) (s : State) (hc : subParts [.coh] cs = true) (h : Within cs r s) : Within cs r (takeSnoop agent line kind requester s) := by
  delta takeSnoop
  split
  with_reducible refine within_ite (fun _ => ?_) (fun _ => ?_)
  with_reducible apply putLine_within
  with_reducible exact sub_of hc (by decide)
  with_reducible assumption
  with_reducible apply answerSnoop_within
  with_reducible exact sub_of hc (by decide)
  with_reducible assumption
  with_reducible apply answerSnoop_within
  with_reducible exact sub_of hc (by decide)
  with_reducible assumption

theorem endHold_within {cs : List Part} {r : State} (agent : Nat) (line : Nat) (s : State) (hc : subParts [.coh] cs = true) (h : Within cs r s) : Within cs r (endHold agent line s) := by
  delta endHold
  split
  with_reducible assumption
  with_reducible refine within_ite (fun _ => ?_) (fun _ => ?_)
  with_reducible assumption
  extract_lets a13
  have e_a13 : Within cs r a13 := by
    unfold a13
    with_reducible apply putLine_within
    with_reducible exact sub_of hc (by decide)
    with_reducible assumption
  clear_value a13
  split
  with_reducible apply answerSnoop_within
  with_reducible exact sub_of hc (by decide)
  with_reducible assumption
  with_reducible assumption

theorem evict_within {cs : List Part} {r : State} (agent : Nat) (line : Nat) (s : State) (hc : subParts [.coh] cs = true) (h : Within cs r s) : Within cs r (evict agent line s) := by
  delta evict
  split
  with_reducible assumption
  split
  with_reducible apply send_within
  with_reducible exact sub_of hc (by decide)
  with_reducible apply putLine_within
  with_reducible exact sub_of hc (by decide)
  with_reducible assumption
  with_reducible apply dropLine_within
  with_reducible exact sub_of hc (by decide)
  with_reducible assumption
  with_reducible refine within_ite (fun _ => ?_) (fun _ => ?_)
  with_reducible apply send_within
  with_reducible exact sub_of hc (by decide)
  with_reducible apply putLine_within
  with_reducible exact sub_of hc (by decide)
  with_reducible assumption
  with_reducible apply dropLine_within
  with_reducible exact sub_of hc (by decide)
  with_reducible assumption
  with_reducible assumption

theorem install_within {cs : List Part} {r : State} (agent : Nat) (line : Nat) (s : State) (hc : subParts [.coh] cs = true) (h : Within cs r s) : Within cs r (install agent line s) := by
  delta install
  split
  with_reducible assumption
  split
  with_reducible assumption
  with_reducible refine within_ite (fun _ => ?_) (fun _ => ?_)
  with_reducible assumption
  extract_lets a18
  have e_a18 : Within cs r a18 := by
    unfold a18
    with_reducible apply respond_within
    with_reducible exact sub_of hc (by decide)
    with_reducible apply putLine_within
    with_reducible exact sub_of hc (by decide)
    with_reducible assumption
  clear_value a18
  with_reducible refine within_ite (fun _ => ?_) (fun _ => ?_)
  with_reducible apply dropLine_within
  with_reducible exact sub_of hc (by decide)
  with_reducible assumption
  with_reducible refine within_ite (fun _ => ?_) (fun _ => ?_)
  with_reducible assumption
  with_reducible apply evict_within
  with_reducible exact sub_of hc (by decide)
  with_reducible assumption

theorem takeMessage_within {cs : List Part} {r : State} (m : Msg) (s : State) (hc : subParts [.coh] cs = true) (h : Within cs r s) : Within cs r (takeMessage m s) := by
  delta takeMessage
  split
  with_reducible assumption
  with_reducible refine within_ite (fun _ => ?_) (fun _ => ?_)
  with_reducible assumption
  extract_lets a12
  with_reducible apply install_within
  with_reducible exact sub_of hc (by decide)
  with_reducible apply putLine_within
  with_reducible exact sub_of hc (by decide)
  with_reducible assumption

theorem leaveDomain_within {cs : List Part} {r : State} (agent : Nat) (s : State) (hc : subParts [.coh] cs = true) (h : Within cs r s) : Within cs r (leaveDomain agent s) := by
  delta leaveDomain
  with_reducible refine within_foldl (fun _ _ _ => ?_) ?_
  with_reducible apply evict_within
  with_reducible exact sub_of hc (by decide)
  with_reducible apply endHold_within
  with_reducible exact sub_of hc (by decide)
  with_reducible assumption
  with_reducible assumption

theorem setDir_within {cs : List Part} {r : State} (line : Nat) (d : DirEntry) (s : State) (hc : subParts [.coh] cs = true) (h : Within cs r s) : Within cs r (setDir line d s) := by
  delta setDir
  with_reducible apply onCoh_within
  with_reducible exact sub_of hc (by decide)
  with_reducible assumption
  with_reducible exact fun _ h => h

theorem clearDir_within {cs : List Part} {r : State} (line : Nat) (s : State) (hc : subParts [.coh] cs = true) (h : Within cs r s) : Within cs r (clearDir line s) := by
  delta clearDir
  with_reducible apply onCoh_within
  with_reducible exact sub_of hc (by decide)
  with_reducible assumption
  with_reducible exact fun _ h => h

theorem setOwner_within {cs : List Part} {r : State} (line : Nat) (agent : Nat) (s : State) (hc : subParts [.coh] cs = true) (h : Within cs r s) : Within cs r (setOwner line agent s) := by
  delta setOwner
  with_reducible apply setDir_within
  with_reducible exact sub_of hc (by decide)
  with_reducible assumption

theorem addSharer_within {cs : List Part} {r : State} (line : Nat) (agent : Nat) (d : DirEntry) (s : State) (hc : subParts [.coh] cs = true) (h : Within cs r s) : Within cs r (addSharer line agent d s) := by
  delta addSharer
  with_reducible refine within_ite (fun _ => ?_) (fun _ => ?_)
  with_reducible apply setDir_within
  with_reducible exact sub_of hc (by decide)
  with_reducible assumption
  with_reducible refine within_ite (fun _ => ?_) (fun _ => ?_)
  with_reducible apply setDir_within
  with_reducible exact sub_of hc (by decide)
  with_reducible assumption
  with_reducible apply setDir_within
  with_reducible exact sub_of hc (by decide)
  with_reducible assumption

theorem putTxn_within {cs : List Part} {r : State} (t : Txn) (s : State) (hc : subParts [.coh] cs = true) (h : Within cs r s) : Within cs r (putTxn t s) := by
  delta putTxn
  with_reducible apply onCoh_within
  with_reducible exact sub_of hc (by decide)
  with_reducible assumption
  with_reducible exact fun _ h => h

theorem closeTxn_within {cs : List Part} {r : State} (line : Nat) (s : State) (hc : subParts [.coh] cs = true) (h : Within cs r s) : Within cs r (closeTxn line s) := by
  delta closeTxn
  with_reducible apply onCoh_within
  with_reducible exact sub_of hc (by decide)
  with_reducible assumption
  with_reducible exact fun _ h => h

theorem runAtom_within {cs : List Part} {r : State} (line : Nat) (i : Nat) (op : Sys2Proof.AtomOp) (s : State) (hc : subParts [.live, .coh] cs = true) (h : Within cs r s) : PairWithin cs r (runAtom line i op s) := by
  delta runAtom
  with_reducible refine pairWithin_ite (fun _ => ?_) (fun _ => ?_)
  with_reducible refine within_mkP ?_
  with_reducible apply poisonHit_within
  with_reducible exact sub_of hc (by decide)
  with_reducible assumption
  extract_lets a9 a10
  with_reducible refine within_mkP ?_
  with_reducible apply storeGranule_within
  with_reducible exact sub_of hc (by decide)
  with_reducible apply atomCounts_within
  with_reducible exact sub_of hc (by decide)
  with_reducible assumption

theorem runUncached_within {cs : List Part} {r : State} (q : Req) (s : State) (hc : subParts [.live, .coh] cs = true) (h : Within cs r s) : Within cs r (runUncached q s) := by
  delta runUncached
  extract_lets a6 a7
  have e_a6 : Within cs r a6 := by
    unfold a6
    with_reducible apply countSlice_within
    with_reducible exact sub_of hc (by decide)
    with_reducible assumption
  clear_value a6
  have e_a7 : Within cs r a7 := by
    unfold a7
    split
    with_reducible apply homeSend_within
    with_reducible exact sub_of hc (by decide)
    with_reducible refine within_foldl (fun _ _ _ => ?_) ?_
    with_reducible apply storeGranule_within
    with_reducible exact sub_of hc (by decide)
    with_reducible assumption
    with_reducible assumption
    split
    with_reducible refine within_ite (fun _ => ?_) (fun _ => ?_)
    with_reducible refine within_of_pair (by assumption) ?_
    split
    with_reducible apply runAtom_within
    with_reducible exact sub_of hc (by decide)
    with_reducible assumption
    with_reducible refine within_mkP ?_
    with_reducible assumption
    with_reducible apply homeSend_within
    with_reducible exact sub_of hc (by decide)
    with_reducible refine within_of_pair (by assumption) ?_
    split
    with_reducible apply runAtom_within
    with_reducible exact sub_of hc (by decide)
    with_reducible assumption
    with_reducible refine within_mkP ?_
    with_reducible assumption
    with_reducible apply send_within
    with_reducible exact sub_of hc (by decide)
    with_reducible assumption
  clear_value a7
  with_reducible apply closeTxn_within
  with_reducible exact sub_of hc (by decide)
  with_reducible assumption

theorem finishTxn_within {cs : List Part} {r : State} (t : Txn) (s : State) (hc : subParts [.live, .coh] cs = true) (h : Within cs r s) : Within cs r (finishTxn t s) := by
  delta finishTxn
  extract_lets a6 a7 a8
  split
  split
  extract_lets a18
  with_reducible apply homeSend_within
  with_reducible exact sub_of hc (by decide)
  with_reducible apply putTxn_within
  with_reducible exact sub_of hc (by decide)
  with_reducible apply addSharer_within
  with_reducible exact sub_of hc (by decide)
  dsimp only [a7]
  with_reducible refine within_ite (fun _ => ?_) (fun _ => ?_)
  with_reducible apply sendDataH_within
  with_reducible exact sub_of hc (by decide)
  with_reducible assumption
  with_reducible assumption
  with_reducible apply homeSend_within
  with_reducible exact sub_of hc (by decide)
  with_reducible apply putTxn_within
  with_reducible exact sub_of hc (by decide)
  with_reducible apply setOwner_within
  with_reducible exact sub_of hc (by decide)
  with_reducible apply sendDataH_within
  with_reducible exact sub_of hc (by decide)
  with_reducible assumption
  with_reducible apply homeSend_within
  with_reducible exact sub_of hc (by decide)
  with_reducible apply putTxn_within
  with_reducible exact sub_of hc (by decide)
  with_reducible apply setOwner_within
  with_reducible exact sub_of hc (by decide)
  dsimp only [a7]
  with_reducible refine within_ite (fun _ => ?_) (fun _ => ?_)
  with_reducible apply sendDataH_within
  with_reducible exact sub_of hc (by decide)
  with_reducible assumption
  with_reducible assumption
  with_reducible apply homeSend_within
  with_reducible exact sub_of hc (by decide)
  with_reducible apply putTxn_within
  with_reducible exact sub_of hc (by decide)
  with_reducible apply setOwner_within
  with_reducible exact sub_of hc (by decide)
  dsimp only [a7]
  with_reducible refine within_ite (fun _ => ?_) (fun _ => ?_)
  with_reducible apply sendDataH_within
  with_reducible exact sub_of hc (by decide)
  with_reducible assumption
  with_reducible assumption
  split
  with_reducible apply runUncached_within
  with_reducible exact sub_of hc (by decide)
  with_reducible refine within_ite (fun _ => ?_) (fun _ => ?_)
  with_reducible apply clearDir_within
  with_reducible exact sub_of hc (by decide)
  with_reducible assumption
  with_reducible assumption
  with_reducible apply runUncached_within
  with_reducible exact sub_of hc (by decide)
  with_reducible assumption
  with_reducible apply runUncached_within
  with_reducible exact sub_of hc (by decide)
  with_reducible apply clearDir_within
  with_reducible exact sub_of hc (by decide)
  with_reducible assumption

theorem snoopAll_within {cs : List Part} {r : State} (kind : MsgKind) (line : Nat) (bcast : Bool) (a3 : List Nat) (a4 : State) (hc : subParts [.live, .coh] cs = true) (h : Within cs r a4) : Within cs r (snoopAll kind line bcast a3 a4) := by
  induction a3 generalizing a4 with
| nil => ?_
| cons x l ih => ?_
  all_goals rw [snoopAll]
  with_reducible assumption
  with_reducible apply ih
  with_reducible refine within_ite (fun _ => ?_) (fun _ => ?_)
  with_reducible apply State.bump_within
  with_reducible exact sub_of hc (by decide)
  with_reducible apply homeSend_within
  with_reducible exact sub_of hc (by decide)
  with_reducible assumption
  with_reducible apply homeSend_within
  with_reducible exact sub_of hc (by decide)
  with_reducible assumption

theorem snoopTxn_within {cs : List Part} {r : State} (t : Txn) (kind : MsgKind) (agents : List Nat) (bcast : Bool) (s : State) (hc : subParts [.live, .coh] cs = true) (h : Within cs r s) : Within cs r (snoopTxn t kind agents bcast s) := by
  delta snoopTxn
  extract_lets a9
  with_reducible refine within_ite (fun _ => ?_) (fun _ => ?_)
  with_reducible apply finishTxn_within
  with_reducible exact sub_of hc (by decide)
  with_reducible assumption
  with_reducible apply snoopAll_within
  with_reducible exact sub_of hc (by decide)
  with_reducible apply putTxn_within
  with_reducible exact sub_of hc (by decide)
  with_reducible assumption

theorem giveUp_within {cs : List Part} {r : State} (agent : Nat) (line : Nat) (s : State) (hc : subParts [.coh] cs = true) (h : Within cs r s) : Within cs r (giveUp agent line s) := by
  delta giveUp
  with_reducible refine within_ite (fun _ => ?_) (fun _ => ?_)
  with_reducible apply dropLine_within
  with_reducible exact sub_of hc (by decide)
  with_reducible assumption
  with_reducible assumption

theorem runReq_within {cs : List Part} {r : State} (t : Txn) (s : State) (hc : subParts [.live, .coh] cs = true) (h : Within cs r s) : Within cs r (runReq t s) := by
  delta runReq
  extract_lets a6 a7
  split
  with_reducible apply finishTxn_within
  with_reducible exact sub_of hc (by decide)
  with_reducible assumption
  with_reducible apply finishTxn_within
  with_reducible exact sub_of hc (by decide)
  with_reducible assumption
  with_reducible apply finishTxn_within
  with_reducible exact sub_of hc (by decide)
  with_reducible assumption
  with_reducible refine within_ite (fun _ => ?_) (fun _ => ?_)
  with_reducible apply homeSend_within
  with_reducible exact sub_of hc (by decide)
  with_reducible apply putTxn_within
  with_reducible exact sub_of hc (by decide)
  with_reducible assumption
  with_reducible apply finishTxn_within
  with_reducible exact sub_of hc (by decide)
  with_reducible assumption
  with_reducible refine within_ite (fun _ => ?_) (fun _ => ?_)
  with_reducible apply homeSend_within
  with_reducible exact sub_of hc (by decide)
  with_reducible apply putTxn_within
  with_reducible exact sub_of hc (by decide)
  with_reducible assumption
  with_reducible apply snoopTxn_within
  with_reducible exact sub_of hc (by decide)
  with_reducible apply sendDataH_within
  with_reducible exact sub_of hc (by decide)
  with_reducible assumption
  with_reducible refine within_ite (fun _ => ?_) (fun _ => ?_)
  with_reducible refine within_ite (fun _ => ?_) (fun _ => ?_)
  with_reducible apply illegalAt_within
  with_reducible exact sub_of hc (by decide)
  with_reducible assumption
  with_reducible apply homeSend_within
  with_reducible exact sub_of hc (by decide)
  with_reducible apply putTxn_within
  with_reducible exact sub_of hc (by decide)
  with_reducible assumption
  with_reducible refine within_ite (fun _ => ?_) (fun _ => ?_)
  with_reducible apply snoopTxn_within
  with_reducible exact sub_of hc (by decide)
  with_reducible assumption
  with_reducible apply snoopTxn_within
  with_reducible exact sub_of hc (by decide)
  with_reducible apply sendDataH_within
  with_reducible exact sub_of hc (by decide)
  with_reducible assumption
  with_reducible refine within_ite (fun _ => ?_) (fun _ => ?_)
  with_reducible apply homeSend_within
  with_reducible exact sub_of hc (by decide)
  with_reducible apply putTxn_within
  with_reducible exact sub_of hc (by decide)
  with_reducible assumption
  with_reducible apply finishTxn_within
  with_reducible exact sub_of hc (by decide)
  with_reducible assumption
  with_reducible refine within_ite (fun _ => ?_) (fun _ => ?_)
  with_reducible apply homeSend_within
  with_reducible exact sub_of hc (by decide)
  with_reducible apply putTxn_within
  with_reducible exact sub_of hc (by decide)
  with_reducible assumption
  with_reducible refine within_ite (fun _ => ?_) (fun _ => ?_)
  with_reducible apply snoopTxn_within
  with_reducible exact sub_of hc (by decide)
  with_reducible apply giveUp_within
  with_reducible exact sub_of hc (by decide)
  with_reducible assumption
  with_reducible apply snoopTxn_within
  with_reducible exact sub_of hc (by decide)
  with_reducible assumption
  with_reducible apply finishTxn_within
  with_reducible exact sub_of hc (by decide)
  with_reducible assumption

theorem startReq_within {cs : List Part} {r : State} (q : Req) (s : State) (hc : subParts [.live, .coh] cs = true) (h : Within cs r s) : OptWithin cs r (startReq q s) := by
  delta startReq
  extract_lets a6 a7 a8
  split
  split
  with_reducible exact within_none
  extract_lets a16 a17
  have e_a17 : Within cs r a17 := by
    unfold a17
    with_reducible apply snoopAll_within
    with_reducible exact sub_of hc (by decide)
    with_reducible apply State.bump_within
    with_reducible exact sub_of hc (by decide)
    dsimp only [a8]
    with_reducible refine within_ite (fun _ => ?_) (fun _ => ?_)
    with_reducible assumption
    with_reducible apply countSlice_within
    with_reducible exact sub_of hc (by decide)
    with_reducible assumption
  clear_value a17
  split
  with_reducible refine within_some ?_
  with_reducible apply runReq_within
  with_reducible exact sub_of hc (by decide)
  dsimp only [a7]
  with_reducible apply onCoh_within
  with_reducible exact sub_of hc (by decide)
  with_reducible apply clearDir_within
  with_reducible exact sub_of hc (by decide)
  with_reducible assumption
  with_reducible exact fun _ h => h
  with_reducible refine within_some ?_
  dsimp only [a7]
  with_reducible apply onCoh_within
  with_reducible exact sub_of hc (by decide)
  with_reducible assumption
  with_reducible exact fun _ h => h
  with_reducible refine within_some ?_
  with_reducible apply runReq_within
  with_reducible exact sub_of hc (by decide)
  dsimp only [a7]
  with_reducible apply onCoh_within
  with_reducible exact sub_of hc (by decide)
  dsimp only [a8]
  with_reducible refine within_ite (fun _ => ?_) (fun _ => ?_)
  with_reducible assumption
  with_reducible apply countSlice_within
  with_reducible exact sub_of hc (by decide)
  with_reducible assumption
  with_reducible exact fun _ h => h

theorem takeEviction_within {cs : List Part} {r : State} (q : Req) (s : State) (hc : subParts [.live, .coh] cs = true) (h : Within cs r s) : Within cs r (takeEviction q s) := by
  delta takeEviction
  split
  with_reducible refine within_ite (fun _ => ?_) (fun _ => ?_)
  extract_lets a12
  have e_a12 : Within cs r a12 := by
    unfold a12
    with_reducible refine within_ite (fun _ => ?_) (fun _ => ?_)
    with_reducible apply countSlice_within
    with_reducible exact sub_of hc (by decide)
    with_reducible apply storeHomeLine_within
    with_reducible exact sub_of hc (by decide)
    with_reducible assumption
    with_reducible assumption
  clear_value a12
  with_reducible apply homeSend_within
  with_reducible exact sub_of hc (by decide)
  with_reducible apply clearDir_within
  with_reducible exact sub_of hc (by decide)
  with_reducible assumption
  with_reducible apply illegalAt_within
  with_reducible exact sub_of hc (by decide)
  with_reducible assumption
  with_reducible apply illegalAt_within
  with_reducible exact sub_of hc (by decide)
  with_reducible assumption

theorem pump_within {cs : List Part} {r : State} (a0 : Nat) (a1 : State) (hc : subParts [.live, .coh] cs = true) (h : Within cs r a1) : Within cs r (pump a0 a1) := by
  induction a0 generalizing a1 with
| zero => ?_
| succ n ih => ?_
  all_goals rw [pump]
  with_reducible assumption
  split
  with_reducible apply ih
  with_reducible refine within_of_some (by assumption) ?_
  with_reducible refine within_findSome (fun _ => ?_)
  extract_lets a15
  have e_a15 : Within cs r a15 := by
    unfold a15
    with_reducible apply onCoh_within
    with_reducible exact sub_of hc (by decide)
    with_reducible assumption
    with_reducible exact fun _ h => h
  clear_value a15
  split
  with_reducible refine within_some ?_
  with_reducible apply takeEviction_within
  with_reducible exact sub_of hc (by decide)
  with_reducible assumption
  with_reducible apply startReq_within
  with_reducible exact sub_of hc (by decide)
  with_reducible assumption
  with_reducible assumption

theorem noteWaits_within {cs : List Part} {r : State} (s : State) (hc : subParts [.live, .coh] cs = true) (h : Within cs r s) : Within cs r (noteWaits s) := by
  delta noteWaits
  extract_lets a5
  with_reducible refine within_ite (fun _ => ?_) (fun _ => ?_)
  with_reducible assumption
  with_reducible apply onCoh_within
  with_reducible exact sub_of hc (by decide)
  with_reducible apply State.bumpBy_within
  with_reducible exact sub_of hc (by decide)
  with_reducible assumption
  with_reducible exact fun _ h => h

theorem pumpAll_within {cs : List Part} {r : State} (s : State) (hc : subParts [.live, .coh] cs = true) (h : Within cs r s) : Within cs r (pumpAll s) := by
  delta pumpAll
  with_reducible apply noteWaits_within
  with_reducible exact sub_of hc (by decide)
  with_reducible apply pump_within
  with_reducible exact sub_of hc (by decide)
  with_reducible assumption

theorem enqueue_within {cs : List Part} {r : State} (q : Req) (s : State) (hc : subParts [.coh] cs = true) (h : Within cs r s) : Within cs r (enqueue q s) := by
  delta enqueue
  with_reducible apply onCoh_within
  with_reducible exact sub_of hc (by decide)
  with_reducible assumption
  with_reducible exact fun _ h => h

theorem admitReq_within {cs : List Part} {r : State} (q : Req) (s : State) (hc : subParts [.live, .coh] cs = true) (h : Within cs r s) : Within cs r (admitReq q s) := by
  delta admitReq
  extract_lets a6 a7
  have e_a7 : Within cs r a7 := by
    unfold a7
    with_reducible apply enqueue_within
    with_reducible exact sub_of hc (by decide)
    with_reducible assumption
  clear_value a7
  with_reducible apply pumpAll_within
  with_reducible exact sub_of hc (by decide)
  with_reducible apply State.peak_within
  with_reducible exact sub_of hc (by decide)
  with_reducible assumption

theorem request_within {cs : List Part} {r : State} (q : Req) (s : State) (hc : subParts [.live, .coh] cs = true) (h : Within cs r s) : Within cs r (request q s) := by
  delta request
  extract_lets a6 a7
  with_reducible refine within_ite (fun _ => ?_) (fun _ => ?_)
  with_reducible apply admitReq_within
  with_reducible exact sub_of hc (by decide)
  with_reducible assumption
  with_reducible apply homeSend_within
  with_reducible exact sub_of hc (by decide)
  with_reducible apply State.bump_within
  with_reducible exact sub_of hc (by decide)
  with_reducible apply onCoh_within
  with_reducible exact sub_of hc (by decide)
  with_reducible assumption
  with_reducible intro _ _
  simp_all only [List.length_set, List.length_modify, List.length_map]

theorem sendReq_within {cs : List Part} {r : State} (q : Req) (s : State) (hc : subParts [.live, .coh] cs = true) (h : Within cs r s) : Within cs r (sendReq q s) := by
  delta sendReq
  with_reducible refine within_ite (fun _ => ?_) (fun _ => ?_)
  with_reducible apply send_within
  with_reducible exact sub_of hc (by decide)
  with_reducible assumption
  with_reducible apply request_within
  with_reducible exact sub_of hc (by decide)
  with_reducible assumption

theorem arriveRequests_within {cs : List Part} {r : State} (src : Nat) (dst : Nat) (a2 : Nat) (a3 : State) (hc : subParts [.live, .coh] cs = true) (h : Within cs r a3) : Within cs r (arriveRequests src dst a2 a3) := by
  induction a2 generalizing a3 with
| zero => ?_
| succ n ih => ?_
  all_goals rw [arriveRequests]
  with_reducible assumption
  split
  split
  with_reducible apply ih
  with_reducible apply request_within
  with_reducible exact sub_of hc (by decide)
  with_reducible apply onCoh_within
  with_reducible exact sub_of hc (by decide)
  with_reducible assumption
  with_reducible exact fun _ h => h
  with_reducible assumption
  with_reducible assumption

theorem evictionGone_within {cs : List Part} {r : State} (m : Msg) (s : State) (hc : subParts [.live, .coh] cs = true) (h : Within cs r s) : Within cs r (evictionGone m s) := by
  delta evictionGone
  with_reducible apply arriveRequests_within
  with_reducible exact sub_of hc (by decide)
  with_reducible assumption

theorem dropPointer_within {cs : List Part} {r : State} (agent : Nat) (line : Nat) (stale : Bool) (s : State) (hc : subParts [.live, .coh] cs = true) (h : Within cs r s) : Within cs r (dropPointer agent line stale s) := by
  delta dropPointer
  split
  with_reducible assumption
  extract_lets a13 a14
  have e_a14 : Within cs r a14 := by
    unfold a14
    with_reducible refine within_ite (fun _ => ?_) (fun _ => ?_)
    with_reducible apply State.bump_within
    with_reducible exact sub_of hc (by decide)
    with_reducible assumption
    with_reducible assumption
  clear_value a14
  with_reducible refine within_ite (fun _ => ?_) (fun _ => ?_)
  with_reducible refine within_ite (fun _ => ?_) (fun _ => ?_)
  with_reducible apply clearDir_within
  with_reducible exact sub_of hc (by decide)
  with_reducible assumption
  with_reducible assumption
  with_reducible apply onCoh_within
  with_reducible exact sub_of hc (by decide)
  with_reducible assumption
  with_reducible exact fun _ h => h

theorem answered_within {cs : List Part} {r : State} (agent : Nat) (line : Nat) (gone : Bool) (s : State) (hc : subParts [.live, .coh] cs = true) (h : Within cs r s) : Within cs r (answered agent line gone s) := by
  delta answered
  split
  extract_lets a13 a14
  with_reducible refine within_ite (fun _ => ?_) (fun _ => ?_)
  with_reducible apply pumpAll_within
  with_reducible exact sub_of hc (by decide)
  with_reducible apply finishTxn_within
  with_reducible exact sub_of hc (by decide)
  with_reducible assumption
  with_reducible apply putTxn_within
  with_reducible exact sub_of hc (by decide)
  with_reducible assumption
  split
  extract_lets a17 a18
  with_reducible refine within_ite (fun _ => ?_) (fun _ => ?_)
  with_reducible apply pumpAll_within
  with_reducible exact sub_of hc (by decide)
  with_reducible apply runReq_within
  with_reducible exact sub_of hc (by decide)
  with_reducible apply putTxn_within
  with_reducible exact sub_of hc (by decide)
  with_reducible apply clearDir_within
  with_reducible exact sub_of hc (by decide)
  with_reducible assumption
  with_reducible apply putTxn_within
  with_reducible exact sub_of hc (by decide)
  with_reducible assumption
  with_reducible assumption

theorem absorbCrossing_within {cs : List Part} {r : State} (dirty : Bool) (agent : Nat) (line : Nat) (data : List Nat) (poison : Nat) (s : State) (hc : subParts [.live, .coh] cs = true) (h : Within cs r s) : Within cs r (absorbCrossing dirty agent line data poison s) := by
  delta absorbCrossing
  extract_lets a10 a11
  have e_a10 : Within cs r a10 := by
    unfold a10
    with_reducible apply onCoh_within
    with_reducible exact sub_of hc (by decide)
    with_reducible assumption
    with_reducible exact fun _ h => h
  clear_value a10
  have e_a11 : Within cs r a11 := by
    unfold a11
    with_reducible refine within_ite (fun _ => ?_) (fun _ => ?_)
    with_reducible apply countSlice_within
    with_reducible exact sub_of hc (by decide)
    with_reducible apply storeHomeLine_within
    with_reducible exact sub_of hc (by decide)
    with_reducible assumption
    with_reducible assumption
  clear_value a11
  with_reducible apply answered_within
  with_reducible exact sub_of hc (by decide)
  with_reducible apply dropPointer_within
  with_reducible exact sub_of hc (by decide)
  with_reducible apply homeSend_within
  with_reducible exact sub_of hc (by decide)
  with_reducible assumption

theorem crossEviction_within {cs : List Part} {r : State} (agent : Nat) (line : Nat) (s : State) (hc : subParts [.live, .coh] cs = true) (h : Within cs r s) : Within cs r (crossEviction agent line s) := by
  delta crossEviction
  extract_lets a7
  have e_a7 : Within cs r a7 := by
    unfold a7
    with_reducible apply State.bump_within
    with_reducible exact sub_of hc (by decide)
    with_reducible assumption
  clear_value a7
  split
  with_reducible apply absorbCrossing_within
  with_reducible exact sub_of hc (by decide)
  with_reducible apply onCoh_within
  with_reducible exact sub_of hc (by decide)
  with_reducible assumption
  with_reducible exact fun _ h => h
  with_reducible refine within_ite (fun _ => ?_) (fun _ => ?_)
  with_reducible apply onCoh_within
  with_reducible exact sub_of hc (by decide)
  with_reducible assumption
  with_reducible exact fun _ h => h
  with_reducible apply illegalAt_within
  with_reducible exact sub_of hc (by decide)
  with_reducible assumption

theorem landEviction_within {cs : List Part} {r : State} (k : ReqKind) (m : Msg) (s : State) (hc : subParts [.live, .coh] cs = true) (h : Within cs r s) : Within cs r (landEviction k m s) := by
  delta landEviction
  with_reducible apply evictionGone_within
  with_reducible exact sub_of hc (by decide)
  with_reducible refine within_ite (fun _ => ?_) (fun _ => ?_)
  with_reducible apply absorbCrossing_within
  with_reducible exact sub_of hc (by decide)
  with_reducible assumption
  with_reducible apply pumpAll_within
  with_reducible exact sub_of hc (by decide)
  with_reducible apply enqueue_within
  with_reducible exact sub_of hc (by decide)
  with_reducible assumption

theorem landMsg_within {cs : List Part} {r : State} (m : Msg) (s : State) (hc : subParts [.live, .coh] cs = true) (h : Within cs r s) : Within cs r (landMsg m s) := by
  delta landMsg
  split
  with_reducible apply request_within
  with_reducible exact sub_of hc (by decide)
  with_reducible assumption
  with_reducible apply landEviction_within
  with_reducible exact sub_of hc (by decide)
  with_reducible assumption
  with_reducible apply landEviction_within
  with_reducible exact sub_of hc (by decide)
  with_reducible assumption
  with_reducible apply pumpAll_within
  with_reducible exact sub_of hc (by decide)
  with_reducible apply closeTxn_within
  with_reducible exact sub_of hc (by decide)
  with_reducible assumption
  with_reducible apply takeSnoop_within
  with_reducible exact sub_of hc (by decide)
  with_reducible assumption
  with_reducible apply takeSnoop_within
  with_reducible exact sub_of hc (by decide)
  with_reducible assumption
  with_reducible apply takeSnoop_within
  with_reducible exact sub_of hc (by decide)
  with_reducible assumption
  with_reducible apply takeSnoop_within
  with_reducible exact sub_of hc (by decide)
  with_reducible assumption
  with_reducible apply takeMessage_within
  with_reducible exact sub_of hc (by decide)
  with_reducible assumption
  with_reducible apply takeMessage_within
  with_reducible exact sub_of hc (by decide)
  with_reducible assumption
  with_reducible apply takeMessage_within
  with_reducible exact sub_of hc (by decide)
  with_reducible assumption
  with_reducible apply answered_within
  with_reducible exact sub_of hc (by decide)
  with_reducible apply dropPointer_within
  with_reducible exact sub_of hc (by decide)
  with_reducible assumption
  with_reducible apply answered_within
  with_reducible exact sub_of hc (by decide)
  with_reducible assumption
  with_reducible apply answered_within
  with_reducible exact sub_of hc (by decide)
  with_reducible apply storeHomeLine_within
  with_reducible exact sub_of hc (by decide)
  with_reducible assumption
  with_reducible apply answered_within
  with_reducible exact sub_of hc (by decide)
  with_reducible apply dropPointer_within
  with_reducible exact sub_of hc (by decide)
  with_reducible apply storeHomeLine_within
  with_reducible exact sub_of hc (by decide)
  with_reducible assumption
  with_reducible apply crossEviction_within
  with_reducible exact sub_of hc (by decide)
  with_reducible assumption
  with_reducible apply onCoh_within
  with_reducible exact sub_of hc (by decide)
  with_reducible assumption
  with_reducible exact fun _ h => h
  with_reducible apply dropLine_within
  with_reducible exact sub_of hc (by decide)
  with_reducible assumption
  with_reducible assumption
  with_reducible assumption
  with_reducible assumption

theorem deliver_within {cs : List Part} {r : State} (m : Msg) (s : State) (hc : subParts [.live, .coh] cs = true) (h : Within cs r s) : Within cs r (deliver m s) := by
  delta deliver
  with_reducible apply landMsg_within
  with_reducible exact sub_of hc (by decide)
  with_reducible apply onCoh_within
  with_reducible exact sub_of hc (by decide)
  with_reducible assumption
  with_reducible exact fun _ h => h

theorem lowestRetry_within {cs : List Part} {r : State} (slice : Nat) (s : State) (hc : subParts [.live, .coh] cs = true) (h : Within cs r s) : OptWithin cs r (lowestRetry slice s) := by
  delta lowestRetry
  split
  split
  with_reducible refine within_some ?_
  with_reducible apply admitReq_within
  with_reducible exact sub_of hc (by decide)
  with_reducible apply onCoh_within
  with_reducible exact sub_of hc (by decide)
  with_reducible assumption
  with_reducible exact fun _ h => h
  with_reducible exact within_none
  with_reducible exact within_none

theorem domainMoves_within {cs : List Part} {r : State} (slice : Nat) (s : State) (hc : subParts [.live, .coh] cs = true) (h : Within cs r s) : OptWithin cs r (domainMoves slice s) := by
  delta domainMoves
  split
  with_reducible refine within_some ?_
  with_reducible apply deliver_within
  with_reducible exact sub_of hc (by decide)
  with_reducible assumption
  split
  with_reducible refine within_some ?_
  with_reducible refine within_of_some (by assumption) ?_
  with_reducible apply lowestRetry_within
  with_reducible exact sub_of hc (by decide)
  with_reducible assumption
  with_reducible refine within_map (fun _ => ?_)
  with_reducible apply endHold_within
  with_reducible exact sub_of hc (by decide)
  with_reducible assumption

theorem settleWhile_within {cs : List Part} {r : State} (waits : State → Bool) (slice : Nat) (a2 : Nat) (a3 : State) (hc : subParts [.live, .coh] cs = true) (h : Within cs r a3) : Within cs r (settleWhile waits slice a2 a3) := by
  induction a2 generalizing a3 with
| zero => ?_
| succ n ih => ?_
  all_goals rw [settleWhile]
  with_reducible assumption
  with_reducible refine within_ite (fun _ => ?_) (fun _ => ?_)
  with_reducible assumption
  split
  with_reducible apply ih
  with_reducible refine within_of_some (by assumption) ?_
  with_reducible apply domainMoves_within
  with_reducible exact sub_of hc (by decide)
  with_reducible assumption
  with_reducible assumption

theorem deviceTurn_within {cs : List Part} {r : State} (kind : ReqKind) (req : Nat) (line : Nat) (s : State) (hc : subParts [.live, .coh] cs = true) (h : Within cs r s) : Within cs r (deviceTurn kind req line s) := by
  delta deviceTurn
  extract_lets a8 a9
  have e_a8 : Within cs r a8 := by
    unfold a8
    with_reducible apply request_within
    with_reducible exact sub_of hc (by decide)
    with_reducible assumption
  clear_value a8
  have e_a9 : Within cs r a9 := by
    unfold a9
    with_reducible apply settleWhile_within
    with_reducible exact sub_of hc (by decide)
    with_reducible assumption
  clear_value a9
  with_reducible refine within_ite (fun _ => ?_) (fun _ => ?_)
  with_reducible apply onCoh_within
  with_reducible exact sub_of hc (by decide)
  with_reducible assumption
  with_reducible exact fun _ h => h
  with_reducible assumption

theorem writeTurn_within {cs : List Part} {r : State} (req : Nat) (line : Nat) (s : State) (hc : subParts [.live, .coh] cs = true) (h : Within cs r s) : Within cs r (writeTurn req line s) := by
  delta writeTurn
  with_reducible apply deviceTurn_within
  with_reducible exact sub_of hc (by decide)
  with_reducible assumption

theorem settleFree_within {cs : List Part} {r : State} (line : Nat) (s : State) (hc : subParts [.live, .coh] cs = true) (h : Within cs r s) : Within cs r (settleFree line s) := by
  delta settleFree
  with_reducible apply countSlice_within
  with_reducible exact sub_of hc (by decide)
  with_reducible apply settleWhile_within
  with_reducible exact sub_of hc (by decide)
  with_reducible assumption

theorem readAtHome_within {cs : List Part} {r : State} (line : Nat) (s : State) (hc : subParts [.live, .coh] cs = true) (h : Within cs r s) : Within cs r (readAtHome line s) := by
  delta readAtHome
  with_reducible apply deviceTurn_within
  with_reducible exact sub_of hc (by decide)
  with_reducible assumption

theorem atHomeFor_within {cs : List Part} {r : State} (req : Nat) (g : Nat) (s : State) (hc : subParts [.live, .coh] cs = true) (h : Within cs r s) : Within cs r (atHomeFor req g s) := by
  delta atHomeFor
  with_reducible apply writeTurn_within
  with_reducible exact sub_of hc (by decide)
  with_reducible assumption

theorem atHome_within {cs : List Part} {r : State} (g : Nat) (s : State) (hc : subParts [.live, .coh] cs = true) (h : Within cs r s) : Within cs r (atHome g s) := by
  delta atHome
  with_reducible apply atHomeFor_within
  with_reducible exact sub_of hc (by decide)
  with_reducible assumption

theorem storeCell_within {cs : List Part} {r : State} (g : Nat) (v : Nat) (s : State) (hc : subParts [.coh] cs = true) (h : Within cs r s) : Within cs r (storeCell g v s) := by
  delta storeCell
  with_reducible apply setPoison_within
  with_reducible exact sub_of hc (by decide)
  with_reducible apply storeHome_within
  with_reducible exact sub_of hc (by decide)
  with_reducible assumption

theorem writeGranule_within {cs : List Part} {r : State} (g : Nat) (v : Nat) (s : State) (hc : subParts [.live, .coh] cs = true) (h : Within cs r s) : Within cs r (writeGranule g v s) := by
  delta writeGranule
  with_reducible apply storeCell_within
  with_reducible exact sub_of hc (by decide)
  with_reducible apply atHome_within
  with_reducible exact sub_of hc (by decide)
  with_reducible assumption

theorem writeTagWay_within {cs : List Part} {r : State} (b : Nat) (w : Nat) (v : Nat) (s : State) (hc : subParts [.live, .coh] cs = true) (h : Within cs r s) : Within cs r (writeTagWay b w v s) := by
  delta writeTagWay
  extract_lets a8
  have e_a8 : Within cs r a8 := by
    unfold a8
    with_reducible apply atHome_within
    with_reducible exact sub_of hc (by decide)
    with_reducible assumption
  clear_value a8
  with_reducible apply storeGranule_within
  with_reducible exact sub_of hc (by decide)
  with_reducible assumption

theorem writeRecord_within {cs : List Part} {r : State} (store : Nat) (i : Nat) (r_ : Nat) (s : State) (hc : subParts [.live, .coh, .results] cs = true) (h : Within cs r s) : Within cs r (writeRecord store i r_ s) := by
  delta writeRecord
  with_reducible refine within_ite (fun _ => ?_) (fun _ => ?_)
  with_reducible refine within_set_results (sub_of hc (by decide)) ?_
  with_reducible assumption
  with_reducible apply writeGranule_within
  with_reducible exact sub_of hc (by decide)
  with_reducible assumption

theorem writeMeter_within {cs : List Part} {r : State} (store : Nat) (i : Nat) (m : Nat) (s : State) (hc : subParts [.live, .coh, .results] cs = true) (h : Within cs r s) : Within cs r (writeMeter store i m s) := by
  delta writeMeter
  with_reducible refine within_ite (fun _ => ?_) (fun _ => ?_)
  with_reducible refine within_set_results (sub_of hc (by decide)) ?_
  with_reducible assumption
  with_reducible apply writeGranule_within
  with_reducible exact sub_of hc (by decide)
  with_reducible assumption

theorem reachMeter_within {cs : List Part} {r : State} (flume : Bool) (i : Nat) (s : State) (hc : subParts [.live, .coh] cs = true) (h : Within cs r s) : Within cs r (reachMeter flume i s) := by
  delta reachMeter
  with_reducible refine within_ite (fun _ => ?_) (fun _ => ?_)
  with_reducible assumption
  with_reducible apply atHomeFor_within
  with_reducible exact sub_of hc (by decide)
  with_reducible assumption

theorem updateMeterAt_within {cs : List Part} {r : State} (i : Nat) (m : Nat) (s : State) (hc : subParts [.live, .coh] cs = true) (h : Within cs r s) : Within cs r (updateMeterAt i m s) := by
  delta updateMeterAt
  extract_lets a7
  split
  with_reducible apply State.bump_within
  with_reducible exact sub_of hc (by decide)
  with_reducible apply putLine_within
  with_reducible exact sub_of hc (by decide)
  with_reducible assumption
  with_reducible apply State.bump_within
  with_reducible exact sub_of hc (by decide)
  with_reducible apply storeCell_within
  with_reducible exact sub_of hc (by decide)
  with_reducible assumption

theorem meterUpdate_within {cs : List Part} {r : State} (live : SMap Nat) (flume : Bool) (i : Nat) (len : Nat) (pre : Nat) (s : State) (hc : subParts [.live, .coh, .results] cs = true) (h : Within cs r s) : PairWithin cs r (meterUpdate live flume i len pre s) := by
  delta meterUpdate
  with_reducible refine pairWithin_ite (fun _ => ?_) (fun _ => ?_)
  with_reducible refine within_mkP ?_
  with_reducible apply poisonHit_within
  with_reducible exact sub_of hc (by decide)
  with_reducible assumption
  extract_lets a11 a12 a13
  with_reducible refine pairWithin_ite (fun _ => ?_) (fun _ => ?_)
  with_reducible refine within_mkP ?_
  with_reducible apply State.bump_within
  with_reducible exact sub_of hc (by decide)
  with_reducible assumption
  with_reducible refine pairWithin_ite (fun _ => ?_) (fun _ => ?_)
  with_reducible refine within_mkP ?_
  with_reducible apply State.bump_within
  with_reducible exact sub_of hc (by decide)
  with_reducible apply writeMeter_within
  with_reducible exact sub_of hc (by decide)
  with_reducible assumption
  with_reducible refine within_mkP ?_
  with_reducible apply updateMeterAt_within
  with_reducible exact sub_of hc (by decide)
  with_reducible assumption

theorem execMeterIdleRefresh_within {cs : List Part} {r : State} (flume : Bool) (meter : Nat) (s : State) (hc : subParts [.live, .coh, .results] cs = true) (h : Within cs r s) : ResultWithin cs r (execMeterIdleRefresh flume meter s) := by
  delta execMeterIdleRefresh
  with_reducible apply within_onUnit
  extract_lets a7 a8 a9 a10 a11 a12
  have e_a10 : Within cs r a10 := by
    unfold a10
    with_reducible apply reachMeter_within
    with_reducible exact sub_of hc (by decide)
    with_reducible assumption
  clear_value a10
  have e_a12 : Within cs r a12 := by
    unfold a12
    with_reducible apply State.bump_within
    with_reducible exact sub_of hc (by decide)
    with_reducible assumption
  clear_value a12
  with_reducible refine within_ite (fun _ => ?_) (fun _ => ?_)
  with_reducible assumption
  with_reducible refine within_ite (fun _ => ?_) (fun _ => ?_)
  with_reducible apply poisonHit_within
  with_reducible exact sub_of hc (by decide)
  with_reducible assumption
  with_reducible refine within_ite (fun _ => ?_) (fun _ => ?_)
  with_reducible apply writeMeter_within
  with_reducible exact sub_of hc (by decide)
  with_reducible assumption
  with_reducible apply updateMeterAt_within
  with_reducible exact sub_of hc (by decide)
  with_reducible assumption

theorem readLines_within {cs : List Part} {r : State} (first : Nat) (past : Nat) (s : State) (hc : subParts [.live, .coh] cs = true) (h : Within cs r s) : Within cs r (readLines first past s) := by
  delta readLines
  extract_lets a7 a8
  with_reducible refine within_foldl (fun _ _ _ => ?_) ?_
  with_reducible apply readAtHome_within
  with_reducible exact sub_of hc (by decide)
  with_reducible assumption
  with_reducible assumption

theorem postCount_within {cs : List Part} {r : State} (c : Nat) (len : Nat) (s : State) (hc : subParts [.results] cs = true) (h : Within cs r s) : Within cs r (postCount c len s) := by
  delta postCount
  with_reducible refine within_set_results (sub_of hc (by decide)) ?_
  with_reducible assumption

theorem execCounterFetchAdd_within {cs : List Part} {r : State} (home : Nat) (s : State) (hc : subParts [.live, .coh, .results] cs = true) (h : Within cs r s) : ResultWithin cs r (execCounterFetchAdd home s) := by
  delta execCounterFetchAdd
  with_reducible apply within_onUnit
  extract_lets a6 a7
  split
  with_reducible assumption
  with_reducible refine within_ite (fun _ => ?_) (fun _ => ?_)
  with_reducible assumption
  extract_lets a14 a15 a16
  have e_a14 : Within cs r a14 := by
    unfold a14
    with_reducible refine within_set_results (sub_of hc (by decide)) ?_
    with_reducible assumption
  clear_value a14
  have e_a16 : Within cs r a16 := by
    unfold a16
    with_reducible apply atHome_within
    with_reducible exact sub_of hc (by decide)
    with_reducible assumption
  clear_value a16
  with_reducible refine within_ite (fun _ => ?_) (fun _ => ?_)
  with_reducible apply poisonHit_within
  with_reducible exact sub_of hc (by decide)
  with_reducible assumption
  with_reducible apply storeCell_within
  with_reducible exact sub_of hc (by decide)
  with_reducible assumption

theorem opResultWrite_within {cs : List Part} {r : State} (d : Sys2Proof.Bytes) (s : State) (hc : subParts [.live, .coh, .results] cs = true) (h : Within cs r s) : OpWithin cs r (opResultWrite d s) := by
  delta opResultWrite
  extract_lets a6 a7 a8
  split
  with_reducible refine within_ofail ?_
  with_reducible assumption
  split
  with_reducible refine within_ofail ?_
  with_reducible assumption
  split
  with_reducible refine within_ofail ?_
  with_reducible assumption
  split
  with_reducible refine within_ofail ?_
  with_reducible assumption
  split
  with_reducible exact within_owait
  with_reducible refine within_odone ?_
  with_reducible apply writeRecord_within
  with_reducible exact sub_of hc (by decide)
  with_reducible assumption

theorem configureMeters_within {cs : List Part} {r : State} (store : Nat) (profile : Nat) (valid : Bool) (i : Nat) (a4 : Nat) (a5 : State) (hc : subParts [.live, .coh, .results] cs = true) (h : Within cs r a5) : Within cs r (configureMeters store profile valid i a4 a5) := by
  induction a4 generalizing i a5 with
| zero => ?_
| succ n ih => ?_
  all_goals rw [configureMeters]
  with_reducible assumption
  with_reducible apply ih
  with_reducible apply writeMeter_within
  with_reducible exact sub_of hc (by decide)
  with_reducible assumption

theorem opMeterConfigure_within {cs : List Part} {r : State} (d : Sys2Proof.Bytes) (s : State) (hc : subParts [.live, .coh, .results] cs = true) (h : Within cs r s) : OpWithin cs r (opMeterConfigure d s) := by
  delta opMeterConfigure
  extract_lets a6 a7 a8 a9
  split
  with_reducible refine within_ofail ?_
  with_reducible assumption
  split
  with_reducible refine within_ofail ?_
  with_reducible assumption
  split
  with_reducible refine within_ofail ?_
  with_reducible assumption
  split
  with_reducible refine within_ofail ?_
  with_reducible assumption
  with_reducible refine within_odone ?_
  with_reducible apply configureMeters_within
  with_reducible exact sub_of hc (by decide)
  with_reducible assumption

theorem opCounterReadClear_within {cs : List Part} {r : State} (ok : Bool) (d : Sys2Proof.Bytes) (s : State) (hc : subParts [.live, .coh, .out] cs = true) (h : Within cs r s) : OpWithin cs r (opCounterReadClear ok d s) := by
  delta opCounterReadClear
  extract_lets a7 a8 a9 a10 a11 a12
  have e_a10 : Within cs r a10 := by
    unfold a10
    with_reducible refine within_foldl (fun _ _ _ => ?_) ?_
    with_reducible apply atHome_within
    with_reducible exact sub_of hc (by decide)
    with_reducible assumption
    with_reducible assumption
  clear_value a10
  have e_a12 : Within cs r a12 := by
    unfold a12
    with_reducible apply emit_within
    with_reducible exact sub_of hc (by decide)
    with_reducible assumption
  clear_value a12
  split
  with_reducible refine within_ofail ?_
  with_reducible assumption
  split
  with_reducible refine within_ofail ?_
  with_reducible assumption
  split
  with_reducible refine within_ofail ?_
  with_reducible assumption
  with_reducible refine within_odone ?_
  with_reducible refine within_ite (fun _ => ?_) (fun _ => ?_)
  with_reducible refine within_foldl (fun _ _ _ => ?_) ?_
  with_reducible apply storeCell_within
  with_reducible exact sub_of hc (by decide)
  with_reducible assumption
  with_reducible assumption
  with_reducible assumption

theorem loadRecords_within {cs : List Part} {r : State} (store : Nat) (img : Sys2Proof.Bytes) (s : State) (hc : subParts [.live, .coh, .results] cs = true) (h : Within cs r s) : OpWithin cs r (loadRecords store img s) := by
  delta loadRecords
  extract_lets a7
  split
  with_reducible refine within_ofail ?_
  with_reducible assumption
  split
  with_reducible refine within_ofail ?_
  with_reducible assumption
  split
  with_reducible exact within_owait
  with_reducible refine within_odone ?_
  with_reducible refine within_foldl (fun _ _ _ => ?_) ?_
  with_reducible apply writeRecord_within
  with_reducible exact sub_of hc (by decide)
  with_reducible assumption
  with_reducible assumption

theorem loadMeters_within {cs : List Part} {r : State} (store : Nat) (img : Sys2Proof.Bytes) (s : State) (hc : subParts [.live, .coh, .results] cs = true) (h : Within cs r s) : OpWithin cs r (loadMeters store img s) := by
  delta loadMeters
  extract_lets a7
  split
  with_reducible refine within_ofail ?_
  with_reducible assumption
  split
  with_reducible refine within_ofail ?_
  with_reducible assumption
  with_reducible refine within_odone ?_
  with_reducible refine within_foldl (fun _ _ _ => ?_) ?_
  with_reducible apply writeMeter_within
  with_reducible exact sub_of hc (by decide)
  with_reducible assumption
  with_reducible assumption

theorem sealRecords_within {cs : List Part} {r : State} (store : Nat) (img : Sys2Proof.Bytes) (s : State) (hc : subParts [.live, .coh, .results] cs = true) (h : Within cs r s) : OptWithin cs r (sealRecords store img s) := by
  delta sealRecords
  extract_lets a7 a8
  have e_a8 : Within cs r a8 := by
    unfold a8
    with_reducible refine within_foldl (fun _ _ _ => ?_) ?_
    with_reducible apply writeRecord_within
    with_reducible exact sub_of hc (by decide)
    with_reducible assumption
    with_reducible assumption
  clear_value a8
  split
  with_reducible exact within_none
  with_reducible refine within_some ?_
  with_reducible refine within_foldl (fun _ _ _ => ?_) ?_
  with_reducible apply writeRecord_within
  with_reducible exact sub_of hc (by decide)
  with_reducible assumption
  with_reducible assumption

theorem sealMeters_within {cs : List Part} {r : State} (store : Nat) (img : Sys2Proof.Bytes) (old : Sys2Proof.Bytes) (s : State) (hc : subParts [.live, .coh, .results] cs = true) (h : Within cs r s) : OptWithin cs r (sealMeters store img old s) := by
  delta sealMeters
  extract_lets a8 a9
  have e_a9 : Within cs r a9 := by
    unfold a9
    with_reducible refine within_foldl (fun _ _ _ => ?_) ?_
    with_reducible refine within_ite (fun _ => ?_) (fun _ => ?_)
    with_reducible assumption
    with_reducible apply writeMeter_within
    with_reducible exact sub_of hc (by decide)
    with_reducible assumption
    with_reducible assumption
  clear_value a9
  split
  with_reducible exact within_none
  with_reducible refine within_some ?_
  with_reducible refine within_foldl (fun _ _ _ => ?_) ?_
  with_reducible apply writeMeter_within
  with_reducible exact sub_of hc (by decide)
  with_reducible assumption
  with_reducible assumption

theorem countRefusals_within {cs : List Part} {r : State} (bs : List Nat) (s : State) (hc : subParts [.live] cs = true) (h : Within cs r s) : Within cs r (countRefusals bs s) := by
  delta countRefusals
  with_reducible refine within_foldl (fun _ _ _ => ?_) ?_
  with_reducible apply State.bump_within
  with_reducible exact sub_of hc (by decide)
  with_reducible assumption
  with_reducible assumption

theorem refuseWindow_within {cs : List Part} {r : State} (bs : List Nat) (s : State) (hc : subParts [.live] cs = true) (h : Within cs r s) : Within cs r (refuseWindow bs s) := by
  delta refuseWindow
  with_reducible apply State.bump_within
  with_reducible exact sub_of hc (by decide)
  with_reducible apply countRefusals_within
  with_reducible exact sub_of hc (by decide)
  with_reducible assumption

theorem onScratch_within {cs : List Part} {r : State} (f : Scratch → Scratch) (s : State) (hc : subParts [.scratch] cs = true) (h : Within cs r s) (hf : ∀ c, Memory.wf c.mem = true → Memory.wf (f c).mem = true) : Within cs r (onScratch f s) := by
  delta onScratch
  with_reducible refine within_set_scratch (sub_of hc (by decide)) ?_ ?_
  with_reducible intro _
  with_reducible exact hf _ ‹_›
  with_reducible assumption

theorem clearBad_within {cs : List Part} {r : State} (w : Nat) (s : State) (hc : subParts [.scratch] cs = true) (h : Within cs r s) : Within cs r (clearBad w s) := by
  delta clearBad
  with_reducible apply onScratch_within
  with_reducible exact sub_of hc (by decide)
  with_reducible assumption
  with_reducible exact fun _ h => h

theorem touchWord_within {cs : List Part} {r : State} (off : Nat) (n : Nat) (s : State) (w : Nat) (hc : subParts [.live, .scratch, .integ] cs = true) (h : Within cs r s) : Within cs r (touchWord off n s w) := by
  delta touchWord
  extract_lets a8 a9
  have e_a9 : Within cs r a9 := by
    unfold a9
    with_reducible apply wrote_within
    with_reducible exact sub_of hc (by decide)
    with_reducible assumption
  clear_value a9
  with_reducible refine within_ite (fun _ => ?_) (fun _ => ?_)
  with_reducible apply clearBad_within
  with_reducible exact sub_of hc (by decide)
  with_reducible apply mergeDiscard_within
  with_reducible exact sub_of hc (by decide)
  with_reducible assumption
  split
  with_reducible refine within_ite (fun _ => ?_) (fun _ => ?_)
  with_reducible apply clearBad_within
  with_reducible exact sub_of hc (by decide)
  with_reducible refine within_of_pair (by assumption) ?_
  with_reducible apply mergeWriteFull_within
  with_reducible exact sub_of hc (by decide)
  with_reducible assumption
  with_reducible refine within_of_pair (by assumption) ?_
  with_reducible apply mergeWriteFull_within
  with_reducible exact sub_of hc (by decide)
  with_reducible assumption

theorem scratchWrite_within {cs : List Part} {r : State} (off : Nat) (data : Sys2Proof.Bytes) (s : State) (hc : subParts [.live, .scratch, .integ] cs = true) (h : Within cs r s) : Within cs r (scratchWrite off data s) := by
  delta scratchWrite
  with_reducible apply onScratch_within
  with_reducible exact sub_of hc (by decide)
  with_reducible refine within_foldl (fun _ _ _ => ?_) ?_
  with_reducible apply touchWord_within
  with_reducible exact sub_of hc (by decide)
  with_reducible assumption
  with_reducible assumption
  with_reducible intro _ _
  with_reducible exact Memory.wf_writeBytes _ _ ‹_›

theorem contendAt_within {cs : List Part} {r : State} (master : Nat) (write : Bool) (s : State) (b : Nat) (hc : subParts [.live, .scratch, .fresh] cs = true) (h : Within cs r s) : Within cs r (contendAt master write s b) := by
  delta contendAt
  extract_lets a8
  have e_a8 : Within cs r a8 := by
    unfold a8
    with_reducible apply onScratch_within
    with_reducible exact sub_of hc (by decide)
    with_reducible assumption
    with_reducible exact fun _ h => h
  clear_value a8
  split
  extract_lets a16
  have e_a16 : Within cs r a16 := by
    unfold a16
    with_reducible refine within_ite (fun _ => ?_) (fun _ => ?_)
    with_reducible apply State.bump_within
    with_reducible exact sub_of hc (by decide)
    with_reducible refine within_of_pair (by assumption) ?_
    with_reducible apply drawFresh_within
    with_reducible exact sub_of hc (by decide)
    with_reducible assumption
    with_reducible refine within_of_pair (by assumption) ?_
    with_reducible apply drawFresh_within
    with_reducible exact sub_of hc (by decide)
    with_reducible assumption
  clear_value a16
  with_reducible refine within_ite (fun _ => ?_) (fun _ => ?_)
  split
  with_reducible refine within_ite (fun _ => ?_) (fun _ => ?_)
  with_reducible apply State.bump_within
  with_reducible exact sub_of hc (by decide)
  with_reducible refine within_of_pair (by assumption) ?_
  with_reducible apply drawFresh_within
  with_reducible exact sub_of hc (by decide)
  with_reducible assumption
  with_reducible refine within_of_pair (by assumption) ?_
  with_reducible apply drawFresh_within
  with_reducible exact sub_of hc (by decide)
  with_reducible assumption
  with_reducible assumption

theorem contend_within {cs : List Part} {r : State} (master : Nat) (banks : List Nat) (write : Bool) (s : State) (hc : subParts [.live, .scratch, .fresh] cs = true) (h : Within cs r s) : Within cs r (contend master banks write s) := by
  delta contend
  with_reducible refine within_foldl (fun _ _ _ => ?_) ?_
  with_reducible apply contendAt_within
  with_reducible exact sub_of hc (by decide)
  with_reducible assumption
  with_reducible assumption

theorem discardTlp_within {cs : List Part} {r : State} (s : State) (hc : subParts [.out] cs = true) (h : Within cs r s) : Within cs r (discardTlp s) := by
  delta discardTlp
  with_reducible apply emit_within
  with_reducible exact sub_of hc (by decide)
  with_reducible assumption

theorem execScratchpadWindowWrite_within {cs : List Part} {r : State} (offset : Nat) (data : Sys2Proof.Bytes) (poisoned : Bool) (s : State)
    (hc : subParts [.live, .scratch, .integ, .fresh, .out] cs = true) (h : Within cs r s) : ResultWithin cs r (execScratchpadWindowWrite offset data poisoned s) := by
  delta execScratchpadWindowWrite
  with_reducible refine within_next ?_
  with_reducible refine within_ite (fun _ => ?_) (fun _ => ?_)
  with_reducible assumption
  with_reducible refine within_ite (fun _ => ?_) (fun _ => ?_)
  with_reducible apply discardTlp_within
  with_reducible exact sub_of hc (by decide)
  with_reducible assumption
  extract_lets a10
  with_reducible refine within_ite (fun _ => ?_) (fun _ => ?_)
  with_reducible apply scratchWrite_within
  with_reducible exact sub_of hc (by decide)
  with_reducible apply contend_within
  with_reducible exact sub_of hc (by decide)
  with_reducible assumption
  with_reducible apply discardTlp_within
  with_reducible exact sub_of hc (by decide)
  with_reducible apply refuseWindow_within
  with_reducible exact sub_of hc (by decide)
  with_reducible assumption

theorem windowRead_within {cs : List Part} {r : State} (offset : Nat) (length : Nat) (s : State) (hc : subParts [.live, .scratch, .fresh, .out] cs = true) (h : Within cs r s) : Within cs r (windowRead offset length s) := by
  delta windowRead
  with_reducible refine within_ite (fun _ => ?_) (fun _ => ?_)
  with_reducible apply emit_within
  with_reducible exact sub_of hc (by decide)
  with_reducible assumption
  extract_lets a8 a9
  have e_a9 : Within cs r a9 := by
    unfold a9
    with_reducible apply contend_within
    with_reducible exact sub_of hc (by decide)
    with_reducible assumption
  clear_value a9
  with_reducible refine within_ite (fun _ => ?_) (fun _ => ?_)
  with_reducible apply emit_within
  with_reducible exact sub_of hc (by decide)
  with_reducible apply refuseWindow_within
  with_reducible exact sub_of hc (by decide)
  with_reducible assumption
  with_reducible refine within_ite (fun _ => ?_) (fun _ => ?_)
  with_reducible apply emit_within
  with_reducible exact sub_of hc (by decide)
  with_reducible apply emit_within
  with_reducible exact sub_of hc (by decide)
  with_reducible refine within_set_fresh (sub_of hc (by decide)) ?_ ?_
  with_reducible exact Nat.le_add_right _ _
  with_reducible assumption
  with_reducible apply emit_within
  with_reducible exact sub_of hc (by decide)
  with_reducible assumption

theorem execScratchpadWindowRead_within {cs : List Part} {r : State} (at_ : Sys2Proof.WindowAt) (length : Nat) (s : State) (hc : subParts [.live, .scratch, .fresh, .out] cs = true) (h : Within cs r s) : ResultWithin cs r (execScratchpadWindowRead at_ length s) := by
  delta execScratchpadWindowRead
  with_reducible refine within_next ?_
  with_reducible refine within_ite (fun _ => ?_) (fun _ => ?_)
  with_reducible assumption
  with_reducible refine within_ite (fun _ => ?_) (fun _ => ?_)
  with_reducible apply emit_within
  with_reducible exact sub_of hc (by decide)
  with_reducible assumption
  with_reducible apply windowRead_within
  with_reducible exact sub_of hc (by decide)
  with_reducible assumption

theorem aliasWrite_within {cs : List Part} {r : State} (set : Bool) (offset : Nat) (data : Sys2Proof.Bytes) (poisoned : Bool) (s : State) (hc : subParts [.live, .scratch, .integ, .fresh, .out] cs = true) (h : Within cs r s) : Within cs r (aliasWrite set offset data poisoned s) := by
  delta aliasWrite
  with_reducible refine within_ite (fun _ => ?_) (fun _ => ?_)
  with_reducible assumption
  with_reducible refine within_ite (fun _ => ?_) (fun _ => ?_)
  with_reducible apply discardTlp_within
  with_reducible exact sub_of hc (by decide)
  with_reducible assumption
  extract_lets a11 a12 a13 a14
  have e_a12 : Within cs r a12 := by
    unfold a12
    with_reducible apply contend_within
    with_reducible exact sub_of hc (by decide)
    with_reducible assumption
  clear_value a12
  have e_a13 : Within cs r a13 := by
    unfold a13
    with_reducible refine within_foldl (fun _ _ _ => ?_) ?_
    with_reducible apply wrote_within
    with_reducible exact sub_of hc (by decide)
    with_reducible apply mergeDiscard_within
    with_reducible exact sub_of hc (by decide)
    with_reducible assumption
    with_reducible assumption
  clear_value a13
  with_reducible refine within_ite (fun _ => ?_) (fun _ => ?_)
  with_reducible apply discardTlp_within
  with_reducible exact sub_of hc (by decide)
  with_reducible apply refuseWindow_within
  with_reducible exact sub_of hc (by decide)
  with_reducible assumption
  with_reducible apply onScratch_within
  with_reducible exact sub_of hc (by decide)
  with_reducible assumption
  with_reducible intro _ _
  with_reducible exact Memory.wf_writeBytes _ _ ‹_›

theorem execAliasBitSet_within {cs : List Part} {r : State} (offset : Nat) (tlp : Sys2Proof.AliasWrite) (s : State) (hc : subParts [.live, .scratch, .integ, .fresh, .out] cs = true) (h : Within cs r s) : ResultWithin cs r (execAliasBitSet offset tlp s) := by
  delta execAliasBitSet
  with_reducible refine within_next ?_
  with_reducible apply aliasWrite_within
  with_reducible exact sub_of hc (by decide)
  with_reducible assumption

theorem execAliasBitClear_within {cs : List Part} {r : State} (offset : Nat) (tlp : Sys2Proof.AliasWrite) (s : State) (hc : subParts [.live, .scratch, .integ, .fresh, .out] cs = true) (h : Within cs r s) : ResultWithin cs r (execAliasBitClear offset tlp s) := by
  delta execAliasBitClear
  with_reducible refine within_next ?_
  with_reducible apply aliasWrite_within
  with_reducible exact sub_of hc (by decide)
  with_reducible assumption

theorem fillBank_within {cs : List Part} {r : State} (b : Nat) (s : State) (hc : subParts [.scratch, .integ] cs = true) (h : Within cs r s) : Within cs r (fillBank b s) := by
  delta fillBank
  with_reducible apply onInteg_within
  with_reducible exact sub_of hc (by decide)
  with_reducible apply onScratch_within
  with_reducible exact sub_of hc (by decide)
  with_reducible assumption
  with_reducible intro _ _
  exact SMap.wfFrom_filter _ ‹_›
  with_reducible exact fun _ h => h

theorem handOver_within {cs : List Part} {r : State} (mask : Nat) (code : Nat) (s : State) (hc : subParts [.live] cs = true) (h : Within cs r s) : PairWithin cs r (handOver mask code s) := by
  delta handOver
  with_reducible refine pairWithin_ite (fun _ => ?_) (fun _ => ?_)
  with_reducible refine within_mkP ?_
  with_reducible assumption
  with_reducible refine pairWithin_ite (fun _ => ?_) (fun _ => ?_)
  with_reducible refine within_mkP ?_
  with_reducible assumption
  with_reducible refine within_mkP ?_
  with_reducible refine within_foldl (fun _ _ _ => ?_) ?_
  with_reducible apply State.put_within
  with_reducible exact sub_of hc (by decide)
  with_reducible assumption
  with_reducible assumption

theorem setBankCode_within {cs : List Part} {r : State} (b : Nat) (code : Nat) (s : State) (hc : subParts [.live, .scratch, .integ] cs = true) (h : Within cs r s) : PairWithin cs r (setBankCode b code s) := by
  delta setBankCode
  with_reducible refine pairWithin_ite (fun _ => ?_) (fun _ => ?_)
  with_reducible refine within_mkP ?_
  with_reducible assumption
  with_reducible refine within_mkP ?_
  with_reducible apply fillBank_within
  with_reducible exact sub_of hc (by decide)
  with_reducible apply State.put_within
  with_reducible exact sub_of hc (by decide)
  with_reducible assumption

theorem bankCommitOne_within {cs : List Part} {r : State} (old : SMap Nat) (k : Nat) (owner : Nat) (s : State) (hc : subParts [.live, .scratch, .integ] cs = true) (h : Within cs r s) : Within cs r (bankCommitOne old k owner s) := by
  delta bankCommitOne
  extract_lets a8 a9
  with_reducible refine within_foldl (fun _ _ _ => ?_) ?_
  with_reducible refine within_ite (fun _ => ?_) (fun _ => ?_)
  with_reducible apply State.put_within
  with_reducible exact sub_of hc (by decide)
  with_reducible apply fillBank_within
  with_reducible exact sub_of hc (by decide)
  with_reducible assumption
  with_reducible refine within_ite (fun _ => ?_) (fun _ => ?_)
  with_reducible apply State.put_within
  with_reducible exact sub_of hc (by decide)
  with_reducible assumption
  with_reducible assumption
  with_reducible assumption

theorem bankCommit_within {cs : List Part} {r : State} (old : SMap Nat) (s : State) (hc : subParts [.live, .scratch, .integ] cs = true) (h : Within cs r s) : Within cs r (bankCommit old s) := by
  delta bankCommit
  with_reducible apply bankCommitOne_within
  with_reducible exact sub_of hc (by decide)
  with_reducible apply bankCommitOne_within
  with_reducible exact sub_of hc (by decide)
  with_reducible assumption

theorem landBytes_within {cs : List Part} {r : State} (banks : List Nat) (a1 : Nat) (a2 : Nat) (a3 : Sys2Proof.Bytes) (a4 : State) (hc : subParts [.live, .scratch, .integ] cs = true) (h : Within cs r a4) : Within cs r (landBytes banks a1 a2 a3 a4) := by
  induction a1 generalizing a2 a3 a4 with
| zero => ?_
| succ n ih => ?_
  all_goals rw [landBytes]
  with_reducible assumption
  with_reducible refine within_ite (fun _ => ?_) (fun _ => ?_)
  with_reducible assumption
  extract_lets a15 a16
  with_reducible apply ih
  with_reducible apply scratchWrite_within
  with_reducible exact sub_of hc (by decide)
  with_reducible assumption

theorem landCulvert_within {cs : List Part} {r : State} (off : Nat) (d : Sys2Proof.Bytes) (s : State) (hc : subParts [.live, .scratch, .integ, .fresh] cs = true) (h : Within cs r s) : Within cs r (landCulvert off d s) := by
  delta landCulvert
  extract_lets a7
  with_reducible refine within_ite (fun _ => ?_) (fun _ => ?_)
  with_reducible assumption
  with_reducible apply contend_within
  with_reducible exact sub_of hc (by decide)
  with_reducible apply landBytes_within
  with_reducible exact sub_of hc (by decide)
  with_reducible apply contend_within
  with_reducible exact sub_of hc (by decide)
  with_reducible assumption

theorem writeImage_within {cs : List Part} {r : State} (mask : Nat) (data : Sys2Proof.Bytes) (s : State) (hc : subParts [.live, .scratch, .integ] cs = true) (h : Within cs r s) : Within cs r (writeImage mask data s) := by
  delta writeImage
  extract_lets a7
  with_reducible refine within_foldl (fun _ _ _ => ?_) ?_
  with_reducible apply scratchWrite_within
  with_reducible exact sub_of hc (by decide)
  with_reducible assumption
  with_reducible assumption

theorem flashFails_within {cs : List Part} {r : State} (s : State) (hc : subParts [.fresh] cs = true) (h : Within cs r s) : PairWithin cs r (flashFails s) := by
  delta flashFails
  split
  with_reducible refine within_mkP ?_
  with_reducible refine within_of_pair (by assumption) ?_
  with_reducible apply drawFresh_within
  with_reducible exact sub_of hc (by decide)
  with_reducible assumption

theorem eraseSegment_within {cs : List Part} {r : State} (g : Segment) (gs : List Segment) (s : State) (hc : subParts [.faults, .live, .flash, .endpoint, .fresh, .out] cs = true) (h : Within cs r s) : PairWithin cs r (eraseSegment g gs s) := by
  delta eraseSegment
  extract_lets a7
  split
  extract_lets a14 a15 a16 a17
  have e_a16 : Within cs r a16 := by
    unfold a16
    with_reducible refine within_set_flash (sub_of hc (by decide)) ?_
    with_reducible refine within_of_pair (by assumption) ?_
    with_reducible apply flashFails_within
    with_reducible exact sub_of hc (by decide)
    with_reducible assumption
  clear_value a16
  have e_a17 : Within cs r a17 := by
    unfold a17
    with_reducible refine within_ite (fun _ => ?_) (fun _ => ?_)
    with_reducible apply raiseFault_within
    with_reducible exact sub_of hc (by decide)
    with_reducible apply vector_within
    with_reducible exact sub_of hc (by decide)
    with_reducible apply State.bump_within
    with_reducible exact sub_of hc (by decide)
    with_reducible assumption
    with_reducible assumption
  clear_value a17
  with_reducible refine within_mkP ?_
  with_reducible assumption

theorem eraseOldest_within {cs : List Part} {r : State} (a0 : List Segment) (a1 : State) (hc : subParts [.faults, .live, .flash, .endpoint, .fresh, .out] cs = true) (h : Within cs r a1) : PairWithin cs r (eraseOldest a0 a1) := by
  induction a0 generalizing a1 with
| nil => ?_
| cons x l ih => ?_
  all_goals rw [eraseOldest]
  with_reducible refine within_mkP ?_
  with_reducible assumption
  split
  with_reducible refine within_mkP ?_
  with_reducible refine within_of_pair (by assumption) ?_
  with_reducible apply eraseSegment_within
  with_reducible exact sub_of hc (by decide)
  with_reducible assumption
  with_reducible apply ih
  with_reducible refine within_of_pair (by assumption) ?_
  with_reducible apply eraseSegment_within
  with_reducible exact sub_of hc (by decide)
  with_reducible assumption

theorem takeErased_within {cs : List Part} {r : State} (a0 : Nat) (a1 : State) (hc : subParts [.flash, .fresh] cs = true) (h : Within cs r a1) : PairWithin cs r (takeErased a0 a1) := by
  induction a0 generalizing a1 with
| zero => ?_
| succ n ih => ?_
  all_goals rw [takeErased]
  with_reducible refine within_mkP ?_
  with_reducible assumption
  split
  with_reducible refine within_mkP ?_
  with_reducible refine within_of_pair (by assumption) ?_
  with_reducible apply flashFails_within
  with_reducible exact sub_of hc (by decide)
  with_reducible assumption
  with_reducible apply ih
  with_reducible refine within_set_flash (sub_of hc (by decide)) ?_
  with_reducible refine within_of_pair (by assumption) ?_
  with_reducible apply flashFails_within
  with_reducible exact sub_of hc (by decide)
  with_reducible assumption

theorem takeSegment_within {cs : List Part} {r : State} (s : State) (hc : subParts [.faults, .live, .flash, .endpoint, .fresh, .out] cs = true) (h : Within cs r s) : PairWithin cs r (takeSegment s) := by
  delta takeSegment
  split
  with_reducible refine within_mkP ?_
  with_reducible refine within_of_pair (by assumption) ?_
  with_reducible apply takeErased_within
  with_reducible exact sub_of hc (by decide)
  with_reducible assumption
  with_reducible apply eraseOldest_within
  with_reducible exact sub_of hc (by decide)
  with_reducible refine within_of_pair (by assumption) ?_
  with_reducible apply takeErased_within
  with_reducible exact sub_of hc (by decide)
  with_reducible assumption

theorem pushSegment_within {cs : List Part} {r : State} (g : Segment) (s : State) (hc : subParts [.flash] cs = true) (h : Within cs r s) : Within cs r (pushSegment g s) := by
  delta pushSegment
  with_reducible refine within_set_flash (sub_of hc (by decide)) ?_
  with_reducible assumption

theorem openSegment_within {cs : List Part} {r : State} (first : Nat) (slots : List Sys2Proof.Bytes) (s : State) (hc : subParts [.faults, .live, .flash, .endpoint, .fresh, .out] cs = true) (h : Within cs r s) : PairWithin cs r (openSegment first slots s) := by
  delta openSegment
  split
  with_reducible refine within_mkP ?_
  with_reducible apply pushSegment_within
  with_reducible exact sub_of hc (by decide)
  with_reducible refine within_of_pair (by assumption) ?_
  with_reducible apply takeSegment_within
  with_reducible exact sub_of hc (by decide)
  with_reducible assumption
  with_reducible refine within_mkP ?_
  with_reducible refine within_of_pair (by assumption) ?_
  with_reducible apply takeSegment_within
  with_reducible exact sub_of hc (by decide)
  with_reducible assumption

theorem appendSlots_within {cs : List Part} {r : State} (first : Nat) (slots : List Sys2Proof.Bytes) (s : State) (hc : subParts [.faults, .live, .flash, .endpoint, .fresh, .out] cs = true) (h : Within cs r s) : PairWithin cs r (appendSlots first slots s) := by
  delta appendSlots
  split
  with_reducible refine pairWithin_ite (fun _ => ?_) (fun _ => ?_)
  split
  with_reducible refine within_mkP ?_
  with_reducible refine within_set_flash (sub_of hc (by decide)) ?_
  with_reducible refine within_of_pair (by assumption) ?_
  with_reducible apply flashFails_within
  with_reducible exact sub_of hc (by decide)
  with_reducible assumption
  with_reducible apply openSegment_within
  with_reducible exact sub_of hc (by decide)
  with_reducible refine within_set_flash (sub_of hc (by decide)) ?_
  with_reducible refine within_of_pair (by assumption) ?_
  with_reducible apply flashFails_within
  with_reducible exact sub_of hc (by decide)
  with_reducible assumption
  with_reducible apply openSegment_within
  with_reducible exact sub_of hc (by decide)
  with_reducible assumption
  with_reducible apply openSegment_within
  with_reducible exact sub_of hc (by decide)
  with_reducible assumption

theorem writeSeal_within {cs : List Part} {r : State} (full : Bool) (last : Nat) (link : Sys2Proof.Bytes) (s : State) (hc : subParts [.faults, .live, .flash, .tally, .endpoint, .fresh, .out] cs = true) (h : Within cs r s) : PairWithin cs r (writeSeal full last link s) := by
  delta writeSeal
  with_reducible refine pairWithin_ite (fun _ => ?_) (fun _ => ?_)
  extract_lets a9
  split
  extract_lets a16
  split
  with_reducible refine within_mkP ?_
  with_reducible refine within_of_pair (by assumption) ?_
  with_reducible apply appendSlots_within
  with_reducible exact sub_of hc (by decide)
  with_reducible refine within_of_pair (by assumption) ?_
  with_reducible apply sign_within
  with_reducible exact sub_of hc (by decide)
  with_reducible assumption
  extract_lets a22 a23
  have e_a22 : Within cs r a22 := by
    unfold a22
    with_reducible apply State.put_within
    with_reducible exact sub_of hc (by decide)
    with_reducible apply State.bump_within
    with_reducible exact sub_of hc (by decide)
    with_reducible refine within_of_pair (by assumption) ?_
    with_reducible apply appendSlots_within
    with_reducible exact sub_of hc (by decide)
    with_reducible refine within_of_pair (by assumption) ?_
    with_reducible apply sign_within
    with_reducible exact sub_of hc (by decide)
    with_reducible assumption
  clear_value a22
  with_reducible refine within_mkP ?_
  with_reducible refine within_ite (fun _ => ?_) (fun _ => ?_)
  with_reducible refine within_set_tally (sub_of hc (by decide)) ?_
  with_reducible assumption
  with_reducible assumption
  with_reducible refine within_mkP ?_
  with_reducible assumption

theorem programRecords_within {cs : List Part} {r : State} (a0 : List TallyRec) (a1 : State) (hc : subParts [.faults, .live, .flash, .tally, .endpoint, .fresh, .out] cs = true) (h : Within cs r a1) : Within cs r (programRecords a0 a1) := by
  induction a0 generalizing a1 with
| nil => ?_
| cons x l ih => ?_
  all_goals rw [programRecords]
  with_reducible assumption
  split
  with_reducible refine within_of_pair (by assumption) ?_
  with_reducible apply appendSlots_within
  with_reducible exact sub_of hc (by decide)
  with_reducible assumption
  extract_lets a15 a16
  have e_a16 : Within cs r a16 := by
    unfold a16
    with_reducible refine within_set_tally (sub_of hc (by decide)) ?_
    with_reducible refine within_of_pair (by assumption) ?_
    with_reducible apply appendSlots_within
    with_reducible exact sub_of hc (by decide)
    with_reducible assumption
  clear_value a16
  with_reducible apply ih
  with_reducible refine within_ite (fun _ => ?_) (fun _ => ?_)
  with_reducible refine within_snd ?_
  with_reducible apply writeSeal_within
  with_reducible exact sub_of hc (by decide)
  with_reducible assumption
  with_reducible assumption

theorem commitBurst_within {cs : List Part} {r : State} (s : State) (rs : List TallyRec) (hc : subParts [.faults, .live, .flash, .tally, .endpoint, .scratch, .integ, .fresh, .out] cs = true) (h : Within cs r s) : Within cs r (commitBurst s rs) := by
  delta commitBurst
  extract_lets a6 a7
  have e_a7 : Within cs r a7 := by
    unfold a7
    with_reducible refine within_ite (fun _ => ?_) (fun _ => ?_)
    with_reducible assumption
    with_reducible apply landBytes_within
    with_reducible exact sub_of hc (by decide)
    with_reducible apply contend_within
    with_reducible exact sub_of hc (by decide)
    with_reducible assumption
  clear_value a7
  with_reducible apply programRecords_within
  with_reducible exact sub_of hc (by decide)
  with_reducible assumption

theorem tallyCommit_within {cs : List Part} {r : State} (s : State) (hc : subParts [.faults, .live, .flash, .tally, .endpoint, .scratch, .integ, .fresh, .out] cs = true) (h : Within cs r s) : Within cs r (tallyCommit s) := by
  delta tallyCommit
  with_reducible refine within_ite (fun _ => ?_) (fun _ => ?_)
  extract_lets a6
  with_reducible refine within_foldl (fun _ _ _ => ?_) ?_
  with_reducible apply commitBurst_within
  with_reducible exact sub_of hc (by decide)
  with_reducible assumption
  with_reducible assumption
  with_reducible assumption

theorem commitAndSeal_within {cs : List Part} {r : State} (s : State) (hc : subParts [.faults, .live, .flash, .tally, .endpoint, .scratch, .integ, .fresh, .out] cs = true) (h : Within cs r s) : PairWithin cs r (commitAndSeal s) := by
  delta commitAndSeal
  extract_lets a5
  have e_a5 : Within cs r a5 := by
    unfold a5
    with_reducible apply tallyCommit_within
    with_reducible exact sub_of hc (by decide)
    with_reducible assumption
  clear_value a5
  with_reducible refine pairWithin_ite (fun _ => ?_) (fun _ => ?_)
  split
  with_reducible refine within_mkP ?_
  with_reducible refine within_of_pair (by assumption) ?_
  with_reducible apply writeSeal_within
  with_reducible exact sub_of hc (by decide)
  with_reducible assumption
  with_reducible refine within_mkP ?_
  with_reducible assumption

theorem noteWindow_within {cs : List Part} {r : State} (s : State) (hc : subParts [.tally] cs = true) (h : Within cs r s) : Within cs r (noteWindow s) := by
  delta noteWindow
  extract_lets a5 a6 a7
  with_reducible refine within_ite (fun _ => ?_) (fun _ => ?_)
  with_reducible assumption
  with_reducible refine within_set_tally (sub_of hc (by decide)) ?_
  with_reducible assumption

theorem setCursor_within {cs : List Part} {r : State} (v : Nat) (s : State) (hc : subParts [.tally] cs = true) (h : Within cs r s) : Within cs r (setCursor v s) := by
  delta setCursor
  extract_lets a6 a7 a8
  have e_a7 : Within cs r a7 := by
    unfold a7
    with_reducible refine within_set_tally (sub_of hc (by decide)) ?_
    with_reducible assumption
  clear_value a7
  with_reducible refine within_set_tally (sub_of hc (by decide)) ?_
  with_reducible assumption

theorem reconcileChain_within {cs : List Part} {r : State} (valid : Bool) (s : State) (hc : subParts [.faults, .live, .vault, .tally, .endpoint, .fresh, .out] cs = true) (h : Within cs r s) : Within cs r (reconcileChain valid s) := by
  delta reconcileChain
  extract_lets a6 a7 a8 a9 a10 a11
  have e_a8 : Within cs r a8 := by
    unfold a8
    with_reducible refine within_set_tally (sub_of hc (by decide)) ?_
    with_reducible assumption
  clear_value a8
  have e_a11 : Within cs r a11 := by
    unfold a11
    with_reducible refine within_set_tally (sub_of hc (by decide)) ?_
    with_reducible assumption
  clear_value a11
  split
  with_reducible refine within_ite (fun _ => ?_) (fun _ => ?_)
  extract_lets a21
  have e_a21 : Within cs r a21 := by
    unfold a21
    with_reducible refine within_set_tally (sub_of hc (by decide)) ?_
    with_reducible assumption
  clear_value a21
  with_reducible apply raiseFault_within
  with_reducible exact sub_of hc (by decide)
  with_reducible apply numberPieces_within
  with_reducible exact sub_of hc (by decide)
  with_reducible assumption
  with_reducible refine within_set_tally (sub_of hc (by decide)) ?_
  with_reducible assumption
  split
  with_reducible apply raiseFault_within
  with_reducible exact sub_of hc (by decide)
  with_reducible apply numberRecord_within
  with_reducible exact sub_of hc (by decide)
  with_reducible refine within_of_pair (by assumption) ?_
  with_reducible apply drawFresh_within
  with_reducible exact sub_of hc (by decide)
  with_reducible assumption

theorem execTallyCommit_within {cs : List Part} {r : State} (s : State) (hc : subParts [.faults, .live, .flash, .tally, .endpoint, .scratch, .integ, .fresh, .out] cs = true) (h : Within cs r s) : ResultWithin cs r (execTallyCommit s) := by
  delta execTallyCommit
  with_reducible refine within_next ?_
  with_reducible apply tallyCommit_within
  with_reducible exact sub_of hc (by decide)
  with_reducible assumption

theorem freshHome_within {cs : List Part} {r : State} (req : Nat) (store : Nat) (i : Nat) (s : State) (hc : subParts [.live, .coh] cs = true) (h : Within cs r s) : Within cs r (freshHome req store i s) := by
  delta freshHome
  with_reducible refine within_ite (fun _ => ?_) (fun _ => ?_)
  with_reducible assumption
  with_reducible apply atHomeFor_within
  with_reducible exact sub_of hc (by decide)
  with_reducible assumption

theorem storeFresh_within {cs : List Part} {r : State} (store : Nat) (i : Nat) (c : Nat) (s : State) (hc : subParts [.live, .coh, .results, .headgate] cs = true) (h : Within cs r s) : Within cs r (storeFresh store i c s) := by
  delta storeFresh
  extract_lets a8 a9 a10
  have e_a8 : Within cs r a8 := by
    unfold a8
    with_reducible apply State.put_within
    with_reducible exact sub_of hc (by decide)
    with_reducible assumption
  clear_value a8
  with_reducible refine within_ite (fun _ => ?_) (fun _ => ?_)
  with_reducible refine within_update (ps := [.results, .headgate]) rfl (sub_of hc (by decide)) (fun p hp => by cases p <;> first | exact absurd (by decide) hp | with_unfolding_all rfl) rfl (Nat.le_refl _) (Nat.le_refl _) (List.suffix_refl _) id id id id id id id id id id ?_
  with_reducible assumption
  with_reducible apply storeCell_within
  with_reducible exact sub_of hc (by decide)
  with_reducible assumption

theorem setFresh_within {cs : List Part} {r : State} (store : Nat) (i : Nat) (f : Nat → Nat) (s : State) (hc : subParts [.live, .coh, .results, .headgate] cs = true) (h : Within cs r s) : Within cs r (setFresh store i f s) := by
  delta setFresh
  extract_lets a8 a9 a10 a11
  have e_a8 : Within cs r a8 := by
    unfold a8
    with_reducible apply freshHome_within
    with_reducible exact sub_of hc (by decide)
    with_reducible assumption
  clear_value a8
  have e_a10 : Within cs r a10 := by
    unfold a10
    with_reducible apply storeFresh_within
    with_reducible exact sub_of hc (by decide)
    with_reducible assumption
  clear_value a10
  with_reducible refine within_ite (fun _ => ?_) (fun _ => ?_)
  with_reducible assumption
  with_reducible refine within_set_coh (sub_of hc (by decide)) id ?_
  with_reducible assumption

theorem freshSeen_within {cs : List Part} {r : State} (store : Nat) (i : Nat) (s : State) (hc : subParts [.results] cs = true) (h : Within cs r s) : Within cs r (freshSeen store i s) := by
  delta freshSeen
  with_reducible refine within_ite (fun _ => ?_) (fun _ => ?_)
  with_reducible refine within_set_results (sub_of hc (by decide)) ?_
  with_reducible assumption
  with_reducible assumption

theorem freshHit_within {cs : List Part} {r : State} (store : Nat) (i : Nat) (s : State) (hc : subParts [.live, .results] cs = true) (h : Within cs r s) : Within cs r (freshHit store i s) := by
  delta freshHit
  with_reducible refine within_ite (fun _ => ?_) (fun _ => ?_)
  with_reducible apply freshSeen_within
  with_reducible exact sub_of hc (by decide)
  with_reducible assumption
  with_reducible apply poisonHit_within
  with_reducible exact sub_of hc (by decide)
  with_reducible assumption

theorem authRows67_within {cs : List Part} {r : State} (p : Sys2Proof.Bytes) (record : Nat) (payload : Sys2Proof.Bytes) (f : Nat) (s : State) (hc : subParts [.live] cs = true) (h : Within cs r s) : PairWithin cs r (authRows67 p record payload f s) := by
  delta authRows67
  with_reducible refine pairWithin_ite (fun _ => ?_) (fun _ => ?_)
  with_reducible refine within_mkP ?_
  with_reducible assumption
  extract_lets a10 a11
  with_reducible refine pairWithin_ite (fun _ => ?_) (fun _ => ?_)
  with_reducible refine within_mkP ?_
  with_reducible assumption
  with_reducible refine pairWithin_ite (fun _ => ?_) (fun _ => ?_)
  with_reducible refine within_mkP ?_
  with_reducible refine within_ite (fun _ => ?_) (fun _ => ?_)
  with_reducible apply State.bump_within
  with_reducible exact sub_of hc (by decide)
  with_reducible assumption
  with_reducible assumption
  with_reducible refine within_mkP ?_
  with_reducible assumption

theorem countRefusal_within {cs : List Part} {r : State} (replay : Bool) (p : Sys2Proof.Bytes) (number : Nat) (record : Nat) (link : Nat) (v : Nat) (s : State)
    (hc : subParts [.live, .vault, .tally, .endpoint, .coh, .results, .headgate, .out] cs = true) (h : Within cs r s) : Within cs r (countRefusal replay p number record link v s) := by
  delta countRefusal
  with_reducible refine within_ite (fun _ => ?_) (fun _ => ?_)
  with_reducible assumption
  extract_lets a12 a13
  split
  extract_lets a20
  have e_a20 : Within cs r a20 := by
    unfold a20
    with_reducible apply storeFresh_within
    with_reducible exact sub_of hc (by decide)
    with_reducible assumption
  clear_value a20
  with_reducible refine within_ite (fun _ => ?_) (fun _ => ?_)
  with_reducible apply journal_within
  with_reducible exact sub_of hc (by decide)
  with_reducible assumption
  with_reducible assumption

theorem issueValue_within {cs : List Part} {r : State} (req : Nat) (p : Sys2Proof.Bytes) (record : Nat) (s : State) (hc : subParts [.live, .coh, .results, .headgate] cs = true) (h : Within cs r s) : PairWithin cs r (issueValue req p record s) := by
  delta issueValue
  with_reducible refine pairWithin_ite (fun _ => ?_) (fun _ => ?_)
  with_reducible refine within_mkP ?_
  with_reducible assumption
  extract_lets a9 a10 a11
  have e_a10 : Within cs r a10 := by
    unfold a10
    with_reducible apply freshHome_within
    with_reducible exact sub_of hc (by decide)
    with_reducible assumption
  clear_value a10
  with_reducible refine pairWithin_ite (fun _ => ?_) (fun _ => ?_)
  with_reducible refine within_mkP ?_
  with_reducible apply freshHit_within
  with_reducible exact sub_of hc (by decide)
  with_reducible assumption
  with_reducible refine pairWithin_ite (fun _ => ?_) (fun _ => ?_)
  with_reducible refine within_mkP ?_
  with_reducible assumption
  with_reducible refine pairWithin_ite (fun _ => ?_) (fun _ => ?_)
  with_reducible refine within_mkP ?_
  with_reducible apply State.bump_within
  with_reducible exact sub_of hc (by decide)
  with_reducible assumption
  with_reducible refine within_mkP ?_
  with_reducible apply storeFresh_within
  with_reducible exact sub_of hc (by decide)
  with_reducible assumption

theorem generate_within {cs : List Part} {r : State} (req : Nat) (p : Sys2Proof.Bytes) (key : Sys2Proof.Bytes) (d : Sys2Proof.Bytes) (record : Nat) (engine : Nat) (s : State)
    (hc : subParts [.live, .coh, .results, .headgate] cs = true) (h : Within cs r s) : PairWithin cs r (generate req p key d record engine s) := by
  delta generate
  split
  extract_lets a17
  have e_a17 : Within cs r a17 := by
    unfold a17
    with_reducible apply State.bump_within
    with_reducible exact sub_of hc (by decide)
    with_reducible apply State.bump_within
    with_reducible exact sub_of hc (by decide)
    with_reducible refine within_of_pair (by assumption) ?_
    with_reducible apply issueValue_within
    with_reducible exact sub_of hc (by decide)
    with_reducible assumption
  clear_value a17
  with_reducible refine within_mkP ?_
  with_reducible assumption
  with_reducible refine within_mkP ?_
  with_reducible refine within_of_pair (by assumption) ?_
  with_reducible apply issueValue_within
  with_reducible exact sub_of hc (by decide)
  with_reducible assumption

theorem compareAdvance_within {cs : List Part} {r : State} (req : Nat) (w : MacWork) (record : Nat) (link : Nat) (s : State)
    (hc : subParts [.live, .vault, .tally, .endpoint, .coh, .results, .headgate, .out] cs = true) (h : Within cs r s) : PairWithin cs r (compareAdvance req w record link s) := by
  delta compareAdvance
  extract_lets a9 a10 a11 a12 a13 a14 a15
  have e_a11 : Within cs r a11 := by
    unfold a11
    with_reducible apply freshHome_within
    with_reducible exact sub_of hc (by decide)
    with_reducible assumption
  clear_value a11
  have e_a14 : Within cs r a14 := by
    unfold a14
    with_reducible apply storeFresh_within
    with_reducible exact sub_of hc (by decide)
    with_reducible assumption
  clear_value a14
  have e_a15 : Within cs r a15 := by
    unfold a15
    with_reducible refine within_ite (fun _ => ?_) (fun _ => ?_)
    with_reducible apply State.bump_within
    with_reducible exact sub_of hc (by decide)
    with_reducible assumption
    with_reducible assumption
  clear_value a15
  with_reducible refine pairWithin_ite (fun _ => ?_) (fun _ => ?_)
  with_reducible refine within_mkP ?_
  with_reducible assumption
  with_reducible refine pairWithin_ite (fun _ => ?_) (fun _ => ?_)
  with_reducible refine within_mkP ?_
  with_reducible apply freshHit_within
  with_reducible exact sub_of hc (by decide)
  with_reducible assumption
  with_reducible refine pairWithin_ite (fun _ => ?_) (fun _ => ?_)
  with_reducible refine within_mkP ?_
  with_reducible apply journal_within
  with_reducible exact sub_of hc (by decide)
  with_reducible assumption
  with_reducible refine pairWithin_ite (fun _ => ?_) (fun _ => ?_)
  with_reducible refine within_mkP ?_
  with_reducible apply storeFresh_within
  with_reducible exact sub_of hc (by decide)
  with_reducible assumption
  with_reducible refine within_mkP ?_
  with_reducible apply countRefusal_within
  with_reducible exact sub_of hc (by decide)
  with_reducible assumption

theorem countFailure_within {cs : List Part} {r : State} (req : Nat) (w : MacWork) (record : Nat) (link : Nat) (s : State)
    (hc : subParts [.live, .vault, .tally, .endpoint, .coh, .results, .headgate, .out] cs = true) (h : Within cs r s) : PairWithin cs r (countFailure req w record link s) := by
  delta countFailure
  extract_lets a9 a10 a11 a12
  have e_a12 : Within cs r a12 := by
    unfold a12
    with_reducible apply freshHome_within
    with_reducible exact sub_of hc (by decide)
    with_reducible assumption
  clear_value a12
  with_reducible refine pairWithin_ite (fun _ => ?_) (fun _ => ?_)
  with_reducible refine within_mkP ?_
  with_reducible assumption
  with_reducible refine pairWithin_ite (fun _ => ?_) (fun _ => ?_)
  with_reducible refine within_mkP ?_
  with_reducible apply freshHit_within
  with_reducible exact sub_of hc (by decide)
  with_reducible assumption
  with_reducible refine within_mkP ?_
  with_reducible apply countRefusal_within
  with_reducible exact sub_of hc (by decide)
  with_reducible assumption

theorem authEnd_within {cs : List Part} {r : State} (req : Nat) (live : SMap Nat) (w : MacWork) (record : Nat) (link : Nat) (payload : Sys2Proof.Bytes) (s : State)
    (hc : subParts [.live, .vault, .tally, .endpoint, .coh, .results, .headgate, .out] cs = true) (h : Within cs r s) : PairWithin cs r (authEnd req live w record link payload s) := by
  delta authEnd
  extract_lets a11 a12 a13
  have e_a12 : Within cs r a12 := by
    unfold a12
    with_reducible apply State.bump_within
    with_reducible exact sub_of hc (by decide)
    with_reducible assumption
  clear_value a12
  split
  with_reducible refine within_mkP ?_
  with_reducible assumption
  extract_lets a21
  with_reducible refine pairWithin_ite (fun _ => ?_) (fun _ => ?_)
  with_reducible refine within_mkP ?_
  with_reducible assumption
  with_reducible refine pairWithin_ite (fun _ => ?_) (fun _ => ?_)
  split
  with_reducible refine within_mkP ?_
  with_reducible refine within_of_pair (by assumption) ?_
  with_reducible apply generate_within
  with_reducible exact sub_of hc (by decide)
  with_reducible assumption
  with_reducible refine within_mkP ?_
  with_reducible refine within_of_pair (by assumption) ?_
  with_reducible apply generate_within
  with_reducible exact sub_of hc (by decide)
  with_reducible assumption
  with_reducible refine within_mkP ?_
  with_reducible refine within_of_pair (by assumption) ?_
  with_reducible apply generate_within
  with_reducible exact sub_of hc (by decide)
  with_reducible assumption
  with_reducible refine pairWithin_ite (fun _ => ?_) (fun _ => ?_)
  with_reducible apply countFailure_within
  with_reducible exact sub_of hc (by decide)
  with_reducible assumption
  split
  with_reducible refine within_mkP ?_
  with_reducible refine within_of_pair (by assumption) ?_
  with_reducible apply compareAdvance_within
  with_reducible exact sub_of hc (by decide)
  with_reducible assumption
  with_reducible refine within_mkP ?_
  with_reducible refine within_of_pair (by assumption) ?_
  with_reducible apply compareAdvance_within
  with_reducible exact sub_of hc (by decide)
  with_reducible assumption
  with_reducible refine pairWithin_ite (fun _ => ?_) (fun _ => ?_)
  with_reducible refine within_mkP ?_
  with_reducible refine within_of_pair (by assumption) ?_
  with_reducible apply compareAdvance_within
  with_reducible exact sub_of hc (by decide)
  with_reducible assumption
  split
  with_reducible refine within_mkP ?_
  with_reducible refine within_of_pair (by assumption) ?_
  with_reducible apply compareAdvance_within
  with_reducible exact sub_of hc (by decide)
  with_reducible assumption
  split
  with_reducible refine within_mkP ?_
  with_reducible apply State.bump_within
  with_reducible exact sub_of hc (by decide)
  with_reducible refine within_of_pair (by assumption) ?_
  with_reducible apply generate_within
  with_reducible exact sub_of hc (by decide)
  with_reducible refine within_of_pair (by assumption) ?_
  with_reducible apply compareAdvance_within
  with_reducible exact sub_of hc (by decide)
  with_reducible assumption
  with_reducible refine within_mkP ?_
  with_reducible refine within_of_pair (by assumption) ?_
  with_reducible apply generate_within
  with_reducible exact sub_of hc (by decide)
  with_reducible refine within_of_pair (by assumption) ?_
  with_reducible apply compareAdvance_within
  with_reducible exact sub_of hc (by decide)
  with_reducible assumption
  with_reducible refine within_mkP ?_
  with_reducible refine within_of_pair (by assumption) ?_
  with_reducible apply generate_within
  with_reducible exact sub_of hc (by decide)
  with_reducible refine within_of_pair (by assumption) ?_
  with_reducible apply compareAdvance_within
  with_reducible exact sub_of hc (by decide)
  with_reducible assumption

theorem countAuth_within {cs : List Part} {r : State} (status : Nat) (verified : Bool) (s : State) (hc : subParts [.live] cs = true) (h : Within cs r s) : Within cs r (countAuth status verified s) := by
  delta countAuth
  extract_lets a7
  have e_a7 : Within cs r a7 := by
    unfold a7
    with_reducible refine within_ite (fun _ => ?_) (fun _ => ?_)
    with_reducible apply State.bump_within
    with_reducible exact sub_of hc (by decide)
    with_reducible assumption
    with_reducible assumption
  clear_value a7
  split
  with_reducible apply State.bump_within
  with_reducible exact sub_of hc (by decide)
  with_reducible assumption
  with_reducible apply State.bump_within
  with_reducible exact sub_of hc (by decide)
  with_reducible assumption
  with_reducible apply State.bump_within
  with_reducible exact sub_of hc (by decide)
  with_reducible assumption
  with_reducible apply State.bump_within
  with_reducible exact sub_of hc (by decide)
  with_reducible assumption
  with_reducible apply State.bump_within
  with_reducible exact sub_of hc (by decide)
  with_reducible assumption
  with_reducible assumption

theorem sealFresh_within {cs : List Part} {r : State} (p : Nat) (s : State) (hc : subParts [.live, .coh, .results, .headgate] cs = true) (h : Within cs r s) : Within cs r (sealFresh p s) := by
  delta sealFresh
  extract_lets a6
  with_reducible refine within_foldl (fun _ _ _ => ?_) ?_
  extract_lets a10 a11 a12 a13 a14
  have e_a11 : Within cs r a11 := by
    unfold a11
    with_reducible apply freshHome_within
    with_reducible exact sub_of hc (by decide)
    with_reducible assumption
  clear_value a11
  have e_a14 : Within cs r a14 := by
    unfold a14
    with_reducible apply storeFresh_within
    with_reducible exact sub_of hc (by decide)
    with_reducible assumption
  clear_value a14
  with_reducible refine within_ite (fun _ => ?_) (fun _ => ?_)
  with_reducible assumption
  with_reducible refine within_ite (fun _ => ?_) (fun _ => ?_)
  with_reducible assumption
  with_reducible apply onCoh_within
  with_reducible exact sub_of hc (by decide)
  with_reducible assumption
  with_reducible exact fun _ h => h
  with_reducible assumption

theorem freshCommitOne_within {cs : List Part} {r : State} (old : SMap Nat) (p : Nat) (s : State) (hc : subParts [.live, .coh, .results, .headgate] cs = true) (h : Within cs r s) : Within cs r (freshCommitOne old p s) := by
  delta freshCommitOne
  extract_lets a7 a8 a9 a10 a11
  have e_a10 : Within cs r a10 := by
    unfold a10
    with_reducible refine within_foldl (fun _ _ _ => ?_) ?_
    with_reducible refine within_ite (fun _ => ?_) (fun _ => ?_)
    with_reducible assumption
    with_reducible apply setFresh_within
    with_reducible exact sub_of hc (by decide)
    with_reducible assumption
    with_reducible assumption
  clear_value a10
  with_reducible refine within_ite (fun _ => ?_) (fun _ => ?_)
  with_reducible assumption
  with_reducible refine within_foldl (fun _ _ _ => ?_) ?_
  with_reducible refine within_ite (fun _ => ?_) (fun _ => ?_)
  with_reducible assumption
  with_reducible apply setFresh_within
  with_reducible exact sub_of hc (by decide)
  with_reducible assumption
  with_reducible assumption

theorem freshCommit_within {cs : List Part} {r : State} (old : SMap Nat) (s : State) (hc : subParts [.live, .coh, .results, .headgate] cs = true) (h : Within cs r s) : Within cs r (freshCommit old s) := by
  delta freshCommit
  with_reducible refine within_foldl (fun _ _ _ => ?_) ?_
  with_reducible refine within_ite (fun _ => ?_) (fun _ => ?_)
  with_reducible assumption
  with_reducible apply freshCommitOne_within
  with_reducible exact sub_of hc (by decide)
  with_reducible assumption
  with_reducible assumption

theorem freshnessReset_within {cs : List Part} {r : State} (profile : Nat) (s : State) (hc : subParts [.live, .coh, .results, .headgate] cs = true) (h : Within cs r s) : PairWithin cs r (freshnessReset profile s) := by
  delta freshnessReset
  extract_lets a6
  with_reducible refine pairWithin_ite (fun _ => ?_) (fun _ => ?_)
  with_reducible refine within_mkP ?_
  with_reducible assumption
  with_reducible refine pairWithin_ite (fun _ => ?_) (fun _ => ?_)
  with_reducible refine within_mkP ?_
  with_reducible assumption
  with_reducible refine within_mkP ?_
  with_reducible refine within_foldl (fun _ _ _ => ?_) ?_
  with_reducible apply setFresh_within
  with_reducible exact sub_of hc (by decide)
  with_reducible assumption
  with_reducible assumption

theorem pushSnapshot_within {cs : List Part} {r : State} (seq : Nat) (a1 : List (List Sys2Proof.Bytes)) (a2 : State) (hc : subParts [.faults, .live, .flash, .endpoint, .fresh, .out] cs = true) (h : Within cs r a2) : PairWithin cs r (pushSnapshot seq a1 a2) := by
  induction a1 generalizing a2 with
| nil => ?_
| cons x l ih => ?_
  all_goals rw [pushSnapshot]
  with_reducible refine within_mkP ?_
  with_reducible assumption
  split
  with_reducible apply ih
  with_reducible apply pushSegment_within
  with_reducible exact sub_of hc (by decide)
  with_reducible refine within_of_pair (by assumption) ?_
  with_reducible apply takeSegment_within
  with_reducible exact sub_of hc (by decide)
  with_reducible assumption
  with_reducible refine within_mkP ?_
  with_reducible refine within_of_pair (by assumption) ?_
  with_reducible apply takeSegment_within
  with_reducible exact sub_of hc (by decide)
  with_reducible assumption

theorem writeSnapshot_within {cs : List Part} {r : State} (closing : Bool) (ok : Bool) (s : State) (hc : subParts [.faults, .live, .vault, .flash, .endpoint, .fresh, .out] cs = true) (h : Within cs r s) : Within cs r (writeSnapshot closing ok s) := by
  delta writeSnapshot
  with_reducible refine within_ite (fun _ => ?_) (fun _ => ?_)
  with_reducible apply State.bump_within
  with_reducible exact sub_of hc (by decide)
  with_reducible assumption
  extract_lets a8 a9
  split
  with_reducible apply State.put_within
  with_reducible exact sub_of hc (by decide)
  with_reducible apply onVault_within
  with_reducible exact sub_of hc (by decide)
  with_reducible refine within_of_pair (by assumption) ?_
  with_reducible apply pushSnapshot_within
  with_reducible exact sub_of hc (by decide)
  with_reducible assumption
  with_reducible apply State.bump_within
  with_reducible exact sub_of hc (by decide)
  with_reducible refine within_of_pair (by assumption) ?_
  with_reducible apply pushSnapshot_within
  with_reducible exact sub_of hc (by decide)
  with_reducible assumption

theorem execFreshnessSnapshot_within {cs : List Part} {r : State} (ok : Bool) (s : State) (hc : subParts [.faults, .live, .vault, .flash, .endpoint, .fresh, .out] cs = true) (h : Within cs r s) : ResultWithin cs r (execFreshnessSnapshot ok s) := by
  delta execFreshnessSnapshot
  split
  with_reducible refine within_next ?_
  with_reducible assumption
  with_reducible refine within_next ?_
  with_reducible apply writeSnapshot_within
  with_reducible exact sub_of hc (by decide)
  with_reducible assumption

theorem restoreRange_within {cs : List Part} {r : State} (snap : Option (Bool × SMap Nat)) (number : Nat) (s : State) (hc : subParts [.live, .coh, .results, .headgate] cs = true) (h : Within cs r s) : Within cs r (restoreRange snap number s) := by
  delta restoreRange
  extract_lets a7
  with_reducible refine within_foldl (fun _ _ _ => ?_) ?_
  extract_lets a11 a12 a13 a14
  with_reducible apply setFresh_within
  with_reducible exact sub_of hc (by decide)
  with_reducible assumption
  with_reducible assumption

theorem restoreFreshness_within {cs : List Part} {r : State} (s : State) (hc : subParts [.live, .vault, .tally, .endpoint, .coh, .results, .headgate, .out] cs = true) (h : Within cs r s) : Within cs r (restoreFreshness s) := by
  delta restoreFreshness
  extract_lets a5 a6
  have e_a6 : Within cs r a6 := by
    unfold a6
    with_reducible refine within_foldl (fun _ _ _ => ?_) ?_
    with_reducible refine within_ite (fun _ => ?_) (fun _ => ?_)
    with_reducible assumption
    with_reducible apply restoreRange_within
    with_reducible exact sub_of hc (by decide)
    with_reducible assumption
    with_reducible assumption
  clear_value a6
  with_reducible refine within_ite (fun _ => ?_) (fun _ => ?_)
  with_reducible assumption
  with_reducible apply journal_within
  with_reducible exact sub_of hc (by decide)
  with_reducible assumption

theorem onBuckets_within {cs : List Part} {r : State} (f : Buckets → Buckets) (s : State) (hc : subParts [.buckets] cs = true) (h : Within cs r s) : Within cs r (onBuckets f s) := by
  delta onBuckets
  with_reducible refine within_set_buckets (sub_of hc (by decide)) ?_
  with_reducible assumption

theorem wholeEntry_within {cs : List Part} {r : State} (p : Nat) (s : State) (hc : subParts [.integ] cs = true) (h : Within cs r s) : Within cs r (wholeEntry p s) := by
  delta wholeEntry
  with_reducible refine within_ite (fun _ => ?_) (fun _ => ?_)
  with_reducible refine within_foldl (fun _ _ _ => ?_) ?_
  with_reducible apply mergeDiscard_within
  with_reducible exact sub_of hc (by decide)
  with_reducible assumption
  with_reducible assumption
  with_reducible assumption

theorem putEntry_within {cs : List Part} {r : State} (p : Nat) (e : BucketEntry) (s : State) (hc : subParts [.integ, .buckets] cs = true) (h : Within cs r s) : Within cs r (putEntry p e s) := by
  delta putEntry
  with_reducible apply onBuckets_within
  with_reducible exact sub_of hc (by decide)
  with_reducible apply wholeEntry_within
  with_reducible exact sub_of hc (by decide)
  with_reducible assumption

theorem dropEntry_within {cs : List Part} {r : State} (p : Nat) (s : State) (hc : subParts [.integ, .buckets] cs = true) (h : Within cs r s) : Within cs r (dropEntry p s) := by
  delta dropEntry
  with_reducible apply onBuckets_within
  with_reducible exact sub_of hc (by decide)
  with_reducible apply wholeEntry_within
  with_reducible exact sub_of hc (by decide)
  with_reducible assumption

theorem insertFailed_within {cs : List Part} {r : State} (t : Nat) (key : Nat) (s : State) (hc : subParts [.live, .endpoint, .buckets, .out] cs = true) (h : Within cs r s) : Within cs r (insertFailed t key s) := by
  delta insertFailed
  extract_lets a7
  have e_a7 : Within cs r a7 := by
    unfold a7
    with_reducible apply State.put_within
    with_reducible exact sub_of hc (by decide)
    with_reducible apply State.bump_within
    with_reducible exact sub_of hc (by decide)
    with_reducible assumption
  clear_value a7
  with_reducible refine within_ite (fun _ => ?_) (fun _ => ?_)
  with_reducible assumption
  with_reducible apply vector_within
  with_reducible exact sub_of hc (by decide)
  with_reducible apply onBuckets_within
  with_reducible exact sub_of hc (by decide)
  with_reducible assumption

theorem notePeak_within {cs : List Part} {r : State} (s : State) (hc : subParts [.live] cs = true) (h : Within cs r s) : Within cs r (notePeak s) := by
  delta notePeak
  with_reducible apply State.peak_within
  with_reducible exact sub_of hc (by decide)
  with_reducible assumption

theorem placeEntry_within {cs : List Part} {r : State} (p : Nat) (e : BucketEntry) (s : State) (hc : subParts [.live, .integ, .coh, .buckets] cs = true) (h : Within cs r s) : Within cs r (placeEntry p e s) := by
  delta placeEntry
  extract_lets a7 a8 a9
  have e_a7 : Within cs r a7 := by
    unfold a7
    with_reducible apply putEntry_within
    with_reducible exact sub_of hc (by decide)
    with_reducible assumption
  clear_value a7
  with_reducible refine within_ite (fun _ => ?_) (fun _ => ?_)
  with_reducible apply writeTagWay_within
  with_reducible exact sub_of hc (by decide)
  with_reducible assumption
  with_reducible apply notePeak_within
  with_reducible exact sub_of hc (by decide)
  with_reducible assumption

theorem promote_within {cs : List Part} {r : State} (t : Nat) (p : Nat) (s : State) (hc : subParts [.live, .integ, .buckets] cs = true) (h : Within cs r s) : Within cs r (promote t p s) := by
  delta promote
  with_reducible refine within_ite (fun _ => ?_) (fun _ => ?_)
  with_reducible assumption
  split
  with_reducible apply State.bump_within
  with_reducible exact sub_of hc (by decide)
  with_reducible apply dropEntry_within
  with_reducible exact sub_of hc (by decide)
  with_reducible apply putEntry_within
  with_reducible exact sub_of hc (by decide)
  with_reducible assumption
  with_reducible assumption

theorem removeEntry_within {cs : List Part} {r : State} (t : Nat) (p : Nat) (s : State) (hc : subParts [.live, .integ, .coh, .buckets] cs = true) (h : Within cs r s) : Within cs r (removeEntry t p s) := by
  delta removeEntry
  with_reducible refine within_ite (fun _ => ?_) (fun _ => ?_)
  with_reducible apply poisonHit_within
  with_reducible exact sub_of hc (by decide)
  with_reducible assumption
  with_reducible refine within_ite (fun _ => ?_) (fun _ => ?_)
  extract_lets a9 a10
  with_reducible apply dropEntry_within
  with_reducible exact sub_of hc (by decide)
  with_reducible apply writeTagWay_within
  with_reducible exact sub_of hc (by decide)
  with_reducible assumption
  with_reducible apply promote_within
  with_reducible exact sub_of hc (by decide)
  with_reducible apply dropEntry_within
  with_reducible exact sub_of hc (by decide)
  with_reducible assumption

theorem invalidateBad_within {cs : List Part} {r : State} (ps : List Nat) (s : State) (hc : subParts [.live, .integ, .coh, .buckets] cs = true) (h : Within cs r s) : Within cs r (invalidateBad ps s) := by
  delta invalidateBad
  with_reducible refine within_foldl (fun _ _ _ => ?_) ?_
  split
  with_reducible refine within_ite (fun _ => ?_) (fun _ => ?_)
  with_reducible assumption
  with_reducible apply removeEntry_within
  with_reducible exact sub_of hc (by decide)
  with_reducible assumption
  with_reducible apply onBuckets_within
  with_reducible exact sub_of hc (by decide)
  with_reducible assumption
  with_reducible assumption

theorem repairPlace_within {cs : List Part} {r : State} (p : Nat) (s : State) (hc : subParts [.live, .integ, .coh, .buckets] cs = true) (h : Within cs r s) : Within cs r (repairPlace p s) := by
  delta repairPlace
  split
  with_reducible assumption
  with_reducible apply onBuckets_within
  with_reducible exact sub_of hc (by decide)
  with_reducible apply invalidateBad_within
  with_reducible exact sub_of hc (by decide)
  with_reducible assumption

theorem failUnreadable_within {cs : List Part} {r : State} (s : State) (hc : subParts [.fresh] cs = true) (h : Within cs r s) : OpWithin cs r (failUnreadable s) := by
  delta failUnreadable
  split
  with_reducible refine within_ofail ?_
  with_reducible refine within_of_pair (by assumption) ?_
  with_reducible apply drawFresh_within
  with_reducible exact sub_of hc (by decide)
  with_reducible assumption

theorem extGate_within {cs : List Part} {r : State} (s : State) (t : Nat) (hc : subParts [] cs = true) (h : Within cs r s) : OptOpWithin cs r (extGate s t) := by
  delta extGate
  split
  split
  with_reducible refine within_mosome ?_
  with_reducible refine within_ofail ?_
  with_reducible assumption
  split
  with_reducible refine within_mosome ?_
  with_reducible exact within_owait
  with_reducible exact within_monone
  with_reducible exact within_monone

theorem insertBlock_within {cs : List Part} {r : State} (b : Sys2Proof.Bytes) (s : State) (hc : subParts [.live, .endpoint, .integ, .coh, .buckets, .out] cs = true) (h : Within cs r s) : OpWithin cs r (insertBlock b s) := by
  delta insertBlock
  extract_lets a6 a7
  split
  with_reducible refine within_ofail ?_
  with_reducible assumption
  split
  with_reducible refine within_ofail ?_
  with_reducible assumption
  with_reducible refine within_ofail ?_
  with_reducible apply insertFailed_within
  with_reducible exact sub_of hc (by decide)
  with_reducible assumption
  with_reducible refine within_odone ?_
  with_reducible apply placeEntry_within
  with_reducible exact sub_of hc (by decide)
  with_reducible assumption

theorem updateBlock_within {cs : List Part} {r : State} (b : Sys2Proof.Bytes) (s : State) (hc : subParts [.integ, .buckets] cs = true) (h : Within cs r s) : OpWithin cs r (updateBlock b s) := by
  delta updateBlock
  extract_lets a6
  split
  with_reducible refine within_ofail ?_
  with_reducible assumption
  split
  with_reducible refine within_ofail ?_
  with_reducible assumption
  split
  with_reducible refine within_ofail ?_
  with_reducible assumption
  with_reducible refine within_odone ?_
  with_reducible apply putEntry_within
  with_reducible exact sub_of hc (by decide)
  with_reducible assumption

theorem deleteBlock_within {cs : List Part} {r : State} (b : Sys2Proof.Bytes) (s : State) (hc : subParts [.live, .integ, .coh, .buckets] cs = true) (h : Within cs r s) : OpWithin cs r (deleteBlock b s) := by
  delta deleteBlock
  extract_lets a6
  split
  with_reducible refine within_ofail ?_
  with_reducible assumption
  split
  with_reducible refine within_ofail ?_
  with_reducible assumption
  split
  with_reducible refine within_ofail ?_
  with_reducible assumption
  with_reducible refine within_odone ?_
  with_reducible apply removeEntry_within
  with_reducible exact sub_of hc (by decide)
  with_reducible assumption

theorem flushAll_within {cs : List Part} {r : State} (t : Nat) (select : Nat) (match_ : Nat) (a3 : List Nat) (a4 : Nat × State) (hc : subParts [.live, .integ, .coh, .buckets] cs = true) (h : PairWithin cs r a4) : PairWithin cs r (flushAll t select match_ a3 a4) := by
  induction a3 generalizing a4 with
| nil => ?_
| cons x l ih => ?_
  all_goals obtain ⟨n, s⟩ := a4
  all_goals rw [flushAll]
  with_reducible refine within_mkP ?_
  exact h
  split
  with_reducible refine pairWithin_ite (fun _ => ?_) (fun _ => ?_)
  with_reducible apply ih
  with_reducible refine within_mkP ?_
  with_reducible apply removeEntry_within
  with_reducible exact sub_of hc (by decide)
  exact h
  with_reducible apply ih
  with_reducible refine within_mkP ?_
  exact h
  with_reducible apply ih
  with_reducible refine within_mkP ?_
  exact h

theorem opFlowFlush_within {cs : List Part} {r : State} (d : Sys2Proof.Bytes) (s : State) (hc : subParts [.live, .integ, .coh, .buckets] cs = true) (h : Within cs r s) : OpWithin cs r (opFlowFlush d s) := by
  delta opFlowFlush
  extract_lets a6 a7 a8 a9
  have e_a9 : PairWithin cs r a9 := by
    unfold a9
    with_reducible apply flushAll_within
    with_reducible exact sub_of hc (by decide)
    with_reducible refine within_mkP ?_
    with_reducible assumption
  clear_value a9
  split
  with_reducible refine within_ofail ?_
  with_reducible assumption
  split
  with_reducible refine within_ofail ?_
  with_reducible assumption
  split
  with_reducible refine within_of_mo (by assumption) ?_
  with_reducible apply extGate_within
  with_reducible exact sub_of hc (by decide)
  with_reducible assumption
  with_reducible refine within_odone ?_
  with_reducible refine within_snd ?_
  with_reducible assumption

theorem bucketCommit_within {cs : List Part} {r : State} (old : SMap Nat) (s : State) (hc : subParts [.live] cs = true) (h : Within cs r s) : Within cs r (bucketCommit old s) := by
  delta bucketCommit
  extract_lets a6 a7
  with_reducible refine within_foldl (fun _ _ _ => ?_) ?_
  with_reducible apply State.put_within
  with_reducible exact sub_of hc (by decide)
  with_reducible assumption
  with_reducible assumption

theorem placeAll_within {cs : List Part} {r : State} (t : Nat) (a1 : List BucketEntry) (a2 : State) (hc : subParts [.live, .integ, .coh, .buckets] cs = true) (h : Within cs r a2) : SumWithin cs r (placeAll t a1 a2) := by
  induction a1 generalizing a2 with
| nil => ?_
| cons x l ih => ?_
  all_goals rw [placeAll]
  with_reducible refine within_inr ?_
  with_reducible assumption
  split
  split
  with_reducible exact within_inl
  with_reducible apply ih
  with_reducible apply placeEntry_within
  with_reducible exact sub_of hc (by decide)
  with_reducible assumption
  with_reducible exact within_inl

theorem loadBuckets_within {cs : List Part} {r : State} (ext : Bool) (t : Nat) (img : Sys2Proof.Bytes) (s : State) (hc : subParts [.live, .endpoint, .integ, .coh, .buckets, .fresh, .out] cs = true) (h : Within cs r s) : OpWithin cs r (loadBuckets ext t img s) := by
  delta loadBuckets
  extract_lets a8 a9 a10 a11 a12 a13 a14 a15 a16 a17
  have e_a17 : Within cs r a17 := by
    unfold a17
    with_reducible apply onBuckets_within
    with_reducible exact sub_of hc (by decide)
    with_reducible refine within_foldl (fun _ _ _ => ?_) ?_
    with_reducible refine within_ite (fun _ => ?_) (fun _ => ?_)
    with_reducible apply removeEntry_within
    with_reducible exact sub_of hc (by decide)
    with_reducible assumption
    with_reducible assumption
    with_reducible assumption
  clear_value a17
  split
  with_reducible refine within_ofail ?_
  with_reducible assumption
  split
  with_reducible refine within_of_mo (by assumption) ?_
  with_reducible apply extGate_within
  with_reducible exact sub_of hc (by decide)
  with_reducible assumption
  split
  with_reducible refine within_ofail ?_
  with_reducible assumption
  split
  with_reducible refine within_ofail ?_
  with_reducible assumption
  split
  extract_lets a35
  have e_a35 : Within cs r a35 := by
    unfold a35
    with_reducible apply State.peak_within
    with_reducible exact sub_of hc (by decide)
    with_reducible refine within_of_inr (by assumption) ?_
    with_reducible apply placeAll_within
    with_reducible exact sub_of hc (by decide)
    with_reducible apply State.put_within
    with_reducible exact sub_of hc (by decide)
    with_reducible assumption
  clear_value a35
  with_reducible refine within_odone ?_
  with_reducible apply onBuckets_within
  with_reducible exact sub_of hc (by decide)
  with_reducible assumption
  with_reducible refine within_ofail ?_
  with_reducible apply insertFailed_within
  with_reducible exact sub_of hc (by decide)
  with_reducible assumption
  with_reducible apply failUnreadable_within
  with_reducible exact sub_of hc (by decide)
  with_reducible apply poisonHit_within
  with_reducible exact sub_of hc (by decide)
  with_reducible assumption

theorem sealBuckets_within {cs : List Part} {r : State} (ext : Bool) (t : Nat) (img : Sys2Proof.Bytes) (s : State) (hc : subParts [.live, .integ, .coh, .buckets] cs = true) (h : Within cs r s) : SumWithin cs r (sealBuckets ext t img s) := by
  delta sealBuckets
  extract_lets a8 a9 a10 a11 a12
  have e_a12 : Within cs r a12 := by
    unfold a12
    with_reducible refine within_foldl (fun _ _ _ => ?_) ?_
    with_reducible apply removeEntry_within
    with_reducible exact sub_of hc (by decide)
    with_reducible assumption
    with_reducible assumption
  clear_value a12
  split
  with_reducible exact within_inl
  split
  with_reducible refine within_inr ?_
  with_reducible refine within_of_inr (by assumption) ?_
  with_reducible apply placeAll_within
  with_reducible exact sub_of hc (by decide)
  with_reducible assumption
  with_reducible exact within_inl

theorem takeExtToken_within {cs : List Part} {r : State} (s : State) (hc : subParts [.live, .buckets] cs = true) (h : Within cs r s) : Within cs r (takeExtToken s) := by
  delta takeExtToken
  extract_lets a5 a6 a7
  have e_a7 : Within cs r a7 := by
    unfold a7
    with_reducible apply onBuckets_within
    with_reducible exact sub_of hc (by decide)
    with_reducible assumption
  clear_value a7
  with_reducible refine within_ite (fun _ => ?_) (fun _ => ?_)
  with_reducible assumption
  with_reducible apply State.bump_within
  with_reducible exact sub_of hc (by decide)
  with_reducible assumption

theorem postSlice_within {cs : List Part} {r : State} (t : Nat) (key : Nat) (op : SliceOp) (s : State) (hc : subParts [.live, .buckets] cs = true) (h : Within cs r s) : Within cs r (postSlice t key op s) := by
  delta postSlice
  extract_lets a8
  with_reducible refine within_ite (fun _ => ?_) (fun _ => ?_)
  with_reducible apply State.bump_within
  with_reducible exact sub_of hc (by decide)
  with_reducible assumption
  with_reducible apply onBuckets_within
  with_reducible exact sub_of hc (by decide)
  with_reducible assumption

theorem postRefresh_within {cs : List Part} {r : State} (r_ : SourceRead) (s : State) (hc : subParts [.live, .buckets] cs = true) (h : Within cs r s) : Within cs r (postRefresh r_ s) := by
  delta postRefresh
  extract_lets a6
  with_reducible refine within_ite (fun _ => ?_) (fun _ => ?_)
  with_reducible apply postSlice_within
  with_reducible exact sub_of hc (by decide)
  with_reducible assumption
  with_reducible assumption

theorem postLookup_within {cs : List Part} {r : State} (link : Nat) (channel : Nat) (r_ : SourceRead) (s : State) (hc : subParts [.live, .endpoint, .buckets, .out] cs = true) (h : Within cs r s) : PairWithin cs r (postLookup link channel r_ s) := by
  delta postLookup
  extract_lets a8 a9
  with_reducible refine pairWithin_ite (fun _ => ?_) (fun _ => ?_)
  with_reducible refine pairWithin_ite (fun _ => ?_) (fun _ => ?_)
  with_reducible refine within_mkP ?_
  with_reducible apply State.bump_within
  with_reducible exact sub_of hc (by decide)
  with_reducible assumption
  split
  with_reducible refine pairWithin_ite (fun _ => ?_) (fun _ => ?_)
  with_reducible refine within_mkP ?_
  with_reducible apply insertFailed_within
  with_reducible exact sub_of hc (by decide)
  with_reducible assumption
  with_reducible refine within_mkP ?_
  with_reducible apply postSlice_within
  with_reducible exact sub_of hc (by decide)
  with_reducible assumption
  with_reducible refine pairWithin_ite (fun _ => ?_) (fun _ => ?_)
  with_reducible refine within_mkP ?_
  with_reducible apply postRefresh_within
  with_reducible exact sub_of hc (by decide)
  with_reducible assumption
  with_reducible refine pairWithin_ite (fun _ => ?_) (fun _ => ?_)
  with_reducible refine within_mkP ?_
  with_reducible apply State.bump_within
  with_reducible exact sub_of hc (by decide)
  with_reducible apply postRefresh_within
  with_reducible exact sub_of hc (by decide)
  with_reducible assumption
  with_reducible refine pairWithin_ite (fun _ => ?_) (fun _ => ?_)
  with_reducible refine within_mkP ?_
  with_reducible apply State.bump_within
  with_reducible exact sub_of hc (by decide)
  with_reducible apply postRefresh_within
  with_reducible exact sub_of hc (by decide)
  with_reducible assumption
  with_reducible refine within_mkP ?_
  with_reducible apply postSlice_within
  with_reducible exact sub_of hc (by decide)
  with_reducible assumption
  split
  with_reducible refine within_mkP ?_
  with_reducible apply postRefresh_within
  with_reducible exact sub_of hc (by decide)
  with_reducible assumption
  with_reducible refine within_mkP ?_
  with_reducible assumption

theorem refreshEntry_within {cs : List Part} {r : State} (t : Nat) (p : Nat) (e : BucketEntry) (s : State) (hc : subParts [.live, .integ, .buckets] cs = true) (h : Within cs r s) : Within cs r (refreshEntry t p e s) := by
  delta refreshEntry
  with_reducible refine within_ite (fun _ => ?_) (fun _ => ?_)
  with_reducible assumption
  extract_lets a9
  have e_a9 : Within cs r a9 := by
    unfold a9
    with_reducible refine within_ite (fun _ => ?_) (fun _ => ?_)
    with_reducible apply mergeWrite_within
    with_reducible exact sub_of hc (by decide)
    with_reducible assumption
    with_reducible assumption
  clear_value a9
  with_reducible apply State.bump_within
  with_reducible exact sub_of hc (by decide)
  with_reducible apply onBuckets_within
  with_reducible exact sub_of hc (by decide)
  with_reducible assumption

theorem moveEntry_within {cs : List Part} {r : State} (t : Nat) (p : Nat) (r_ : Nat) (channel : Nat) (e : BucketEntry) (s : State)
    (hc : subParts [.live, .vault, .tally, .endpoint, .integ, .buckets, .out] cs = true) (h : Within cs r s) : Within cs r (moveEntry t p r_ channel e s) := by
  delta moveEntry
  extract_lets a10 a11 a12 a13 a14 a15 a16
  have e_a15 : Within cs r a15 := by
    unfold a15
    with_reducible apply putEntry_within
    with_reducible exact sub_of hc (by decide)
    with_reducible assumption
  clear_value a15
  have e_a16 : Within cs r a16 := by
    unfold a16
    with_reducible apply State.bump_within
    with_reducible exact sub_of hc (by decide)
    with_reducible apply State.bump_within
    with_reducible exact sub_of hc (by decide)
    with_reducible assumption
  clear_value a16
  with_reducible refine within_ite (fun _ => ?_) (fun _ => ?_)
  with_reducible apply vector_within
  with_reducible exact sub_of hc (by decide)
  with_reducible apply journal_within
  with_reducible exact sub_of hc (by decide)
  with_reducible apply State.bump_within
  with_reducible exact sub_of hc (by decide)
  with_reducible assumption
  with_reducible assumption

theorem applyLearn_within {cs : List Part} {r : State} (t : Nat) (key : Nat) (r_ : Nat) (channel : Nat) (s : State) (hc : subParts [.live, .vault, .tally, .endpoint, .integ, .coh, .buckets, .out] cs = true) (h : Within cs r s) : Within cs r (applyLearn t key r_ channel s) := by
  delta applyLearn
  split
  extract_lets a13 a14
  with_reducible refine within_ite (fun _ => ?_) (fun _ => ?_)
  with_reducible apply insertFailed_within
  with_reducible exact sub_of hc (by decide)
  with_reducible assumption
  split
  with_reducible apply insertFailed_within
  with_reducible exact sub_of hc (by decide)
  with_reducible assumption
  with_reducible apply State.bump_within
  with_reducible exact sub_of hc (by decide)
  with_reducible apply placeEntry_within
  with_reducible exact sub_of hc (by decide)
  with_reducible assumption
  with_reducible refine within_ite (fun _ => ?_) (fun _ => ?_)
  with_reducible apply State.bump_within
  with_reducible exact sub_of hc (by decide)
  with_reducible assumption
  with_reducible refine within_ite (fun _ => ?_) (fun _ => ?_)
  with_reducible apply refreshEntry_within
  with_reducible exact sub_of hc (by decide)
  with_reducible assumption
  with_reducible refine within_ite (fun _ => ?_) (fun _ => ?_)
  with_reducible apply State.bump_within
  with_reducible exact sub_of hc (by decide)
  with_reducible assumption
  with_reducible apply moveEntry_within
  with_reducible exact sub_of hc (by decide)
  with_reducible assumption

theorem applyRefresh_within {cs : List Part} {r : State} (t : Nat) (key : Nat) (s : State) (hc : subParts [.live, .integ, .buckets] cs = true) (h : Within cs r s) : Within cs r (applyRefresh t key s) := by
  delta applyRefresh
  split
  with_reducible apply State.bump_within
  with_reducible exact sub_of hc (by decide)
  with_reducible assumption
  with_reducible apply refreshEntry_within
  with_reducible exact sub_of hc (by decide)
  with_reducible assumption

theorem applyAgeDelete_within {cs : List Part} {r : State} (t : Nat) (key : Nat) (ts : Nat) (s : State) (hc : subParts [.live, .integ, .coh, .buckets] cs = true) (h : Within cs r s) : Within cs r (applyAgeDelete t key ts s) := by
  delta applyAgeDelete
  split
  with_reducible apply State.bump_within
  with_reducible exact sub_of hc (by decide)
  with_reducible assumption
  with_reducible refine within_ite (fun _ => ?_) (fun _ => ?_)
  with_reducible apply State.bump_within
  with_reducible exact sub_of hc (by decide)
  with_reducible assumption
  with_reducible apply State.bump_within
  with_reducible exact sub_of hc (by decide)
  with_reducible apply removeEntry_within
  with_reducible exact sub_of hc (by decide)
  with_reducible assumption

theorem applyOp_within {cs : List Part} {r : State} (op : SliceOp) (s : State) (hc : subParts [.live, .vault, .tally, .endpoint, .integ, .coh, .buckets, .out] cs = true) (h : Within cs r s) : Within cs r (applyOp op s) := by
  delta applyOp
  with_reducible refine within_ite (fun _ => ?_) (fun _ => ?_)
  with_reducible apply poisonHit_within
  with_reducible exact sub_of hc (by decide)
  with_reducible assumption
  split
  with_reducible apply applyLearn_within
  with_reducible exact sub_of hc (by decide)
  with_reducible assumption
  with_reducible apply applyRefresh_within
  with_reducible exact sub_of hc (by decide)
  with_reducible assumption
  with_reducible apply applyAgeDelete_within
  with_reducible exact sub_of hc (by decide)
  with_reducible assumption

theorem drainOps_within {cs : List Part} {r : State} (mine : Nat → Bool) (s : State) (hc : subParts [.live, .vault, .tally, .endpoint, .integ, .coh, .buckets, .out] cs = true) (h : Within cs r s) : Within cs r (drainOps mine s) := by
  delta drainOps
  extract_lets a6
  with_reducible refine within_foldl (fun _ _ _ => ?_) ?_
  with_reducible apply applyOp_within
  with_reducible exact sub_of hc (by decide)
  with_reducible assumption
  with_reducible apply onBuckets_within
  with_reducible exact sub_of hc (by decide)
  with_reducible assumption

theorem loseExtOps_within {cs : List Part} {r : State} (s : State) (hc : subParts [.buckets] cs = true) (h : Within cs r s) : Within cs r (loseExtOps s) := by
  delta loseExtOps
  with_reducible apply onBuckets_within
  with_reducible exact sub_of hc (by decide)
  with_reducible assumption

theorem runHead_within {cs : List Part} {r : State} (slice : Nat) (isKind : SliceOp → Bool) (s : State) (hc : subParts [.live, .vault, .tally, .endpoint, .integ, .coh, .buckets, .out] cs = true) (h : Within cs r s) : Within cs r (runHead slice isKind s) := by
  delta runHead
  split
  with_reducible assumption
  with_reducible refine within_ite (fun _ => ?_) (fun _ => ?_)
  with_reducible assumption
  with_reducible apply applyOp_within
  with_reducible exact sub_of hc (by decide)
  with_reducible apply onBuckets_within
  with_reducible exact sub_of hc (by decide)
  with_reducible assumption

theorem execLearnApply_within {cs : List Part} {r : State} (slice : Nat) (s : State) (hc : subParts [.live, .vault, .tally, .endpoint, .integ, .coh, .buckets, .out] cs = true) (h : Within cs r s) : ResultWithin cs r (execLearnApply slice s) := by
  delta execLearnApply
  with_reducible apply within_onUnit
  with_reducible apply runHead_within
  with_reducible exact sub_of hc (by decide)
  with_reducible assumption

theorem execRefresh_within {cs : List Part} {r : State} (slice : Nat) (s : State) (hc : subParts [.live, .vault, .tally, .endpoint, .integ, .coh, .buckets, .out] cs = true) (h : Within cs r s) : ResultWithin cs r (execRefresh slice s) := by
  delta execRefresh
  with_reducible apply within_onUnit
  with_reducible apply runHead_within
  with_reducible exact sub_of hc (by decide)
  with_reducible assumption

theorem execAgeDelete_within {cs : List Part} {r : State} (slice : Nat) (s : State) (hc : subParts [.live, .vault, .tally, .endpoint, .integ, .coh, .buckets, .out] cs = true) (h : Within cs r s) : ResultWithin cs r (execAgeDelete slice s) := by
  delta execAgeDelete
  with_reducible apply within_onUnit
  with_reducible apply runHead_within
  with_reducible exact sub_of hc (by decide)
  with_reducible assumption

theorem sweepEntry_within {cs : List Part} {r : State} (t : Nat) (p : Nat) (e : BucketEntry) (s : State) (hc : subParts [.integ, .buckets] cs = true) (h : Within cs r s) : Within cs r (sweepEntry t p e s) := by
  delta sweepEntry
  extract_lets a8 a9 a10
  have e_a10 : Within cs r a10 := by
    unfold a10
    with_reducible refine within_ite (fun _ => ?_) (fun _ => ?_)
    with_reducible apply putEntry_within
    with_reducible exact sub_of hc (by decide)
    with_reducible assumption
    with_reducible assumption
  clear_value a10
  with_reducible refine within_ite (fun _ => ?_) (fun _ => ?_)
  with_reducible apply onBuckets_within
  with_reducible exact sub_of hc (by decide)
  with_reducible assumption
  with_reducible assumption

theorem execAgingSweepRead_within {cs : List Part} {r : State} (t : Nat) (s : State) (hc : subParts [.live, .integ, .buckets] cs = true) (h : Within cs r s) : ResultWithin cs r (execAgingSweepRead t s) := by
  delta execAgingSweepRead
  with_reducible apply within_onUnit
  with_reducible refine within_ite (fun _ => ?_) (fun _ => ?_)
  with_reducible assumption
  extract_lets a7 a8 a9 a10 a11 a12 a13 a14 a15 a16 a17 a18 a19 a20 a21
  have e_a16 : Within cs r a16 := by
    unfold a16
    with_reducible refine within_foldl (fun _ _ _ => ?_) ?_
    with_reducible apply sweepEntry_within
    with_reducible exact sub_of hc (by decide)
    with_reducible assumption
    with_reducible assumption
  clear_value a16
  have e_a21 : Within cs r a21 := by
    unfold a21
    with_reducible refine within_ite (fun _ => ?_) (fun _ => ?_)
    with_reducible apply State.bump_within
    with_reducible exact sub_of hc (by decide)
    with_reducible assumption
    with_reducible assumption
  clear_value a21
  with_reducible refine within_ite (fun _ => ?_) (fun _ => ?_)
  with_reducible assumption
  with_reducible refine within_ite (fun _ => ?_) (fun _ => ?_)
  with_reducible apply State.put_within
  with_reducible exact sub_of hc (by decide)
  with_reducible apply onBuckets_within
  with_reducible exact sub_of hc (by decide)
  with_reducible assumption
  with_reducible apply onBuckets_within
  with_reducible exact sub_of hc (by decide)
  with_reducible assumption

theorem moveLockClear_within {cs : List Part} {r : State} (v : Sys2Proof.Bytes) (s : State) (hc : subParts [.live, .vault, .tally, .endpoint, .integ, .coh, .buckets, .out] cs = true) (h : Within cs r s) : PairWithin cs r (moveLockClear v s) := by
  delta moveLockClear
  extract_lets a6 a7 a8 a9 a10 a11
  have e_a9 : Within cs r a9 := by
    unfold a9
    with_reducible apply drainOps_within
    with_reducible exact sub_of hc (by decide)
    with_reducible assumption
  clear_value a9
  have e_a11 : Within cs r a11 := by
    unfold a11
    with_reducible apply drainOps_within
    with_reducible exact sub_of hc (by decide)
    with_reducible assumption
  clear_value a11
  with_reducible refine pairWithin_ite (fun _ => ?_) (fun _ => ?_)
  with_reducible refine within_mkP ?_
  with_reducible assumption
  with_reducible refine pairWithin_ite (fun _ => ?_) (fun _ => ?_)
  with_reducible refine within_mkP ?_
  with_reducible apply onBuckets_within
  with_reducible exact sub_of hc (by decide)
  with_reducible assumption
  split
  with_reducible refine within_mkP ?_
  with_reducible assumption
  with_reducible refine within_mkP ?_
  with_reducible apply putEntry_within
  with_reducible exact sub_of hc (by decide)
  with_reducible assumption

theorem opBucket_within {cs : List Part} {r : State} (del : Bool) (run : Sys2Proof.Bytes → State → OpRes) (b : Sys2Proof.Bytes) (s : State)
    (hc : subParts [.live, .vault, .tally, .endpoint, .integ, .coh, .buckets, .fresh, .out] cs = true) (h : Within cs r s) (hf : ∀ b t, Within cs r t → OpWithin cs r (run b t)) : OpWithin cs r (opBucket del run b s) := by
  delta opBucket
  split
  with_reducible refine within_ofail ?_
  with_reducible assumption
  split
  with_reducible refine within_of_mo (by assumption) ?_
  with_reducible apply extGate_within
  with_reducible exact sub_of hc (by decide)
  with_reducible assumption
  extract_lets a17
  have e_a17 : Within cs r a17 := by
    unfold a17
    with_reducible apply drainOps_within
    with_reducible exact sub_of hc (by decide)
    with_reducible assumption
  clear_value a17
  split
  with_reducible apply failUnreadable_within
  with_reducible exact sub_of hc (by decide)
  with_reducible apply poisonHit_within
  with_reducible exact sub_of hc (by decide)
  with_reducible assumption
  with_reducible refine hf _ _ ?_
  with_reducible assumption

theorem opFlush_within {cs : List Part} {r : State} (d : Sys2Proof.Bytes) (s : State) (hc : subParts [.live, .vault, .tally, .endpoint, .integ, .coh, .buckets, .out] cs = true) (h : Within cs r s) : OpWithin cs r (opFlush d s) := by
  delta opFlush
  with_reducible apply opFlowFlush_within
  with_reducible exact sub_of hc (by decide)
  with_reducible apply drainOps_within
  with_reducible exact sub_of hc (by decide)
  with_reducible assumption

theorem opLoadBuckets_within {cs : List Part} {r : State} (ext : Bool) (t : Nat) (img : Sys2Proof.Bytes) (s : State) (hc : subParts [.live, .vault, .tally, .endpoint, .integ, .coh, .buckets, .fresh, .out] cs = true) (h : Within cs r s) : OpWithin cs r (opLoadBuckets ext t img s) := by
  delta opLoadBuckets
  split
  with_reducible exact within_owait
  with_reducible refine within_ofail ?_
  with_reducible refine within_of_fail (by assumption) ?_
  with_reducible apply loadBuckets_within
  with_reducible exact sub_of hc (by decide)
  with_reducible assumption
  with_reducible apply loadBuckets_within
  with_reducible exact sub_of hc (by decide)
  with_reducible apply drainOps_within
  with_reducible exact sub_of hc (by decide)
  with_reducible assumption

end Sys2Proof.Machine
end

