-- ==== Sys2Proof/Laws/WithinSearch.lean ====
section
/-! SUPPORT. What each operation of the sluice, searches and the Headgate may change, once for each (`<operation>_within`); callers cite these and do not unfold. -/

set_option linter.unusedVariables false
set_option linter.unusedSimpArgs false
namespace Sys2Proof.Machine

theorem setPn_within {cs : List Part} {r : State} (p : Nat) (r_ : Pn) (s : State) (hc : subParts [.sluice] cs = true) (h : Within cs r s) : Within cs r (setPn p r_ s) := by
  delta setPn
  with_reducible refine within_set_sluice (sub_of hc (by decide)) ?_
  with_reducible assumption

theorem setHolds_within {cs : List Part} {r : State} (src : Nat) (m : Nat) (s : State) (hc : subParts [.sluice] cs = true) (h : Within cs r s) : Within cs r (setHolds src m s) := by
  delta setHolds
  with_reducible refine within_set_sluice (sub_of hc (by decide)) ?_
  with_reducible assumption

theorem setMask_within {cs : List Part} {r : State} (src : Nat) (m : Nat) (s : State) (hc : subParts [.sluice] cs = true) (h : Within cs r s) : Within cs r (setMask src m s) := by
  delta setMask
  with_reducible refine within_set_sluice (sub_of hc (by decide)) ?_
  with_reducible assumption

theorem setGate_within {cs : List Part} {r : State} (line : Nat) (level : Nat) (s : State) (hc : subParts [.sluice] cs = true) (h : Within cs r s) : Within cs r (setGate line level s) := by
  delta setGate
  with_reducible refine within_set_sluice (sub_of hc (by decide)) ?_
  with_reducible assumption

theorem assertPwrHold_within {cs : List Part} {r : State} (s : State) (hc : subParts [.wakes, .sluice] cs = true) (h : Within cs r s) : Within cs r (assertPwrHold s) := by
  delta assertPwrHold
  with_reducible refine within_ite (fun _ => ?_) (fun _ => ?_)
  with_reducible assumption
  with_reducible refine within_ite (fun _ => ?_) (fun _ => ?_)
  with_reducible refine within_set_sluice (sub_of hc (by decide)) ?_
  with_reducible assumption
  with_reducible refine within_update (ps := [.wakes, .sluice]) rfl (sub_of hc (by decide)) (fun p hp => by cases p <;> first | exact absurd (by decide) hp | with_unfolding_all rfl) rfl (Nat.le_refl _) (Nat.le_refl _) (List.suffix_refl _) id id id id id id id id id id ?_
  with_reducible assumption

theorem cancelSleepEntry_within {cs : List Part} {r : State} (s : State) (hc : subParts [.wakes, .sluice] cs = true) (h : Within cs r s) : Within cs r (cancelSleepEntry s) := by
  delta cancelSleepEntry
  with_reducible refine within_update (ps := [.wakes, .sluice]) rfl (sub_of hc (by decide)) (fun p hp => by cases p <;> first | exact absurd (by decide) hp | with_unfolding_all rfl) rfl (Nat.le_refl _) (Nat.le_refl _) (List.suffix_refl _) id id id id id id id id id id ?_
  with_reducible assumption

theorem wakeLine_within {cs : List Part} {r : State} (p : Nat) (s : State) (hc : subParts [.sluice] cs = true) (h : Within cs r s) : Within cs r (wakeLine p s) := by
  delta wakeLine
  split
  with_reducible apply setGate_within
  with_reducible exact sub_of hc (by decide)
  with_reducible assumption
  with_reducible assumption

theorem finishCommit_within {cs : List Part} {r : State} (p : Nat) (s : State) (hc : subParts [.sluice] cs = true) (h : Within cs r s) : Within cs r (finishCommit p s) := by
  delta finishCommit
  extract_lets a6 a7 a8
  have e_a8 : Within cs r a8 := by
    unfold a8
    with_reducible refine within_set_sluice (sub_of hc (by decide)) ?_
    with_reducible assumption
  clear_value a8
  with_reducible apply setPn_within
  with_reducible exact sub_of hc (by decide)
  with_reducible assumption

theorem sleepLine_within {cs : List Part} {r : State} (p : Nat) (s : State) (hc : subParts [.sluice] cs = true) (h : Within cs r s) : Within cs r (sleepLine p s) := by
  delta sleepLine
  split
  extract_lets a12
  have e_a12 : Within cs r a12 := by
    unfold a12
    with_reducible apply setGate_within
    with_reducible exact sub_of hc (by decide)
    with_reducible assumption
  clear_value a12
  with_reducible refine within_ite (fun _ => ?_) (fun _ => ?_)
  with_reducible apply finishCommit_within
  with_reducible exact sub_of hc (by decide)
  with_reducible assumption
  with_reducible assumption
  with_reducible apply finishCommit_within
  with_reducible exact sub_of hc (by decide)
  with_reducible assumption

theorem enterWaking_within {cs : List Part} {r : State} (p : Nat) (src : Nat) (s : State) (hc : subParts [.wakes, .live, .sluice] cs = true) (h : Within cs r s) : Within cs r (enterWaking p src s) := by
  delta enterWaking
  extract_lets a7 a8 a9
  have e_a8 : Within cs r a8 := by
    unfold a8
    with_reducible apply wakeLine_within
    with_reducible exact sub_of hc (by decide)
    with_reducible apply setPn_within
    with_reducible exact sub_of hc (by decide)
    with_reducible assumption
  clear_value a8
  have e_a9 : Within cs r a9 := by
    unfold a9
    with_reducible apply State.setObj_within
    with_reducible exact sub_of hc (by decide)
    with_reducible apply State.bump_within
    with_reducible exact sub_of hc (by decide)
    with_reducible assumption
  clear_value a9
  with_reducible apply assertPwrHold_within
  with_reducible exact sub_of hc (by decide)
  with_reducible apply cancelSleepEntry_within
  with_reducible exact sub_of hc (by decide)
  with_reducible assumption

theorem wakePn_within {cs : List Part} {r : State} (src : Nat) (p : Nat) (s : State) (hc : subParts [.wakes, .live, .sluice] cs = true) (h : Within cs r s) : Within cs r (wakePn src p s) := by
  delta wakePn
  extract_lets a7
  split
  with_reducible refine within_ite (fun _ => ?_) (fun _ => ?_)
  with_reducible assumption
  with_reducible apply enterWaking_within
  with_reducible exact sub_of hc (by decide)
  with_reducible assumption
  with_reducible apply setPn_within
  with_reducible exact sub_of hc (by decide)
  with_reducible assumption
  with_reducible apply setPn_within
  with_reducible exact sub_of hc (by decide)
  with_reducible assumption
  with_reducible apply setPn_within
  with_reducible exact sub_of hc (by decide)
  with_reducible assumption
  with_reducible assumption

theorem eventPn_within {cs : List Part} {r : State} (src : Nat) (p : Nat) (s : State) (hc : subParts [.wakes, .live, .sluice] cs = true) (h : Within cs r s) : Within cs r (eventPn src p s) := by
  delta eventPn
  with_reducible refine within_ite (fun _ => ?_) (fun _ => ?_)
  with_reducible assumption
  with_reducible refine within_ite (fun _ => ?_) (fun _ => ?_)
  with_reducible apply State.bump_within
  with_reducible exact sub_of hc (by decide)
  with_reducible assumption
  with_reducible apply wakePn_within
  with_reducible exact sub_of hc (by decide)
  with_reducible apply setHolds_within
  with_reducible exact sub_of hc (by decide)
  with_reducible assumption

theorem sourceEvent_within {cs : List Part} {r : State} (src : Nat) (pns : Nat) (s : State) (hc : subParts [.wakes, .live, .sluice] cs = true) (h : Within cs r s) : Within cs r (sourceEvent src pns s) := by
  delta sourceEvent
  with_reducible refine within_ite (fun _ => ?_) (fun _ => ?_)
  with_reducible refine within_foldl (fun _ _ _ => ?_) ?_
  with_reducible apply eventPn_within
  with_reducible exact sub_of hc (by decide)
  with_reducible assumption
  with_reducible assumption
  with_reducible assumption

theorem checkHold_within {cs : List Part} {r : State} (p : Nat) (s : State) (hc : subParts [.sluice] cs = true) (h : Within cs r s) : Within cs r (checkHold p s) := by
  delta checkHold
  extract_lets a6
  with_reducible refine within_ite (fun _ => ?_) (fun _ => ?_)
  with_reducible apply setPn_within
  with_reducible exact sub_of hc (by decide)
  with_reducible assumption
  with_reducible assumption

theorem releasePns_within {cs : List Part} {r : State} (src : Nat) (pns : Nat) (s : State) (hc : subParts [.sluice] cs = true) (h : Within cs r s) : Within cs r (releasePns src pns s) := by
  delta releasePns
  extract_lets a7 a8
  have e_a8 : Within cs r a8 := by
    unfold a8
    with_reducible apply setHolds_within
    with_reducible exact sub_of hc (by decide)
    with_reducible assumption
  clear_value a8
  with_reducible refine within_foldl (fun _ _ _ => ?_) ?_
  with_reducible apply checkHold_within
  with_reducible exact sub_of hc (by decide)
  with_reducible assumption
  with_reducible assumption

theorem enterCommit_within {cs : List Part} {r : State} (p : Nat) (s : State) (hc : subParts [.sluice] cs = true) (h : Within cs r s) : Within cs r (enterCommit p s) := by
  delta enterCommit
  with_reducible apply sleepLine_within
  with_reducible exact sub_of hc (by decide)
  with_reducible apply setPn_within
  with_reducible exact sub_of hc (by decide)
  with_reducible assumption

theorem enterPrepare_within {cs : List Part} {r : State} (p : Nat) (s : State) (hc : subParts [.sluice, .endpoint, .out] cs = true) (h : Within cs r s) : Within cs r (enterPrepare p s) := by
  delta enterPrepare
  extract_lets a6 a7 a8
  have e_a7 : Within cs r a7 := by
    unfold a7
    with_reducible apply setPn_within
    with_reducible exact sub_of hc (by decide)
    with_reducible assumption
  clear_value a7
  have e_a8 : Within cs r a8 := by
    unfold a8
    with_reducible refine within_ite (fun _ => ?_) (fun _ => ?_)
    with_reducible apply vector_within
    with_reducible exact sub_of hc (by decide)
    with_reducible assumption
    with_reducible assumption
  clear_value a8
  with_reducible refine within_ite (fun _ => ?_) (fun _ => ?_)
  with_reducible apply enterCommit_within
  with_reducible exact sub_of hc (by decide)
  with_reducible assumption
  with_reducible assumption

theorem gateStep_within {cs : List Part} {r : State} (p : Nat) (s : State) (hc : subParts [.sluice] cs = true) (h : Within cs r s) : Within cs r (gateStep p s) := by
  delta gateStep
  with_reducible refine within_ite (fun _ => ?_) (fun _ => ?_)
  with_reducible apply wakeLine_within
  with_reducible exact sub_of hc (by decide)
  with_reducible assumption
  with_reducible refine within_ite (fun _ => ?_) (fun _ => ?_)
  with_reducible apply sleepLine_within
  with_reducible exact sub_of hc (by decide)
  with_reducible assumption
  with_reducible assumption

theorem maskSource_within {cs : List Part} {r : State} (src : Nat) (p : Nat) (s : State) (hc : subParts [.live, .vault, .tally, .sluice, .endpoint, .out] cs = true) (h : Within cs r s) : Within cs r (maskSource src p s) := by
  delta maskSource
  extract_lets a7 a8
  have e_a7 : Within cs r a7 := by
    unfold a7
    with_reducible apply setMask_within
    with_reducible exact sub_of hc (by decide)
    with_reducible assumption
  clear_value a7
  have e_a8 : Within cs r a8 := by
    unfold a8
    with_reducible apply journal_within
    with_reducible exact sub_of hc (by decide)
    with_reducible apply State.bump_within
    with_reducible exact sub_of hc (by decide)
    with_reducible assumption
  clear_value a8
  with_reducible apply releasePns_within
  with_reducible exact sub_of hc (by decide)
  with_reducible assumption

theorem sluiceHalt_within {cs : List Part} {r : State} (s : State) (hc : subParts [.sluice] cs = true) (h : Within cs r s) : Within cs r (sluiceHalt s) := by
  delta sluiceHalt
  extract_lets a5
  have e_a5 : Within cs r a5 := by
    unfold a5
    with_reducible apply releasePns_within
    with_reducible exact sub_of hc (by decide)
    with_reducible assumption
  clear_value a5
  with_reducible refine within_foldl (fun _ _ _ => ?_) ?_
  with_reducible refine within_ite (fun _ => ?_) (fun _ => ?_)
  with_reducible apply enterCommit_within
  with_reducible exact sub_of hc (by decide)
  with_reducible assumption
  with_reducible assumption
  with_reducible assumption

theorem definePn_within {cs : List Part} {r : State} (p : Nat) (s : State) (hc : subParts [.sluice] cs = true) (h : Within cs r s) : Within cs r (definePn p s) := by
  delta definePn
  extract_lets a6 a7 a8 a9
  have e_a7 : Within cs r a7 := by
    unfold a7
    with_reducible refine within_foldl (fun _ _ _ => ?_) ?_
    with_reducible apply setHolds_within
    with_reducible exact sub_of hc (by decide)
    with_reducible assumption
    with_reducible assumption
  clear_value a7
  have e_a8 : Within cs r a8 := by
    unfold a8
    with_reducible refine within_foldl (fun _ _ _ => ?_) ?_
    with_reducible apply setGate_within
    with_reducible exact sub_of hc (by decide)
    with_reducible assumption
    with_reducible assumption
  clear_value a8
  with_reducible apply setPn_within
  with_reducible exact sub_of hc (by decide)
  with_reducible assumption

theorem freeLines_within {cs : List Part} {r : State} (p : Nat) (oldDef : Nat) (s : State) (hc : subParts [.sluice] cs = true) (h : Within cs r s) : Within cs r (freeLines p oldDef s) := by
  delta freeLines
  extract_lets a7
  with_reducible refine within_foldl (fun _ _ _ => ?_) ?_
  with_reducible apply setGate_within
  with_reducible exact sub_of hc (by decide)
  with_reducible assumption
  with_reducible assumption

theorem undefinePn_within {cs : List Part} {r : State} (p : Nat) (s : State) (hc : subParts [.sluice] cs = true) (h : Within cs r s) : Within cs r (undefinePn p s) := by
  delta undefinePn
  extract_lets a6 a7
  have e_a7 : Within cs r a7 := by
    unfold a7
    with_reducible refine within_set_sluice (sub_of hc (by decide)) ?_
    with_reducible assumption
  clear_value a7
  with_reducible apply setPn_within
  with_reducible exact sub_of hc (by decide)
  with_reducible assumption

theorem redefinePn_within {cs : List Part} {r : State} (p : Nat) (oldDef : Nat) (s : State) (hc : subParts [.sluice] cs = true) (h : Within cs r s) : Within cs r (redefinePn p oldDef s) := by
  delta redefinePn
  extract_lets a7 a8
  with_reducible refine within_foldl (fun _ _ _ => ?_) ?_
  with_reducible apply setGate_within
  with_reducible exact sub_of hc (by decide)
  with_reducible assumption
  with_reducible assumption

theorem sluiceCommit_within {cs : List Part} {r : State} (s : State) (hc : subParts [.wakes, .live, .sluice] cs = true) (h : Within cs r s) : Within cs r (sluiceCommit s) := by
  delta sluiceCommit
  extract_lets a5 a6 a7 a8 a9 a10 a11
  have e_a8 : Within cs r a8 := by
    unfold a8
    with_reducible refine within_set_sluice (sub_of hc (by decide)) ?_
    with_reducible assumption
  clear_value a8
  have e_a10 : Within cs r a10 := by
    unfold a10
    with_reducible refine within_foldl (fun _ _ _ => ?_) ?_
    with_reducible refine within_ite (fun _ => ?_) (fun _ => ?_)
    with_reducible apply freeLines_within
    with_reducible exact sub_of hc (by decide)
    with_reducible assumption
    with_reducible assumption
    with_reducible assumption
  clear_value a10
  have e_a11 : Within cs r a11 := by
    unfold a11
    with_reducible refine within_foldl (fun _ _ _ => ?_) ?_
    with_reducible refine within_ite (fun _ => ?_) (fun _ => ?_)
    with_reducible refine within_ite (fun _ => ?_) (fun _ => ?_)
    with_reducible apply redefinePn_within
    with_reducible exact sub_of hc (by decide)
    with_reducible assumption
    with_reducible apply undefinePn_within
    with_reducible exact sub_of hc (by decide)
    with_reducible assumption
    with_reducible refine within_ite (fun _ => ?_) (fun _ => ?_)
    with_reducible apply definePn_within
    with_reducible exact sub_of hc (by decide)
    with_reducible assumption
    with_reducible assumption
    with_reducible assumption
  clear_value a11
  with_reducible refine within_foldl (fun _ _ _ => ?_) ?_
  extract_lets a18 a19
  have e_a18 : Within cs r a18 := by
    unfold a18
    with_reducible apply releasePns_within
    with_reducible exact sub_of hc (by decide)
    with_reducible assumption
  clear_value a18
  with_reducible apply sourceEvent_within
  with_reducible exact sub_of hc (by decide)
  with_reducible assumption
  with_reducible assumption

theorem askSluice_within {cs : List Part} {r : State} (k : Nat) (v : Nat) (act : State → State) (s : State)
    (hc : subParts [.sluice] cs = true) (h : Within cs r s) (hf : ∀ t, Within cs r t → Within cs r (act t)) : Within cs r (askSluice k v act s) := by
  delta askSluice
  with_reducible refine within_ite (fun _ => ?_) (fun _ => ?_)
  with_reducible refine hf _ ?_
  with_reducible assumption
  with_reducible refine within_set_sluice (sub_of hc (by decide)) ?_
  with_reducible assumption

theorem takeHits_within {cs : List Part} {r : State} (s : State) (hc : subParts [.wakes, .live, .sluice] cs = true) (h : Within cs r s) : Within cs r (takeHits s) := by
  delta takeHits
  with_reducible refine within_foldl (fun _ _ _ => ?_) ?_
  with_reducible apply sourceEvent_within
  with_reducible exact sub_of hc (by decide)
  with_reducible assumption
  with_reducible refine within_set_sluice (sub_of hc (by decide)) ?_
  with_reducible assumption

theorem inSluice_within {cs : List Part} {r : State} (act : State → State) (s : State) (hc : subParts [.wakes, .live, .sluice] cs = true) (h : Within cs r s) (hf : ∀ t, Within cs r t → Within cs r (act t)) : Within cs r (inSluice act s) := by
  delta inSluice
  with_reducible refine within_ite (fun _ => ?_) (fun _ => ?_)
  with_reducible refine hf _ ?_
  with_reducible apply takeHits_within
  with_reducible exact sub_of hc (by decide)
  with_reducible assumption
  with_reducible assumption

theorem execWakePinActive_within {cs : List Part} {r : State} (pin : Nat) (s : State) (hc : subParts [.wakes, .live, .sluice] cs = true) (h : Within cs r s) : ResultWithin cs r (execWakePinActive pin s) := by
  delta execWakePinActive
  with_reducible apply within_onUnit
  with_reducible apply inSluice_within
  with_reducible exact sub_of hc (by decide)
  with_reducible assumption
  with_reducible intro _ _
  extract_lets a8 a9
  have e_a9 : Within cs r a9 := by
    unfold a9
    with_reducible refine within_set_sluice (sub_of hc (by decide)) ?_
    with_reducible assumption
  clear_value a9
  with_reducible apply sourceEvent_within
  with_reducible exact sub_of hc (by decide)
  with_reducible assumption

theorem execWakePinRelease_within {cs : List Part} {r : State} (pin : Nat) (s : State) (hc : subParts [.wakes, .live, .sluice] cs = true) (h : Within cs r s) : ResultWithin cs r (execWakePinRelease pin s) := by
  delta execWakePinRelease
  with_reducible apply within_onUnit
  with_reducible apply inSluice_within
  with_reducible exact sub_of hc (by decide)
  with_reducible assumption
  with_reducible intro _ _
  extract_lets a8 a9
  have e_a9 : Within cs r a9 := by
    unfold a9
    with_reducible refine within_set_sluice (sub_of hc (by decide)) ?_
    with_reducible assumption
  clear_value a9
  with_reducible refine within_ite (fun _ => ?_) (fun _ => ?_)
  with_reducible apply releasePns_within
  with_reducible exact sub_of hc (by decide)
  with_reducible assumption
  with_reducible assumption

theorem execWakeHit_within {cs : List Part} {r : State} (source : Nat) (s : State) (hc : subParts [.wakes, .live, .sluice] cs = true) (h : Within cs r s) : ResultWithin cs r (execWakeHit source s) := by
  delta execWakeHit
  with_reducible apply within_onUnit
  with_reducible refine within_ite (fun _ => ?_) (fun _ => ?_)
  extract_lets a7 a8
  have e_a8 : Within cs r a8 := by
    unfold a8
    with_reducible refine within_set_sluice (sub_of hc (by decide)) ?_
    with_reducible assumption
  clear_value a8
  with_reducible apply sourceEvent_within
  with_reducible exact sub_of hc (by decide)
  with_reducible assumption
  with_reducible assumption

theorem hostRequest_within {cs : List Part} {r : State} (v : Nat) (s : State) (hc : subParts [.wakes, .live, .sluice] cs = true) (h : Within cs r s) : Within cs r (hostRequest v s) := by
  delta hostRequest
  with_reducible apply askSluice_within
  with_reducible exact sub_of hc (by decide)
  with_reducible apply State.put_within
  with_reducible exact sub_of hc (by decide)
  with_reducible assumption
  with_reducible intro _ _
  with_reducible apply sourceEvent_within
  with_reducible exact sub_of hc (by decide)
  with_reducible apply releasePns_within
  with_reducible exact sub_of hc (by decide)
  with_reducible assumption

theorem sleepAck_within {cs : List Part} {r : State} (v : Nat) (s : State) (hc : subParts [.wakes, .live, .sluice] cs = true) (h : Within cs r s) : Within cs r (sleepAck v s) := by
  delta sleepAck
  with_reducible apply askSluice_within
  with_reducible exact sub_of hc (by decide)
  with_reducible assumption
  with_reducible intro _ _
  with_reducible refine within_foldl (fun _ _ _ => ?_) ?_
  with_reducible refine within_ite (fun _ => ?_) (fun _ => ?_)
  with_reducible apply enterCommit_within
  with_reducible exact sub_of hc (by decide)
  with_reducible assumption
  with_reducible apply State.bump_within
  with_reducible exact sub_of hc (by decide)
  with_reducible assumption
  with_reducible apply takeHits_within
  with_reducible exact sub_of hc (by decide)
  with_reducible assumption

theorem sourceMaskClear_within {cs : List Part} {r : State} (v : Nat) (s : State) (hc : subParts [.sluice] cs = true) (h : Within cs r s) : Within cs r (sourceMaskClear v s) := by
  delta sourceMaskClear
  with_reducible apply askSluice_within
  with_reducible exact sub_of hc (by decide)
  with_reducible assumption
  with_reducible intro _ _
  with_reducible refine within_ite (fun _ => ?_) (fun _ => ?_)
  with_reducible refine within_set_sluice (sub_of hc (by decide)) ?_
  with_reducible assumption
  with_reducible apply setMask_within
  with_reducible exact sub_of hc (by decide)
  with_reducible assumption

theorem takeHeld_within {cs : List Part} {r : State} (s : State) (hc : subParts [.wakes, .live, .sluice] cs = true) (h : Within cs r s) : Within cs r (takeHeld s) := by
  delta takeHeld
  with_reducible refine within_foldl (fun _ _ _ => ?_) ?_
  with_reducible refine within_ite (fun _ => ?_) (fun _ => ?_)
  with_reducible apply sluiceCommit_within
  with_reducible exact sub_of hc (by decide)
  with_reducible assumption
  with_reducible refine within_ite (fun _ => ?_) (fun _ => ?_)
  with_reducible apply sluiceHalt_within
  with_reducible exact sub_of hc (by decide)
  with_reducible assumption
  with_reducible refine within_ite (fun _ => ?_) (fun _ => ?_)
  with_reducible apply sourceEvent_within
  with_reducible exact sub_of hc (by decide)
  with_reducible apply releasePns_within
  with_reducible exact sub_of hc (by decide)
  with_reducible assumption
  with_reducible refine within_ite (fun _ => ?_) (fun _ => ?_)
  with_reducible apply sleepAck_within
  with_reducible exact sub_of hc (by decide)
  with_reducible assumption
  with_reducible apply sourceMaskClear_within
  with_reducible exact sub_of hc (by decide)
  with_reducible assumption
  with_reducible refine within_set_sluice (sub_of hc (by decide)) ?_
  with_reducible assumption

theorem execSourceHoldExpired_within {cs : List Part} {r : State} (source : Nat) (s : State) (hc : subParts [.wakes, .live, .sluice] cs = true) (h : Within cs r s) : ResultWithin cs r (execSourceHoldExpired source s) := by
  delta execSourceHoldExpired
  with_reducible apply within_onUnit
  with_reducible apply inSluice_within
  with_reducible exact sub_of hc (by decide)
  with_reducible assumption
  with_reducible intro _ _
  with_reducible refine within_ite (fun _ => ?_) (fun _ => ?_)
  with_reducible assumption
  with_reducible apply releasePns_within
  with_reducible exact sub_of hc (by decide)
  with_reducible assumption

theorem execWakeSettleExpired_within {cs : List Part} {r : State} (pn : Nat) (s : State) (hc : subParts [.wakes, .live, .sluice] cs = true) (h : Within cs r s) : ResultWithin cs r (execWakeSettleExpired pn s) := by
  delta execWakeSettleExpired
  with_reducible apply within_onUnit
  with_reducible apply inSluice_within
  with_reducible exact sub_of hc (by decide)
  with_reducible assumption
  with_reducible intro _ _
  extract_lets a8
  with_reducible refine within_ite (fun _ => ?_) (fun _ => ?_)
  with_reducible apply setPn_within
  with_reducible exact sub_of hc (by decide)
  with_reducible assumption
  with_reducible assumption

theorem execHoldTimeExpired_within {cs : List Part} {r : State} (pn : Nat) (s : State) (hc : subParts [.wakes, .live, .sluice, .endpoint, .out] cs = true) (h : Within cs r s) : ResultWithin cs r (execHoldTimeExpired pn s) := by
  delta execHoldTimeExpired
  with_reducible apply within_onUnit
  with_reducible apply inSluice_within
  with_reducible exact sub_of hc (by decide)
  with_reducible assumption
  with_reducible intro _ _
  with_reducible refine within_ite (fun _ => ?_) (fun _ => ?_)
  with_reducible apply enterPrepare_within
  with_reducible exact sub_of hc (by decide)
  with_reducible assumption
  with_reducible assumption

theorem execAckTimeoutExpired_within {cs : List Part} {r : State} (pn : Nat) (s : State) (hc : subParts [.wakes, .live, .sluice] cs = true) (h : Within cs r s) : ResultWithin cs r (execAckTimeoutExpired pn s) := by
  delta execAckTimeoutExpired
  with_reducible apply within_onUnit
  with_reducible apply inSluice_within
  with_reducible exact sub_of hc (by decide)
  with_reducible assumption
  with_reducible intro _ _
  with_reducible refine within_ite (fun _ => ?_) (fun _ => ?_)
  with_reducible apply enterCommit_within
  with_reducible exact sub_of hc (by decide)
  with_reducible apply State.bump_within
  with_reducible exact sub_of hc (by decide)
  with_reducible assumption
  with_reducible assumption

theorem execGateStepExpired_within {cs : List Part} {r : State} (pn : Nat) (s : State) (hc : subParts [.wakes, .live, .sluice] cs = true) (h : Within cs r s) : ResultWithin cs r (execGateStepExpired pn s) := by
  delta execGateStepExpired
  with_reducible apply within_onUnit
  with_reducible apply inSluice_within
  with_reducible exact sub_of hc (by decide)
  with_reducible assumption
  with_reducible intro _ _
  with_reducible apply gateStep_within
  with_reducible exact sub_of hc (by decide)
  with_reducible assumption

theorem execLatchedRewake_within {cs : List Part} {r : State} (pn : Nat) (s : State) (hc : subParts [.wakes, .live, .sluice] cs = true) (h : Within cs r s) : ResultWithin cs r (execLatchedRewake pn s) := by
  delta execLatchedRewake
  with_reducible apply within_onUnit
  extract_lets a6
  with_reducible refine within_ite (fun _ => ?_) (fun _ => ?_)
  with_reducible apply enterWaking_within
  with_reducible exact sub_of hc (by decide)
  with_reducible apply State.bump_within
  with_reducible exact sub_of hc (by decide)
  with_reducible assumption
  with_reducible assumption

theorem execSourceMaxAwake_within {cs : List Part} {r : State} (source : Nat) (pn : Nat) (s : State) (hc : subParts [.live, .vault, .tally, .sluice, .endpoint, .out] cs = true) (h : Within cs r s) : ResultWithin cs r (execSourceMaxAwake source pn s) := by
  delta execSourceMaxAwake
  with_reducible apply within_onUnit
  with_reducible refine within_ite (fun _ => ?_) (fun _ => ?_)
  with_reducible apply maskSource_within
  with_reducible exact sub_of hc (by decide)
  with_reducible assumption
  with_reducible assumption

theorem execPnMaxAwake_within {cs : List Part} {r : State} (pn : Nat) (s : State) (hc : subParts [.live, .vault, .tally, .sluice, .endpoint, .out] cs = true) (h : Within cs r s) : ResultWithin cs r (execPnMaxAwake pn s) := by
  delta execPnMaxAwake
  with_reducible apply within_onUnit
  with_reducible refine within_ite (fun _ => ?_) (fun _ => ?_)
  with_reducible refine within_foldl (fun _ _ _ => ?_) ?_
  with_reducible apply maskSource_within
  with_reducible exact sub_of hc (by decide)
  with_reducible assumption
  with_reducible assumption
  with_reducible assumption

theorem execWakeTimer_within {cs : List Part} {r : State} (timer : Nat) (s : State) (hc : subParts [.wakes, .live, .sluice] cs = true) (h : Within cs r s) : ResultWithin cs r (execWakeTimer timer s) := by
  delta execWakeTimer
  with_reducible apply within_onUnit
  with_reducible refine within_ite (fun _ => ?_) (fun _ => ?_)
  extract_lets a7 a8
  have e_a8 : Within cs r a8 := by
    unfold a8
    with_reducible refine within_ite (fun _ => ?_) (fun _ => ?_)
    with_reducible assumption
    with_reducible refine within_set_sluice (sub_of hc (by decide)) ?_
    with_reducible assumption
  clear_value a8
  with_reducible apply sourceEvent_within
  with_reducible exact sub_of hc (by decide)
  with_reducible assumption
  with_reducible assumption

theorem execPwrHoldMinLow_within {cs : List Part} {r : State} (s : State) (hc : subParts [.wakes, .sluice] cs = true) (h : Within cs r s) : ResultWithin cs r (execPwrHoldMinLow s) := by
  delta execPwrHoldMinLow
  with_reducible refine within_next ?_
  with_reducible refine within_ite (fun _ => ?_) (fun _ => ?_)
  with_reducible refine within_update (ps := [.wakes, .sluice]) rfl (sub_of hc (by decide)) (fun p hp => by cases p <;> first | exact absurd (by decide) hp | with_unfolding_all rfl) rfl (Nat.le_refl _) (Nat.le_refl _) (List.suffix_refl _) id id id id id id id id id id ?_
  with_reducible assumption
  with_reducible assumption

theorem onHeadgate_within {cs : List Part} {r : State} (f : Headgate → Headgate) (s : State)
    (hc : subParts [.links, .slots, .headgate] cs = true) (h : Within cs r s) (hf : ∀ c, c.links.length = 8 → (f c).links.length = 8) : Within cs r (onHeadgate f s) := by
  delta onHeadgate
  with_reducible refine within_update (ps := [.links, .slots, .headgate]) rfl (sub_of hc (by decide)) (fun p hp => by cases p <;> first | exact absurd (by decide) hp | with_unfolding_all rfl) ?_ ?_ ?_ ?_ ?_ ?_ ?_ ?_ ?_ ?_ ?_ ?_ ?_ ?_ ?_
  with_reducible rfl
  with_reducible exact Nat.le_refl _
  with_reducible exact Nat.le_refl _
  with_reducible exact List.suffix_refl _
  with_reducible exact id
  with_reducible exact id
  with_reducible intro _
  with_reducible exact hf _ ‹_›
  with_reducible exact id
  with_reducible exact id
  with_reducible exact id
  with_reducible exact id
  with_reducible exact id
  with_reducible exact id
  with_reducible exact id
  with_reducible assumption

theorem putSlot_within {cs : List Part} {r : State} (x : Slot) (s : State) (hc : subParts [.links, .slots, .headgate] cs = true) (h : Within cs r s) : Within cs r (putSlot x s) := by
  delta putSlot
  with_reducible apply onHeadgate_within
  with_reducible exact sub_of hc (by decide)
  with_reducible assumption
  with_reducible exact fun _ h => h

theorem underConfig_within {cs : List Part} {r : State} (cfg : SMap Nat) (f : State → State) (s : State)
    (hc : subParts [.live] cs = true) (h : Within cs r s) (hf : ∀ t, Within cs r t → Within cs r (f t)) : Within cs r (underConfig cfg f s) := by
  delta underConfig
  extract_lets a8 a9 a10
  have e_a9 : Within cs r a9 := by
    unfold a9
    with_reducible refine hf _ ?_
    with_reducible refine within_set_dict_live (sub_of hc (by decide)) ?_
    with_reducible assumption
  clear_value a9
  with_reducible refine within_set_dict_live (sub_of hc (by decide)) ?_
  with_reducible assumption

theorem absorbRest_within {cs : List Part} {r : State} (x : Slot) (s : State) (hc : subParts [.links, .slots, .headgate] cs = true) (h : Within cs r s) : Within cs r (absorbRest x s) := by
  delta absorbRest
  with_reducible apply onHeadgate_within
  with_reducible exact sub_of hc (by decide)
  with_reducible assumption
  with_reducible intro _ _
  simp_all only [List.length_set, List.length_modify, List.length_map]

theorem postReads_within {cs : List Part} {r : State} (x : Slot) (a1 : List SourceRead) (a2 : State) (hc : subParts [.live, .endpoint, .buckets, .out] cs = true) (h : Within cs r a2) : PairWithin cs r (postReads x a1 a2) := by
  induction a1 generalizing a2 with
| nil => ?_
| cons x l ih => ?_
  all_goals rw [postReads]
  with_reducible refine within_mkP ?_
  with_reducible assumption
  split
  split
  with_reducible refine within_mkP ?_
  with_reducible refine within_of_pair (by assumption) ?_
  with_reducible apply ih
  with_reducible refine within_of_pair (by assumption) ?_
  with_reducible apply postLookup_within
  with_reducible exact sub_of hc (by decide)
  with_reducible assumption

theorem finishSearch_within {cs : List Part} {r : State} (x : Slot) (v : Verdict) (s : State) (hc : subParts [.live, .endpoint, .buckets, .links, .slots, .headgate, .out] cs = true) (h : Within cs r s) : Within cs r (finishSearch x v s) := by
  delta finishSearch
  extract_lets a7
  have e_a7 : Within cs r a7 := by
    unfold a7
    with_reducible refine within_ite (fun _ => ?_) (fun _ => ?_)
    with_reducible apply absorbRest_within
    with_reducible exact sub_of hc (by decide)
    with_reducible assumption
    with_reducible assumption
  clear_value a7
  split
  extract_lets a15
  with_reducible apply putSlot_within
  with_reducible exact sub_of hc (by decide)
  with_reducible refine within_of_pair (by assumption) ?_
  with_reducible refine pairWithin_ite (fun _ => ?_) (fun _ => ?_)
  with_reducible apply postReads_within
  with_reducible exact sub_of hc (by decide)
  with_reducible assumption
  with_reducible refine within_mkP ?_
  with_reducible assumption

theorem startMac_within {cs : List Part} {r : State} (x : Slot) (w : MacWork) (waited : Bool) (s : State)
    (hc : subParts [.live, .endpoint, .buckets, .links, .slots, .headgate, .out] cs = true) (h : Within cs r s) : Within cs r (startMac x w waited s) := by
  delta startMac
  extract_lets a8 a9 a10
  have e_a9 : Within cs r a9 := by
    unfold a9
    with_reducible refine within_ite (fun _ => ?_) (fun _ => ?_)
    with_reducible assumption
    with_reducible apply State.bump_within
    with_reducible exact sub_of hc (by decide)
    with_reducible assumption
  clear_value a9
  have e_a10 : Within cs r a10 := by
    unfold a10
    with_reducible refine within_ite (fun _ => ?_) (fun _ => ?_)
    with_reducible apply onLink_within
    with_reducible exact sub_of hc (by decide)
    with_reducible assumption
    with_reducible assumption
  clear_value a10
  split
  with_reducible apply putSlot_within
  with_reducible exact sub_of hc (by decide)
  with_reducible assumption
  split
  with_reducible apply finishSearch_within
  with_reducible exact sub_of hc (by decide)
  with_reducible assumption
  with_reducible apply putSlot_within
  with_reducible exact sub_of hc (by decide)
  with_reducible assumption

theorem authPayload_within {cs : List Part} {r : State} (x : Slot) (s : State) (hc : subParts [.live, .endpoint, .results, .buckets, .links, .slots, .headgate, .out] cs = true) (h : Within cs r s) : Within cs r (authPayload x s) := by
  delta authPayload
  extract_lets a6 a7 a8 a9
  with_reducible refine within_ite (fun _ => ?_) (fun _ => ?_)
  with_reducible refine within_ite (fun _ => ?_) (fun _ => ?_)
  with_reducible apply finishSearch_within
  with_reducible exact sub_of hc (by decide)
  with_reducible assumption
  with_reducible apply finishSearch_within
  with_reducible exact sub_of hc (by decide)
  with_reducible refine within_ite (fun _ => ?_) (fun _ => ?_)
  with_reducible assumption
  with_reducible apply State.bump_within
  with_reducible exact sub_of hc (by decide)
  with_reducible assumption
  with_reducible refine within_ite (fun _ => ?_) (fun _ => ?_)
  with_reducible apply finishSearch_within
  with_reducible exact sub_of hc (by decide)
  with_reducible assumption
  split
  with_reducible apply finishSearch_within
  with_reducible exact sub_of hc (by decide)
  with_reducible assumption
  with_reducible refine within_ite (fun _ => ?_) (fun _ => ?_)
  with_reducible apply finishSearch_within
  with_reducible exact sub_of hc (by decide)
  with_reducible apply freshSeen_within
  with_reducible exact sub_of hc (by decide)
  with_reducible assumption
  split
  with_reducible apply finishSearch_within
  with_reducible exact sub_of hc (by decide)
  with_reducible refine within_of_pair (by assumption) ?_
  with_reducible apply authRows67_within
  with_reducible exact sub_of hc (by decide)
  with_reducible assumption
  with_reducible apply startMac_within
  with_reducible exact sub_of hc (by decide)
  with_reducible refine within_of_pair (by assumption) ?_
  with_reducible apply authRows67_within
  with_reducible exact sub_of hc (by decide)
  with_reducible assumption

theorem authBegin_within {cs : List Part} {r : State} (x : Slot) (s : State) (hc : subParts [.live, .endpoint, .results, .buckets, .links, .slots, .headgate, .out] cs = true) (h : Within cs r s) : Within cs r (authBegin x s) := by
  delta authBegin
  extract_lets a6 a7
  (clear_value a7; split)
  with_reducible apply finishSearch_within
  with_reducible exact sub_of hc (by decide)
  with_reducible assumption
  with_reducible refine within_ite (fun _ => ?_) (fun _ => ?_)
  with_reducible apply putSlot_within
  with_reducible exact sub_of hc (by decide)
  with_reducible assumption
  with_reducible apply authPayload_within
  with_reducible exact sub_of hc (by decide)
  with_reducible assumption

theorem recordMeter_within {cs : List Part} {r : State} (x : Slot) (r_ : Nat) (s : State) (hc : subParts [.live, .coh, .results] cs = true) (h : Within cs r s) : PairWithin cs r (recordMeter x r_ s) := by
  delta recordMeter
  with_reducible refine pairWithin_ite (fun _ => ?_) (fun _ => ?_)
  extract_lets a8 a9 a10
  have e_a9 : Within cs r a9 := by
    unfold a9
    with_reducible apply reachMeter_within
    with_reducible exact sub_of hc (by decide)
    with_reducible assumption
  clear_value a9
  with_reducible refine pairWithin_ite (fun _ => ?_) (fun _ => ?_)
  with_reducible refine within_mkP ?_
  with_reducible assumption
  split
  with_reducible refine within_mkP ?_
  with_reducible refine within_of_pair (by assumption) ?_
  with_reducible apply meterUpdate_within
  with_reducible exact sub_of hc (by decide)
  with_reducible assumption
  with_reducible refine within_mkP ?_
  with_reducible refine within_of_pair (by assumption) ?_
  with_reducible apply meterUpdate_within
  with_reducible exact sub_of hc (by decide)
  with_reducible assumption
  with_reducible refine within_mkP ?_
  with_reducible assumption

theorem combine_within {cs : List Part} {r : State} (x : Slot) (cand : Nat) (fromDefault : Bool) (s : State)
    (hc : subParts [.live, .endpoint, .coh, .results, .buckets, .links, .slots, .headgate, .out] cs = true) (h : Within cs r s) : Within cs r (combine x cand fromDefault s) := by
  delta combine
  extract_lets a8 a9 a10 a11
  have e_a11 : Within cs r a11 := by
    unfold a11
    with_reducible refine within_ite (fun _ => ?_) (fun _ => ?_)
    with_reducible assumption
    with_reducible apply State.bump_within
    with_reducible exact sub_of hc (by decide)
    with_reducible assumption
  clear_value a11
  with_reducible refine within_ite (fun _ => ?_) (fun _ => ?_)
  with_reducible apply finishSearch_within
  with_reducible exact sub_of hc (by decide)
  with_reducible assumption
  split
  extract_lets a20
  have e_a20 : Within cs r a20 := by
    unfold a20
    with_reducible refine within_ite (fun _ => ?_) (fun _ => ?_)
    with_reducible apply postCount_within
    with_reducible exact sub_of hc (by decide)
    with_reducible refine within_of_pair (by assumption) ?_
    with_reducible apply recordMeter_within
    with_reducible exact sub_of hc (by decide)
    with_reducible assumption
    with_reducible refine within_of_pair (by assumption) ?_
    with_reducible apply recordMeter_within
    with_reducible exact sub_of hc (by decide)
    with_reducible assumption
  clear_value a20
  split
  with_reducible apply finishSearch_within
  with_reducible exact sub_of hc (by decide)
  with_reducible assumption
  with_reducible apply authBegin_within
  with_reducible exact sub_of hc (by decide)
  with_reducible assumption

theorem postWake_within {cs : List Part} {r : State} (v : Nat) (s : State) (hc : subParts [.live, .sluice] cs = true) (h : Within cs r s) : Within cs r (postWake v s) := by
  delta postWake
  extract_lets a6 a7
  with_reducible refine within_ite (fun _ => ?_) (fun _ => ?_)
  with_reducible refine within_set_sluice (sub_of hc (by decide)) ?_
  with_reducible assumption
  with_reducible apply State.bump_within
  with_reducible exact sub_of hc (by decide)
  with_reducible assumption

theorem tcamStep_within {cs : List Part} {r : State} (x : Slot) (t : Nat) (key : Nat) (s : State)
    (hc : subParts [.modes, .mode, .faults, .busy, .live, .vault, .tally, .sluice, .endpoint, .tcam, .out] cs = true) (h : Within cs r s) : PairWithin cs r (tcamStep x t key s) := by
  delta tcamStep
  extract_lets a8 a9 a10
  split
  with_reducible refine within_mkP ?_
  with_reducible assumption
  extract_lets a16
  with_reducible refine pairWithin_ite (fun _ => ?_) (fun _ => ?_)
  with_reducible refine within_mkP ?_
  with_reducible assumption
  with_reducible refine pairWithin_ite (fun _ => ?_) (fun _ => ?_)
  with_reducible refine within_mkP ?_
  with_reducible assumption
  with_reducible refine pairWithin_ite (fun _ => ?_) (fun _ => ?_)
  with_reducible refine within_mkP ?_
  with_reducible assumption
  split
  with_reducible refine within_mkP ?_
  with_reducible refine within_of_pair (by assumption) ?_
  with_reducible apply tcamLookup_within
  with_reducible exact sub_of hc (by decide)
  with_reducible assumption
  with_reducible refine within_mkP ?_
  with_reducible refine within_of_pair (by assumption) ?_
  with_reducible apply tcamLookup_within
  with_reducible exact sub_of hc (by decide)
  with_reducible assumption
  with_reducible refine pairWithin_ite (fun _ => ?_) (fun _ => ?_)
  with_reducible refine within_mkP ?_
  with_reducible refine within_of_pair (by assumption) ?_
  with_reducible apply tcamLookup_within
  with_reducible exact sub_of hc (by decide)
  with_reducible assumption
  with_reducible refine within_mkP ?_
  with_reducible refine within_ite (fun _ => ?_) (fun _ => ?_)
  with_reducible apply postWake_within
  with_reducible exact sub_of hc (by decide)
  with_reducible refine within_of_pair (by assumption) ?_
  with_reducible apply tcamLookup_within
  with_reducible exact sub_of hc (by decide)
  with_reducible assumption
  with_reducible refine within_of_pair (by assumption) ?_
  with_reducible apply tcamLookup_within
  with_reducible exact sub_of hc (by decide)
  with_reducible assumption

theorem bucketStep_within {cs : List Part} {r : State} (lateral : Nat) (t : Nat) (key : Nat) (s : State) (hc : subParts [.live, .integ, .coh, .buckets] cs = true) (h : Within cs r s) : TripleWithin cs r (bucketStep lateral t key s) := by
  delta bucketStep
  extract_lets a8 a9 a10 a11 a12 a13 a14
  have e_a12 : Within cs r a12 := by
    unfold a12
    with_reducible refine within_ite (fun _ => ?_) (fun _ => ?_)
    with_reducible apply takeExtToken_within
    with_reducible exact sub_of hc (by decide)
    with_reducible assumption
    with_reducible assumption
  clear_value a12
  split
  with_reducible refine within_mkP2 ?_
  with_reducible assumption
  split
  with_reducible refine within_mkP2 ?_
  with_reducible assumption
  split
  with_reducible refine within_mkP2 ?_
  with_reducible apply invalidateBad_within
  with_reducible exact sub_of hc (by decide)
  with_reducible assumption
  with_reducible refine within_mkP2 ?_
  with_reducible assumption

theorem lookupStep_within {cs : List Part} {r : State} (x : Slot) (t : Nat) (k : Nat × Nat) (s : State)
    (hc : subParts [.modes, .mode, .faults, .busy, .live, .vault, .tally, .sluice, .endpoint, .integ, .coh, .buckets, .tcam, .out] cs = true) (h : Within cs r s) : TripleWithin cs r (lookupStep x t k s) := by
  delta lookupStep
  split
  split
  with_reducible refine within_mkP2 ?_
  with_reducible refine within_of_pair (by assumption) ?_
  with_reducible apply tcamStep_within
  with_reducible exact sub_of hc (by decide)
  with_reducible assumption
  split
  with_reducible refine within_mkP2 ?_
  with_reducible refine within_of_pair (by assumption) ?_
  with_reducible apply tcamStep_within
  with_reducible exact sub_of hc (by decide)
  with_reducible assumption
  split
  with_reducible refine within_mkP2 ?_
  with_reducible assumption
  split
  split
  with_reducible refine within_mkP2 ?_
  with_reducible apply State.bump_within
  with_reducible exact sub_of hc (by decide)
  with_reducible refine within_of_pair (by assumption) ?_
  with_reducible apply trieLookup_within
  with_reducible exact sub_of hc (by decide)
  with_reducible assumption
  with_reducible refine within_mkP2 ?_
  with_reducible refine within_of_pair (by assumption) ?_
  with_reducible apply trieLookup_within
  with_reducible exact sub_of hc (by decide)
  with_reducible assumption
  with_reducible apply bucketStep_within
  with_reducible exact sub_of hc (by decide)
  with_reducible assumption

theorem sendLookup_within {cs : List Part} {r : State} (x : Slot) (t : Nat) (word : Nat) (ticket : Nat) (s : State) (hc : subParts [.out] cs = true) (h : Within cs r s) : Within cs r (sendLookup x t word ticket s) := by
  delta sendLookup
  extract_lets a9
  with_reducible apply emit_within
  with_reducible exact sub_of hc (by decide)
  with_reducible assumption

theorem oneStep_within {cs : List Part} {r : State} (x : Slot) (s : State)
    (hc : subParts [.modes, .mode, .faults, .busy, .live, .vault, .tally, .sluice, .endpoint, .integ, .coh, .buckets, .tcam, .links, .slots, .headgate, .out] cs = true) (h : Within cs r s) : PairWithin cs r (oneStep x s) := by
  delta oneStep
  extract_lets a6 a7
  with_reducible refine pairWithin_ite (fun _ => ?_) (fun _ => ?_)
  with_reducible refine within_mkP ?_
  with_reducible assumption
  with_reducible refine pairWithin_ite (fun _ => ?_) (fun _ => ?_)
  with_reducible refine within_mkP ?_
  with_reducible assumption
  split
  extract_lets a17 a18 a19
  have e_a19 : Within cs r a19 := by
    unfold a19
    with_reducible apply onHeadgate_within
    with_reducible exact sub_of hc (by decide)
    with_reducible refine within_of_pair2 (by assumption) ?_
    with_reducible apply lookupStep_within
    with_reducible exact sub_of hc (by decide)
    with_reducible assumption
    with_reducible exact fun _ h => h
  clear_value a19
  split
  with_reducible refine within_mkP ?_
  with_reducible refine within_of_pair2 (by assumption) ?_
  with_reducible apply lookupStep_within
  with_reducible exact sub_of hc (by decide)
  with_reducible assumption
  with_reducible refine within_mkP ?_
  with_reducible refine within_of_pair2 (by assumption) ?_
  with_reducible apply lookupStep_within
  with_reducible exact sub_of hc (by decide)
  with_reducible assumption
  with_reducible refine within_mkP ?_
  with_reducible refine within_of_pair2 (by assumption) ?_
  with_reducible apply lookupStep_within
  with_reducible exact sub_of hc (by decide)
  with_reducible assumption
  with_reducible refine within_mkP ?_
  with_reducible apply State.bump_within
  with_reducible exact sub_of hc (by decide)
  with_reducible refine within_of_pair2 (by assumption) ?_
  with_reducible apply lookupStep_within
  with_reducible exact sub_of hc (by decide)
  with_reducible assumption
  with_reducible refine within_mkP ?_
  with_reducible apply sendLookup_within
  with_reducible exact sub_of hc (by decide)
  with_reducible assumption

theorem flowVerdict_within {cs : List Part} {r : State} (x : Slot) (v : Verdict) (s : State) (hc : subParts [.live, .endpoint, .results, .buckets, .links, .slots, .headgate, .out] cs = true) (h : Within cs r s) : Within cs r (flowVerdict x v s) := by
  delta flowVerdict
  with_reducible refine within_ite (fun _ => ?_) (fun _ => ?_)
  with_reducible apply finishSearch_within
  with_reducible exact sub_of hc (by decide)
  with_reducible assumption
  extract_lets a8
  with_reducible refine within_ite (fun _ => ?_) (fun _ => ?_)
  with_reducible apply putSlot_within
  with_reducible exact sub_of hc (by decide)
  with_reducible assumption
  with_reducible apply authPayload_within
  with_reducible exact sub_of hc (by decide)
  with_reducible assumption

theorem runFlow_within {cs : List Part} {r : State} (a0 : Nat) (a1 : Flow × State)
    (hc : subParts [.modes, .mode, .faults, .busy, .live, .vault, .tally, .sluice, .endpoint, .integ, .coh, .results, .buckets, .tcam, .links, .slots, .headgate, .out] cs = true) (h : PairWithin cs r a1) : Within cs r (runFlow a0 a1) := by
  induction a0 generalizing a1 with
| zero => exact h
| succ n ih => ?_
  obtain ⟨f, s⟩ := a1
  cases f
  all_goals rw [runFlow]
  with_reducible apply ih
  with_reducible apply oneStep_within
  with_reducible exact sub_of hc (by decide)
  exact h
  split
  with_reducible apply flowVerdict_within
  with_reducible exact sub_of hc (by decide)
  exact h
  with_reducible apply combine_within
  with_reducible exact sub_of hc (by decide)
  exact h
  with_reducible apply flowVerdict_within
  with_reducible exact sub_of hc (by decide)
  exact h
  with_reducible apply putSlot_within
  with_reducible exact sub_of hc (by decide)
  exact h

theorem runSearch_within {cs : List Part} {r : State} (x : Slot) (s : State)
    (hc : subParts [.modes, .mode, .faults, .busy, .live, .vault, .tally, .sluice, .endpoint, .integ, .coh, .results, .buckets, .tcam, .links, .slots, .headgate, .out] cs = true) (h : Within cs r s) : Within cs r (runSearch x s) := by
  delta runSearch
  with_reducible apply runFlow_within
  with_reducible exact sub_of hc (by decide)
  with_reducible refine within_mkP ?_
  with_reducible assumption

theorem traceRecord_within {cs : List Part} {r : State} (x : Slot) (s : State) (hc : subParts [.jack, .fresh] cs = true) (h : Within cs r s) : Within cs r (traceRecord x s) := by
  delta traceRecord
  extract_lets a6 a7 a8
  with_reducible refine within_ite (fun _ => ?_) (fun _ => ?_)
  with_reducible refine within_update (ps := [.jack, .fresh]) rfl (sub_of hc (by decide)) (fun p hp => by cases p <;> first | exact absurd (by decide) hp | with_unfolding_all rfl) ?_ ?_ ?_ ?_ ?_ ?_ ?_ ?_ ?_ ?_ ?_ ?_ ?_ ?_ ?_
  with_reducible rfl
  with_reducible exact Nat.le_add_right _ _
  with_reducible exact Nat.le_refl _
  with_reducible exact List.suffix_refl _
  with_reducible exact id
  with_reducible exact id
  with_reducible exact id
  with_reducible exact id
  with_reducible exact id
  with_reducible exact id
  with_reducible exact id
  with_reducible exact id
  with_reducible exact id
  with_reducible exact id
  with_reducible assumption
  with_reducible assumption

theorem execSearchRun_within {cs : List Part} {r : State} (slot : Nat) (s : State)
    (hc : subParts [.modes, .mode, .faults, .busy, .live, .vault, .tally, .jack, .sluice, .endpoint, .integ, .coh, .results, .buckets, .tcam, .links, .slots, .headgate, .fresh, .out] cs = true) (h : Within cs r s) : ResultWithin cs r (execSearchRun slot s) := by
  delta execSearchRun
  with_reducible apply within_onUnit
  split
  with_reducible assumption
  extract_lets a11 a12 a13 a14
  with_reducible refine within_ite (fun _ => ?_) (fun _ => ?_)
  with_reducible assumption
  with_reducible refine within_ite (fun _ => ?_) (fun _ => ?_)
  with_reducible apply settleGrants_within
  with_reducible exact sub_of hc (by decide)
  with_reducible apply finishSearch_within
  with_reducible exact sub_of hc (by decide)
  with_reducible assumption
  with_reducible refine within_ite (fun _ => ?_) (fun _ => ?_)
  with_reducible assumption
  with_reducible apply settleGrants_within
  with_reducible exact sub_of hc (by decide)
  with_reducible apply underConfig_within
  with_reducible exact sub_of hc (by decide)
  with_reducible assumption
  with_reducible intro _ _
  with_reducible apply runSearch_within
  with_reducible exact sub_of hc (by decide)
  with_reducible refine within_ite (fun _ => ?_) (fun _ => ?_)
  with_reducible apply traceRecord_within
  with_reducible exact sub_of hc (by decide)
  with_reducible apply putSlot_within
  with_reducible exact sub_of hc (by decide)
  with_reducible apply State.bump_within
  with_reducible exact sub_of hc (by decide)
  with_reducible assumption
  with_reducible apply putSlot_within
  with_reducible exact sub_of hc (by decide)
  with_reducible assumption

theorem takeContexts_within {cs : List Part} {r : State} (a0 : Nat) (a1 : State) (hc : subParts [.live, .endpoint, .buckets, .links, .slots, .headgate, .out] cs = true) (h : Within cs r a1) : Within cs r (takeContexts a0 a1) := by
  induction a0 generalizing a1 with
| zero => ?_
| succ n ih => ?_
  all_goals rw [takeContexts]
  with_reducible assumption
  split
  with_reducible apply ih
  with_reducible apply underConfig_within
  with_reducible exact sub_of hc (by decide)
  with_reducible assumption
  with_reducible intro _ _
  with_reducible apply startMac_within
  with_reducible exact sub_of hc (by decide)
  with_reducible assumption
  with_reducible assumption

theorem releaseContexts_within {cs : List Part} {r : State} (s : State) (hc : subParts [.live, .endpoint, .buckets, .links, .slots, .headgate, .out] cs = true) (h : Within cs r s) : Within cs r (releaseContexts s) := by
  delta releaseContexts
  with_reducible apply takeContexts_within
  with_reducible exact sub_of hc (by decide)
  with_reducible assumption

theorem execMacOperationDone_within {cs : List Part} {r : State} (slot : Nat) (s : State) (hc : subParts [.live, .vault, .tally, .endpoint, .coh, .results, .buckets, .links, .slots, .headgate, .out] cs = true) (h : Within cs r s) : ResultWithin cs r (execMacOperationDone slot s) := by
  delta execMacOperationDone
  with_reducible apply within_onUnit
  split
  with_reducible assumption
  split
  extract_lets a20 a21
  have e_a21 : Within cs r a21 := by
    unfold a21
    with_reducible apply underConfig_within
    with_reducible exact sub_of hc (by decide)
    with_reducible assumption
    with_reducible intro _ _
    split
    with_reducible apply finishSearch_within
    with_reducible exact sub_of hc (by decide)
    with_reducible refine within_of_pair (by assumption) ?_
    with_reducible apply authEnd_within
    with_reducible exact sub_of hc (by decide)
    with_reducible assumption
    with_reducible apply finishSearch_within
    with_reducible exact sub_of hc (by decide)
    with_reducible refine within_of_pair (by assumption) ?_
    with_reducible apply authEnd_within
    with_reducible exact sub_of hc (by decide)
    with_reducible assumption
    with_reducible apply finishSearch_within
    with_reducible exact sub_of hc (by decide)
    with_reducible refine within_of_pair (by assumption) ?_
    with_reducible apply authEnd_within
    with_reducible exact sub_of hc (by decide)
    with_reducible assumption
  clear_value a21
  with_reducible apply settleGrants_within
  with_reducible exact sub_of hc (by decide)
  with_reducible apply releaseContexts_within
  with_reducible exact sub_of hc (by decide)
  with_reducible assumption
  with_reducible assumption

theorem resolveLookup_within {cs : List Part} {r : State} (m : Sys2Proof.LookupMsg) (s : State)
    (hc : subParts [.modes, .mode, .faults, .busy, .live, .vault, .tally, .sluice, .endpoint, .integ, .coh, .results, .buckets, .tcam, .links, .slots, .headgate, .out] cs = true) (h : Within cs r s) : Within cs r (resolveLookup m s) := by
  delta resolveLookup
  split
  with_reducible apply State.bump_within
  with_reducible exact sub_of hc (by decide)
  with_reducible assumption
  with_reducible apply underConfig_within
  with_reducible exact sub_of hc (by decide)
  with_reducible assumption
  with_reducible intro _ _
  extract_lets a13 a14 a15 a16 a17
  have e_a17 : Within cs r a17 := by
    unfold a17
    (clear_value a15; split)
    with_reducible refine within_ite (fun _ => ?_) (fun _ => ?_)
    with_reducible apply postWake_within
    with_reducible exact sub_of hc (by decide)
    with_reducible assumption
    with_reducible assumption
    with_reducible assumption
  clear_value a17
  with_reducible refine within_ite (fun _ => ?_) (fun _ => ?_)
  with_reducible apply finishSearch_within
  with_reducible exact sub_of hc (by decide)
  with_reducible assumption
  with_reducible apply runFlow_within
  with_reducible exact sub_of hc (by decide)
  with_reducible refine within_mkP ?_
  with_reducible assumption

theorem chainTimeout_within {cs : List Part} {r : State} (a : Bool) (slot : Nat) (s : State) (hc : subParts [.live, .endpoint, .buckets, .links, .slots, .headgate, .out] cs = true) (h : Within cs r s) : Within cs r (chainTimeout a slot s) := by
  delta chainTimeout
  split
  with_reducible assumption
  with_reducible refine within_ite (fun _ => ?_) (fun _ => ?_)
  with_reducible apply underConfig_within
  with_reducible exact sub_of hc (by decide)
  with_reducible assumption
  with_reducible intro _ _
  with_reducible apply finishSearch_within
  with_reducible exact sub_of hc (by decide)
  with_reducible apply State.bump_within
  with_reducible exact sub_of hc (by decide)
  with_reducible assumption
  with_reducible assumption

theorem fallbackSlots_within {cs : List Part} {r : State} (s : State) (hc : subParts [.links, .slots, .headgate] cs = true) (h : Within cs r s) : Within cs r (fallbackSlots s) := by
  delta fallbackSlots
  extract_lets a5 a6
  have e_a5 : Within cs r a5 := by
    unfold a5
    with_reducible refine within_foldl (fun _ _ _ => ?_) ?_
    with_reducible refine within_ite (fun _ => ?_) (fun _ => ?_)
    with_reducible apply absorbRest_within
    with_reducible exact sub_of hc (by decide)
    with_reducible assumption
    with_reducible assumption
    with_reducible assumption
  clear_value a5
  with_reducible apply onHeadgate_within
  with_reducible exact sub_of hc (by decide)
  with_reducible assumption
  with_reducible exact fun _ h => h

theorem linkEvent_within {cs : List Part} {r : State} (s : State) (hc : subParts [.endpoint, .out] cs = true) (h : Within cs r s) : Within cs r (linkEvent s) := by
  delta linkEvent
  with_reducible apply vector_within
  with_reducible exact sub_of hc (by decide)
  with_reducible assumption

theorem startTraining_within {cs : List Part} {r : State} (m : Nat) (s : State) (hc : subParts [.links, .out] cs = true) (h : Within cs r s) : Within cs r (startTraining m s) := by
  delta startTraining
  with_reducible refine within_ite (fun _ => ?_) (fun _ => ?_)
  with_reducible apply onLink_within
  with_reducible exact sub_of hc (by decide)
  with_reducible assumption
  with_reducible apply emit_within
  with_reducible exact sub_of hc (by decide)
  with_reducible assumption

theorem retrain_within {cs : List Part} {r : State} (m : Nat) (lost : Nat) (s : State) (hc : subParts [.live, .endpoint, .links, .out] cs = true) (h : Within cs r s) : Within cs r (retrain m lost s) := by
  delta retrain
  with_reducible apply linkEvent_within
  with_reducible exact sub_of hc (by decide)
  with_reducible apply startTraining_within
  with_reducible exact sub_of hc (by decide)
  with_reducible apply State.bump_within
  with_reducible exact sub_of hc (by decide)
  with_reducible apply onLink_within
  with_reducible exact sub_of hc (by decide)
  with_reducible assumption

theorem linkDown_within {cs : List Part} {r : State} (m : Nat) (s : State) (hc : subParts [.endpoint, .links, .out] cs = true) (h : Within cs r s) : Within cs r (linkDown m s) := by
  delta linkDown
  with_reducible apply linkEvent_within
  with_reducible exact sub_of hc (by decide)
  with_reducible apply onLink_within
  with_reducible exact sub_of hc (by decide)
  with_reducible assumption

theorem execLaneLost_within {cs : List Part} {r : State} (link : Nat) (lane : Nat) (s : State) (hc : subParts [.live, .endpoint, .links, .out] cs = true) (h : Within cs r s) : ResultWithin cs r (execLaneLost link lane s) := by
  delta execLaneLost
  with_reducible apply within_onUnit
  extract_lets a7
  with_reducible refine within_ite (fun _ => ?_) (fun _ => ?_)
  with_reducible assumption
  with_reducible apply retrain_within
  with_reducible exact sub_of hc (by decide)
  with_reducible assumption

theorem linkRetrain_within {cs : List Part} {r : State} (m : Nat) (s : State) (hc : subParts [.live, .endpoint, .links, .out] cs = true) (h : Within cs r s) : PairWithin cs r (linkRetrain m s) := by
  delta linkRetrain
  with_reducible refine pairWithin_ite (fun _ => ?_) (fun _ => ?_)
  with_reducible refine within_mkP ?_
  with_reducible assumption
  with_reducible refine pairWithin_ite (fun _ => ?_) (fun _ => ?_)
  with_reducible refine within_mkP ?_
  with_reducible assumption
  with_reducible refine within_mkP ?_
  with_reducible apply retrain_within
  with_reducible exact sub_of hc (by decide)
  with_reducible assumption

theorem linkDiscardHeld_within {cs : List Part} {r : State} (m : Nat) (s : State) (hc : subParts [.live, .keys, .endpoint, .rings, .slots, .out] cs = true) (h : Within cs r s) : PairWithin cs r (linkDiscardHeld m s) := by
  delta linkDiscardHeld
  with_reducible refine pairWithin_ite (fun _ => ?_) (fun _ => ?_)
  with_reducible refine within_mkP ?_
  with_reducible apply discardHeld_within
  with_reducible exact sub_of hc (by decide)
  with_reducible assumption
  with_reducible refine within_mkP ?_
  with_reducible assumption

theorem fillLinkBucket_within {cs : List Part} {r : State} (m : Nat) (s : State) (hc : subParts [.links] cs = true) (h : Within cs r s) : Within cs r (fillLinkBucket m s) := by
  delta fillLinkBucket
  with_reducible apply onLink_within
  with_reducible exact sub_of hc (by decide)
  with_reducible assumption

theorem resendAll_within {cs : List Part} {r : State} (m : Nat) (s : State) (hc : subParts [.out] cs = true) (h : Within cs r s) : Within cs r (resendAll m s) := by
  delta resendAll
  extract_lets a6
  with_reducible refine within_foldl (fun _ _ _ => ?_) ?_
  with_reducible apply emit_within
  with_reducible exact sub_of hc (by decide)
  with_reducible assumption
  with_reducible assumption

theorem resend_within {cs : List Part} {r : State} (m : Nat) (s : State) (hc : subParts [.live, .endpoint, .links, .out] cs = true) (h : Within cs r s) : Within cs r (resend m s) := by
  delta resend
  extract_lets a6
  with_reducible refine within_ite (fun _ => ?_) (fun _ => ?_)
  with_reducible assumption
  with_reducible refine within_ite (fun _ => ?_) (fun _ => ?_)
  with_reducible apply retrain_within
  with_reducible exact sub_of hc (by decide)
  with_reducible apply onLink_within
  with_reducible exact sub_of hc (by decide)
  with_reducible assumption
  with_reducible apply resendAll_within
  with_reducible exact sub_of hc (by decide)
  with_reducible apply State.bump_within
  with_reducible exact sub_of hc (by decide)
  with_reducible apply onLink_within
  with_reducible exact sub_of hc (by decide)
  with_reducible assumption

theorem execReplayTimer_within {cs : List Part} {r : State} (link : Nat) (s : State) (hc : subParts [.live, .endpoint, .links, .out] cs = true) (h : Within cs r s) : ResultWithin cs r (execReplayTimer link s) := by
  delta execReplayTimer
  with_reducible apply within_onUnit
  with_reducible refine within_ite (fun _ => ?_) (fun _ => ?_)
  with_reducible apply resend_within
  with_reducible exact sub_of hc (by decide)
  with_reducible assumption
  with_reducible assumption

theorem comeUp_within {cs : List Part} {r : State} (m : Nat) (t : Sys2Proof.Training) (s : State) (hc : subParts [.live, .keys, .endpoint, .rings, .links, .slots, .out] cs = true) (h : Within cs r s) : Within cs r (comeUp m t s) := by
  delta comeUp
  extract_lets a7 a8 a9 a10 a11 a12 a13 a14
  have e_a10 : Within cs r a10 := by
    unfold a10
    with_reducible refine within_ite (fun _ => ?_) (fun _ => ?_)
    with_reducible apply discardHeld_within
    with_reducible exact sub_of hc (by decide)
    with_reducible assumption
    with_reducible assumption
  clear_value a10
  have e_a11 : Within cs r a11 := by
    unfold a11
    with_reducible apply onLink_within
    with_reducible exact sub_of hc (by decide)
    with_reducible assumption
  clear_value a11
  have e_a12 : Within cs r a12 := by
    unfold a12
    with_reducible apply State.put_within
    with_reducible exact sub_of hc (by decide)
    with_reducible assumption
  clear_value a12
  have e_a13 : Within cs r a13 := by
    unfold a13
    with_reducible apply State.put_within
    with_reducible exact sub_of hc (by decide)
    with_reducible assumption
  clear_value a13
  have e_a14 : Within cs r a14 := by
    unfold a14
    with_reducible apply fillLinkBucket_within
    with_reducible exact sub_of hc (by decide)
    with_reducible assumption
  clear_value a14
  with_reducible apply sendTokens_within
  with_reducible exact sub_of hc (by decide)
  with_reducible apply resendAll_within
  with_reducible exact sub_of hc (by decide)
  with_reducible assumption

theorem execLinkUp_within {cs : List Part} {r : State} (link : Nat) (t : Sys2Proof.Training) (s : State) (hc : subParts [.live, .keys, .endpoint, .rings, .links, .slots, .out] cs = true) (h : Within cs r s) : ResultWithin cs r (execLinkUp link t s) := by
  delta execLinkUp
  with_reducible apply within_onUnit
  extract_lets a7
  with_reducible refine within_ite (fun _ => ?_) (fun _ => ?_)
  with_reducible apply comeUp_within
  with_reducible exact sub_of hc (by decide)
  with_reducible assumption
  with_reducible assumption

theorem execCreditTokenTimer_within {cs : List Part} {r : State} (link : Nat) (s : State) (hc : subParts [.links, .out] cs = true) (h : Within cs r s) : ResultWithin cs r (execCreditTokenTimer link s) := by
  delta execCreditTokenTimer
  with_reducible apply within_onUnit
  with_reducible refine within_ite (fun _ => ?_) (fun _ => ?_)
  with_reducible apply sendTokens_within
  with_reducible exact sub_of hc (by decide)
  with_reducible assumption
  with_reducible assumption

theorem execUndefinedControlBlock_within {cs : List Part} {r : State} (link : Nat) (s : State) (hc : subParts [.live] cs = true) (h : Within cs r s) : ResultWithin cs r (execUndefinedControlBlock link s) := by
  delta execUndefinedControlBlock
  with_reducible apply within_onUnit
  with_reducible refine within_ite (fun _ => ?_) (fun _ => ?_)
  with_reducible apply State.bump_within
  with_reducible exact sub_of hc (by decide)
  with_reducible assumption
  with_reducible assumption

theorem payloadSettled_within {cs : List Part} {r : State} (x : Slot) (s : State) (hc : subParts [.live, .endpoint, .results, .buckets, .links, .slots, .headgate, .out] cs = true) (h : Within cs r s) : Within cs r (payloadSettled x s) := by
  delta payloadSettled
  with_reducible refine within_ite (fun _ => ?_) (fun _ => ?_)
  with_reducible apply underConfig_within
  with_reducible exact sub_of hc (by decide)
  with_reducible apply putSlot_within
  with_reducible exact sub_of hc (by decide)
  with_reducible assumption
  with_reducible intro _ _
  with_reducible apply authPayload_within
  with_reducible exact sub_of hc (by decide)
  with_reducible assumption
  with_reducible apply putSlot_within
  with_reducible exact sub_of hc (by decide)
  with_reducible assumption

theorem payloadBad_within {cs : List Part} {r : State} (x : Slot) (absorb : Bool) (s : State) (hc : subParts [.live, .endpoint, .results, .buckets, .links, .slots, .headgate, .out] cs = true) (h : Within cs r s) : Within cs r (payloadBad x absorb s) := by
  delta payloadBad
  with_reducible apply payloadSettled_within
  with_reducible exact sub_of hc (by decide)
  with_reducible refine within_ite (fun _ => ?_) (fun _ => ?_)
  with_reducible apply absorbRest_within
  with_reducible exact sub_of hc (by decide)
  with_reducible assumption
  with_reducible assumption

theorem takePayload_within {cs : List Part} {r : State} (m : Nat) (h_ : Nat) (data : Sys2Proof.Bytes) (s : State) (hc : subParts [.live, .endpoint, .results, .buckets, .links, .slots, .headgate, .out] cs = true) (h : Within cs r s) : Within cs r (takePayload m h_ data s) := by
  delta takePayload
  extract_lets a8 a9 a10 a11 a12
  split
  extract_lets a18 a19
  with_reducible refine within_ite (fun _ => ?_) (fun _ => ?_)
  with_reducible apply payloadBad_within
  with_reducible exact sub_of hc (by decide)
  with_reducible assumption
  with_reducible refine within_ite (fun _ => ?_) (fun _ => ?_)
  with_reducible apply payloadSettled_within
  with_reducible exact sub_of hc (by decide)
  with_reducible assumption
  with_reducible apply putSlot_within
  with_reducible exact sub_of hc (by decide)
  with_reducible assumption
  split
  with_reducible refine within_ite (fun _ => ?_) (fun _ => ?_)
  with_reducible apply onLink_within
  with_reducible exact sub_of hc (by decide)
  with_reducible assumption
  with_reducible assumption
  with_reducible apply State.bump_within
  with_reducible exact sub_of hc (by decide)
  with_reducible assumption

theorem execPayloadTimeout_within {cs : List Part} {r : State} (link : Nat) (cls : Nat) (tag : Nat) (s : State) (hc : subParts [.live, .endpoint, .results, .buckets, .links, .slots, .headgate, .out] cs = true) (h : Within cs r s) : ResultWithin cs r (execPayloadTimeout link cls tag s) := by
  delta execPayloadTimeout
  with_reducible apply within_onUnit
  split
  with_reducible apply settleGrants_within
  with_reducible exact sub_of hc (by decide)
  with_reducible apply payloadBad_within
  with_reducible exact sub_of hc (by decide)
  with_reducible assumption
  with_reducible apply onLink_within
  with_reducible exact sub_of hc (by decide)
  with_reducible assumption

theorem police_within {cs : List Part} {r : State} (m : Nat) (paid : Bool) (s : State) (hc : subParts [.live, .links, .slots, .headgate] cs = true) (h : Within cs r s) : PairWithin cs r (police m paid s) := by
  delta police
  extract_lets a7 a8 a9 a10 a11 a12 a13 a14 a15 a16
  have e_a14 : Within cs r a14 := by
    unfold a14
    with_reducible apply onLink_within
    with_reducible exact sub_of hc (by decide)
    with_reducible assumption
  clear_value a14
  have e_a15 : Within cs r a15 := by
    unfold a15
    with_reducible refine within_ite (fun _ => ?_) (fun _ => ?_)
    with_reducible apply onHeadgate_within
    with_reducible exact sub_of hc (by decide)
    with_reducible assumption
    with_reducible exact fun _ h => h
    with_reducible assumption
  clear_value a15
  have e_a16 : Within cs r a16 := by
    unfold a16
    with_reducible refine within_ite (fun _ => ?_) (fun _ => ?_)
    with_reducible apply State.bump_within
    with_reducible exact sub_of hc (by decide)
    with_reducible assumption
    with_reducible apply State.bump_within
    with_reducible exact sub_of hc (by decide)
    with_reducible assumption
  clear_value a16
  with_reducible refine within_mkP ?_
  with_reducible refine within_ite (fun _ => ?_) (fun _ => ?_)
  with_reducible apply State.bump_within
  with_reducible exact sub_of hc (by decide)
  with_reducible assumption
  with_reducible assumption

theorem acceptToken_within {cs : List Part} {r : State} (m : Nat) (h_ : Nat) (id : Nat) (snap : Sys2Proof.Bytes) (s : State) (hc : subParts [.drowse, .busy, .live, .links, .slots, .headgate] cs = true) (h : Within cs r s) : Within cs r (acceptToken m h_ id snap s) := by
  delta acceptToken
  extract_lets a9 a10 a11 a12 a13
  have e_a11 : Within cs r a11 := by
    unfold a11
    with_reducible refine within_ite (fun _ => ?_) (fun _ => ?_)
    with_reducible apply State.bump_within
    with_reducible exact sub_of hc (by decide)
    with_reducible assumption
    with_reducible assumption
  clear_value a11
  have e_a12 : Within cs r a12 := by
    unfold a12
    with_reducible refine within_ite (fun _ => ?_) (fun _ => ?_)
    with_reducible assumption
    with_reducible apply drowseTrigger_within
    with_reducible exact sub_of hc (by decide)
    with_reducible assumption
  clear_value a12
  split
  extract_lets a22 a23 a24 a25 a26 a27 a28 a29
  have e_a23 : Within cs r a23 := by
    unfold a23
    with_reducible apply onLink_within
    with_reducible exact sub_of hc (by decide)
    with_reducible refine within_of_pair (by assumption) ?_
    with_reducible refine pairWithin_ite (fun _ => ?_) (fun _ => ?_)
    with_reducible apply police_within
    with_reducible exact sub_of hc (by decide)
    with_reducible assumption
    with_reducible refine within_mkP ?_
    with_reducible assumption
  clear_value a23
  have e_a27 : Within cs r a27 := by
    unfold a27
    with_reducible apply onLink_within
    with_reducible exact sub_of hc (by decide)
    with_reducible assumption
  clear_value a27
  have e_a28 : Within cs r a28 := by
    unfold a28
    with_reducible refine within_ite (fun _ => ?_) (fun _ => ?_)
    with_reducible apply absorbRest_within
    with_reducible exact sub_of hc (by decide)
    with_reducible assumption
    with_reducible assumption
  clear_value a28
  have e_a29 : Within cs r a29 := by
    unfold a29
    with_reducible apply onHeadgate_within
    with_reducible exact sub_of hc (by decide)
    with_reducible assumption
    with_reducible exact fun _ h => h
  clear_value a29
  with_reducible refine within_ite (fun _ => ?_) (fun _ => ?_)
  with_reducible apply State.peak_within
  with_reducible exact sub_of hc (by decide)
  with_reducible assumption
  with_reducible apply State.peak_within
  with_reducible exact sub_of hc (by decide)
  with_reducible assumption

theorem takeKeyToken_within {cs : List Part} {r : State} (m : Nat) (h_ : Nat) (snap : Sys2Proof.Bytes) (s : State)
    (hc : subParts [.drowse, .busy, .live, .endpoint, .results, .buckets, .links, .slots, .headgate, .out] cs = true) (h : Within cs r s) : Within cs r (takeKeyToken m h_ snap s) := by
  delta takeKeyToken
  extract_lets a8 a9 a10 a11 a12
  have e_a9 : Within cs r a9 := by
    unfold a9
    split
    with_reducible apply payloadBad_within
    with_reducible exact sub_of hc (by decide)
    with_reducible assumption
    with_reducible assumption
  clear_value a9
  have e_a12 : Within cs r a12 := by
    unfold a12
    with_reducible apply State.bump_within
    with_reducible exact sub_of hc (by decide)
    with_reducible assumption
  clear_value a12
  split
  with_reducible apply acceptToken_within
  with_reducible exact sub_of hc (by decide)
  with_reducible assumption
  with_reducible refine within_ite (fun _ => ?_) (fun _ => ?_)
  with_reducible assumption
  with_reducible apply onLink_within
  with_reducible exact sub_of hc (by decide)
  with_reducible assumption

theorem parseTokens_within {cs : List Part} {r : State} (m : Nat) (body : Sys2Proof.Bytes) (a2 : Nat) (a3 : Nat) (a4 : State)
    (hc : subParts [.drowse, .busy, .live, .endpoint, .results, .buckets, .links, .slots, .headgate, .out] cs = true) (h : Within cs r a4) : PairWithin cs r (parseTokens m body a2 a3 a4) := by
  induction a2 generalizing a3 a4 with
| zero => ?_
| succ n ih => ?_
  all_goals rw [parseTokens]
  with_reducible refine within_mkP ?_
  with_reducible assumption
  with_reducible refine pairWithin_ite (fun _ => ?_) (fun _ => ?_)
  with_reducible refine within_mkP ?_
  with_reducible assumption
  with_reducible refine pairWithin_ite (fun _ => ?_) (fun _ => ?_)
  extract_lets a15 a16 a17
  with_reducible refine pairWithin_ite (fun _ => ?_) (fun _ => ?_)
  with_reducible refine within_mkP ?_
  with_reducible assumption
  with_reducible apply ih
  with_reducible apply takeKeyToken_within
  with_reducible exact sub_of hc (by decide)
  with_reducible assumption
  with_reducible refine pairWithin_ite (fun _ => ?_) (fun _ => ?_)
  extract_lets a16 a17
  with_reducible refine pairWithin_ite (fun _ => ?_) (fun _ => ?_)
  with_reducible refine within_mkP ?_
  with_reducible assumption
  with_reducible apply ih
  with_reducible apply takePayload_within
  with_reducible exact sub_of hc (by decide)
  with_reducible assumption
  with_reducible refine within_mkP ?_
  with_reducible assumption

theorem sendNak_within {cs : List Part} {r : State} (m : Nat) (s : State) (hc : subParts [.links, .out] cs = true) (h : Within cs r s) : Within cs r (sendNak m s) := by
  delta sendNak
  extract_lets a6
  with_reducible refine within_ite (fun _ => ?_) (fun _ => ?_)
  with_reducible assumption
  with_reducible apply emit_within
  with_reducible exact sub_of hc (by decide)
  with_reducible apply onLink_within
  with_reducible exact sub_of hc (by decide)
  with_reducible assumption

theorem sendAck_within {cs : List Part} {r : State} (m : Nat) (s : State) (hc : subParts [.out] cs = true) (h : Within cs r s) : Within cs r (sendAck m s) := by
  delta sendAck
  with_reducible apply emit_within
  with_reducible exact sub_of hc (by decide)
  with_reducible assumption

theorem takeAck_within {cs : List Part} {r : State} (m : Nat) (p : Sys2Proof.Parcel) (s : State) (hc : subParts [.live, .endpoint, .links, .out] cs = true) (h : Within cs r s) : Within cs r (takeAck m p s) := by
  delta takeAck
  extract_lets a7
  have e_a7 : Within cs r a7 := by
    unfold a7
    with_reducible apply onLink_within
    with_reducible exact sub_of hc (by decide)
    with_reducible assumption
  clear_value a7
  with_reducible refine within_ite (fun _ => ?_) (fun _ => ?_)
  with_reducible apply resend_within
  with_reducible exact sub_of hc (by decide)
  with_reducible assumption
  with_reducible assumption

theorem takeData_within {cs : List Part} {r : State} (m : Nat) (body : Sys2Proof.Bytes) (s : State) (hc : subParts [.drowse, .busy, .live, .endpoint, .results, .buckets, .links, .slots, .headgate, .out] cs = true) (h : Within cs r s) : Within cs r (takeData m body s) := by
  delta takeData
  extract_lets a7
  have e_a7 : Within cs r a7 := by
    unfold a7
    with_reducible apply onLink_within
    with_reducible exact sub_of hc (by decide)
    with_reducible assumption
  clear_value a7
  split
  with_reducible apply sendAck_within
  with_reducible exact sub_of hc (by decide)
  with_reducible apply settleGrants_within
  with_reducible exact sub_of hc (by decide)
  with_reducible refine within_of_pair (by assumption) ?_
  with_reducible apply parseTokens_within
  with_reducible exact sub_of hc (by decide)
  with_reducible assumption
  with_reducible apply retrain_within
  with_reducible exact sub_of hc (by decide)
  with_reducible apply onLink_within
  with_reducible exact sub_of hc (by decide)
  with_reducible apply State.bump_within
  with_reducible exact sub_of hc (by decide)
  with_reducible refine within_of_pair (by assumption) ?_
  with_reducible apply parseTokens_within
  with_reducible exact sub_of hc (by decide)
  with_reducible assumption

theorem receiveParcel_within {cs : List Part} {r : State} (m : Nat) (p : Sys2Proof.Parcel) (s : State) (hc : subParts [.drowse, .busy, .live, .endpoint, .results, .buckets, .links, .slots, .headgate, .out] cs = true) (h : Within cs r s) : Within cs r (receiveParcel m p s) := by
  delta receiveParcel
  with_reducible refine within_ite (fun _ => ?_) (fun _ => ?_)
  with_reducible assumption
  with_reducible refine within_ite (fun _ => ?_) (fun _ => ?_)
  with_reducible apply sendNak_within
  with_reducible exact sub_of hc (by decide)
  with_reducible apply State.bump_within
  with_reducible exact sub_of hc (by decide)
  with_reducible assumption
  with_reducible refine within_ite (fun _ => ?_) (fun _ => ?_)
  with_reducible apply sendNak_within
  with_reducible exact sub_of hc (by decide)
  with_reducible apply State.bump_within
  with_reducible exact sub_of hc (by decide)
  with_reducible assumption
  extract_lets a10 a11 a12
  have e_a10 : Within cs r a10 := by
    unfold a10
    with_reducible apply takeAck_within
    with_reducible exact sub_of hc (by decide)
    with_reducible assumption
  clear_value a10
  with_reducible refine within_ite (fun _ => ?_) (fun _ => ?_)
  with_reducible assumption
  with_reducible refine within_ite (fun _ => ?_) (fun _ => ?_)
  with_reducible apply takeData_within
  with_reducible exact sub_of hc (by decide)
  with_reducible assumption
  with_reducible refine within_ite (fun _ => ?_) (fun _ => ?_)
  with_reducible apply sendAck_within
  with_reducible exact sub_of hc (by decide)
  with_reducible apply State.bump_within
  with_reducible exact sub_of hc (by decide)
  with_reducible assumption
  with_reducible apply sendNak_within
  with_reducible exact sub_of hc (by decide)
  with_reducible apply State.bump_within
  with_reducible exact sub_of hc (by decide)
  with_reducible assumption

theorem execDataParcelReceived_within {cs : List Part} {r : State} (link : Nat) (p : Sys2Proof.Parcel) (s : State)
    (hc : subParts [.drowse, .busy, .live, .endpoint, .results, .buckets, .links, .slots, .headgate, .out] cs = true) (h : Within cs r s) : ResultWithin cs r (execDataParcelReceived link p s) := by
  delta execDataParcelReceived
  with_reducible apply within_onUnit
  with_reducible apply receiveParcel_within
  with_reducible exact sub_of hc (by decide)
  with_reducible assumption

theorem execNullParcelReceived_within {cs : List Part} {r : State} (link : Nat) (p : Sys2Proof.Parcel) (s : State)
    (hc : subParts [.drowse, .busy, .live, .endpoint, .results, .buckets, .links, .slots, .headgate, .out] cs = true) (h : Within cs r s) : ResultWithin cs r (execNullParcelReceived link p s) := by
  delta execNullParcelReceived
  with_reducible apply within_onUnit
  with_reducible apply receiveParcel_within
  with_reducible exact sub_of hc (by decide)
  with_reducible assumption

theorem markLate_within {cs : List Part} {r : State} (x : Slot) (s : State) (hc : subParts [.links, .slots, .headgate] cs = true) (h : Within cs r s) : Within cs r (markLate x s) := by
  delta markLate
  with_reducible refine within_ite (fun _ => ?_) (fun _ => ?_)
  with_reducible apply onHeadgate_within
  with_reducible exact sub_of hc (by decide)
  with_reducible assumption
  with_reducible exact fun _ h => h
  with_reducible assumption

theorem measureSpan_within {cs : List Part} {r : State} (x : Slot) (span : Nat) (s : State) (hc : subParts [.live] cs = true) (h : Within cs r s) : Within cs r (measureSpan x span s) := by
  delta measureSpan
  with_reducible refine within_ite (fun _ => ?_) (fun _ => ?_)
  extract_lets a8
  have e_a8 : Within cs r a8 := by
    unfold a8
    with_reducible apply State.peak_within
    with_reducible exact sub_of hc (by decide)
    with_reducible assumption
  clear_value a8
  with_reducible refine within_ite (fun _ => ?_) (fun _ => ?_)
  with_reducible apply State.bump_within
  with_reducible exact sub_of hc (by decide)
  with_reducible assumption
  with_reducible assumption
  with_reducible assumption

theorem countResult_within {cs : List Part} {r : State} (v : Verdict) (s : State) (hc : subParts [.live] cs = true) (h : Within cs r s) : Within cs r (countResult v s) := by
  delta countResult
  extract_lets a6 a7 a8 a9
  have e_a6 : Within cs r a6 := by
    unfold a6
    split
    with_reducible apply State.bump_within
    with_reducible exact sub_of hc (by decide)
    with_reducible assumption
    with_reducible apply State.bump_within
    with_reducible exact sub_of hc (by decide)
    with_reducible assumption
    with_reducible apply State.bump_within
    with_reducible exact sub_of hc (by decide)
    with_reducible assumption
    with_reducible assumption
  clear_value a6
  have e_a7 : Within cs r a7 := by
    unfold a7
    with_reducible refine within_ite (fun _ => ?_) (fun _ => ?_)
    with_reducible apply State.bump_within
    with_reducible exact sub_of hc (by decide)
    with_reducible assumption
    with_reducible assumption
  clear_value a7
  have e_a8 : Within cs r a8 := by
    unfold a8
    with_reducible refine within_ite (fun _ => ?_) (fun _ => ?_)
    with_reducible apply State.bump_within
    with_reducible exact sub_of hc (by decide)
    with_reducible assumption
    with_reducible assumption
  clear_value a8
  have e_a9 : Within cs r a9 := by
    unfold a9
    with_reducible refine within_ite (fun _ => ?_) (fun _ => ?_)
    with_reducible apply State.bump_within
    with_reducible exact sub_of hc (by decide)
    with_reducible assumption
    with_reducible assumption
  clear_value a9
  with_reducible apply countAuth_within
  with_reducible exact sub_of hc (by decide)
  with_reducible assumption

theorem execResultTokenSend_within {cs : List Part} {r : State} (link : Nat) (cls : Nat) (span : Nat) (s : State)
    (hc : subParts [.live, .keys, .vault, .tally, .endpoint, .rings, .links, .slots, .headgate, .pair, .out] cs = true) (h : Within cs r s) : ResultWithin cs r (execResultTokenSend link cls span s) := by
  delta execResultTokenSend
  with_reducible apply within_onUnit
  split
  extract_lets a14 a15 a16 a17 a18
  have e_a16 : Within cs r a16 := by
    unfold a16
    with_reducible apply countResult_within
    with_reducible exact sub_of hc (by decide)
    with_reducible apply measureSpan_within
    with_reducible exact sub_of hc (by decide)
    with_reducible assumption
  clear_value a16
  have e_a17 : Within cs r a17 := by
    unfold a17
    with_reducible apply markLate_within
    with_reducible exact sub_of hc (by decide)
    with_reducible apply onHeadgate_within
    with_reducible exact sub_of hc (by decide)
    with_reducible assumption
    with_reducible exact fun _ h => h
  clear_value a17
  have e_a18 : Within cs r a18 := by
    unfold a18
    with_reducible refine within_ite (fun _ => ?_) (fun _ => ?_)
    with_reducible apply shareResult_within
    with_reducible exact sub_of hc (by decide)
    with_reducible assumption
    with_reducible assumption
  clear_value a18
  with_reducible refine within_ite (fun _ => ?_) (fun _ => ?_)
  with_reducible assumption
  with_reducible apply slotsReturned_within
  with_reducible exact sub_of hc (by decide)
  with_reducible apply sendTokens_within
  with_reducible exact sub_of hc (by decide)
  with_reducible assumption
  with_reducible assumption

theorem headgateCommitLink_within {cs : List Part} {r : State} (old : SMap Nat) (m : Nat) (s : State) (hc : subParts [.live, .keys, .endpoint, .rings, .links, .slots, .out] cs = true) (h : Within cs r s) : Within cs r (headgateCommitLink old m s) := by
  delta headgateCommitLink
  extract_lets a7 a8 a9 a10 a11
  have e_a9 : Within cs r a9 := by
    unfold a9
    with_reducible refine within_ite (fun _ => ?_) (fun _ => ?_)
    with_reducible apply fillLinkBucket_within
    with_reducible exact sub_of hc (by decide)
    with_reducible assumption
    with_reducible assumption
  clear_value a9
  with_reducible refine within_ite (fun _ => ?_) (fun _ => ?_)
  with_reducible refine within_ite (fun _ => ?_) (fun _ => ?_)
  with_reducible assumption
  with_reducible apply discardHeld_within
  with_reducible exact sub_of hc (by decide)
  with_reducible apply onLink_within
  with_reducible exact sub_of hc (by decide)
  with_reducible assumption
  with_reducible refine within_ite (fun _ => ?_) (fun _ => ?_)
  with_reducible refine within_ite (fun _ => ?_) (fun _ => ?_)
  with_reducible apply startTraining_within
  with_reducible exact sub_of hc (by decide)
  with_reducible apply onLink_within
  with_reducible exact sub_of hc (by decide)
  with_reducible assumption
  with_reducible assumption
  with_reducible refine within_ite (fun _ => ?_) (fun _ => ?_)
  with_reducible apply retrain_within
  with_reducible exact sub_of hc (by decide)
  with_reducible assumption
  with_reducible assumption

theorem headgateCommit_within {cs : List Part} {r : State} (old : SMap Nat) (s : State) (hc : subParts [.live, .keys, .endpoint, .rings, .links, .slots, .out] cs = true) (h : Within cs r s) : Within cs r (headgateCommit old s) := by
  delta headgateCommit
  with_reducible apply settleGrants_within
  with_reducible exact sub_of hc (by decide)
  with_reducible refine within_foldl (fun _ _ _ => ?_) ?_
  with_reducible apply headgateCommitLink_within
  with_reducible exact sub_of hc (by decide)
  with_reducible assumption
  with_reducible assumption

theorem startLinks_within {cs : List Part} {r : State} (s : State) (hc : subParts [.links, .out] cs = true) (h : Within cs r s) : Within cs r (startLinks s) := by
  delta startLinks
  with_reducible refine within_foldl (fun _ _ _ => ?_) ?_
  with_reducible refine within_ite (fun _ => ?_) (fun _ => ?_)
  with_reducible apply startTraining_within
  with_reducible exact sub_of hc (by decide)
  with_reducible apply onLink_within
  with_reducible exact sub_of hc (by decide)
  with_reducible assumption
  with_reducible assumption
  with_reducible assumption

end Sys2Proof.Machine
end

