-- ==== Sys2Proof/Laws/WithinCoherence.lean ====
section
/-! SUPPORT. What each operation of the coherence domain may change, once for each (`<operation>_within`); callers cite these and do not unfold. -/

set_option linter.unusedVariables false
set_option linter.unusedSimpArgs false
namespace Sys2Proof.Machine

theorem tallyLoses_within {cs : List Part} {r : State} (s : State) (hc : subParts [.tally] cs = true) (h : Within cs r s) : Within cs r (tallyLoses s) := by
  delta tallyLoses
  with_reducible refine within_set_tally (sub_of hc (by decide)) ?_
  with_reducible assumption

theorem domainFail_within {cs : List Part} {r : State} (cause : Nat) (unit : Nat) (s : State)
    (hc : subParts [.mode, .faults, .busy, .live, .vault, .tally, .endpoint, .rings, .coh, .results, .buckets, .links, .slots, .headgate, .out] cs = true) (h : Within cs r s) : Within cs r (domainFail cause unit s) := by
  delta domainFail
  with_reducible refine within_ite (fun _ => ?_) (fun _ => ?_)
  with_reducible assumption
  extract_lets a8 a9 a10 a11 a12 a13 a14 a15 a16 a17 a18
  have e_a9 : Within cs r a9 := by
    unfold a9
    with_reducible apply tallyLoses_within
    with_reducible exact sub_of hc (by decide)
    with_reducible assumption
  clear_value a9
  have e_a10 : Within cs r a10 := by
    unfold a10
    with_reducible apply State.put_within
    with_reducible exact sub_of hc (by decide)
    with_reducible assumption
  clear_value a10
  have e_a11 : Within cs r a11 := by
    unfold a11
    with_reducible apply State.put_within
    with_reducible exact sub_of hc (by decide)
    with_reducible assumption
  clear_value a11
  have e_a12 : Within cs r a12 := by
    unfold a12
    with_reducible apply State.setObj_within
    with_reducible exact sub_of hc (by decide)
    with_reducible assumption
  clear_value a12
  have e_a13 : Within cs r a13 := by
    unfold a13
    with_reducible apply State.put_within
    with_reducible exact sub_of hc (by decide)
    with_reducible assumption
  clear_value a13
  have e_a14 : Within cs r a14 := by
    unfold a14
    with_reducible apply onCoh_within
    with_reducible exact sub_of hc (by decide)
    with_reducible assumption
    with_reducible exact fun _ h => h
  clear_value a14
  have e_a16 : Within cs r a16 := by
    unfold a16
    with_reducible apply restartFences_within
    with_reducible exact sub_of hc (by decide)
    with_reducible apply loseExtOps_within
    with_reducible exact sub_of hc (by decide)
    with_reducible refine within_set_results (sub_of hc (by decide)) ?_
    with_reducible assumption
  clear_value a16
  have e_a17 : Within cs r a17 := by
    unfold a17
    with_reducible apply settleMode_within
    with_reducible exact sub_of hc (by decide)
    with_reducible apply settleGrants_within
    with_reducible exact sub_of hc (by decide)
    with_reducible apply releaseContexts_within
    with_reducible exact sub_of hc (by decide)
    with_reducible apply fallbackSlots_within
    with_reducible exact sub_of hc (by decide)
    with_reducible assumption
  clear_value a17
  have e_a18 : Within cs r a18 := by
    unfold a18
    with_reducible apply raiseFault_within
    with_reducible exact sub_of hc (by decide)
    with_reducible assumption
  clear_value a18
  with_reducible refine within_ite (fun _ => ?_) (fun _ => ?_)
  with_reducible apply raiseFault_within
  with_reducible exact sub_of hc (by decide)
  with_reducible assumption
  with_reducible assumption

theorem judgeDomain_within {cs : List Part} {r : State} (s : State) (hc : subParts [.mode, .faults, .busy, .live, .vault, .tally, .endpoint, .rings, .coh, .results, .buckets, .links, .slots, .headgate, .out] cs = true) (h : Within cs r s) : Within cs r (judgeDomain s) := by
  delta judgeDomain
  split
  with_reducible apply domainFail_within
  with_reducible exact sub_of hc (by decide)
  with_reducible assumption
  with_reducible assumption

theorem agentLeaves_within {cs : List Part} {r : State} (agent : Nat) (s : State)
    (hc : subParts [.mode, .faults, .busy, .live, .vault, .tally, .endpoint, .rings, .coh, .results, .buckets, .links, .slots, .headgate, .out] cs = true) (h : Within cs r s) : Within cs r (agentLeaves agent s) := by
  delta agentLeaves
  with_reducible refine within_ite (fun _ => ?_) (fun _ => ?_)
  with_reducible apply judgeDomain_within
  with_reducible exact sub_of hc (by decide)
  with_reducible apply leaveDomain_within
  with_reducible exact sub_of hc (by decide)
  with_reducible assumption
  with_reducible assumption

theorem poisonMessage_within {cs : List Part} {r : State} (found : Nat) (m : Msg) (s : State) (hc : subParts [.live] cs = true) (h : Within cs r s) : PairWithin cs r (poisonMessage found m s) := by
  delta poisonMessage
  with_reducible refine pairWithin_ite (fun _ => ?_) (fun _ => ?_)
  with_reducible refine within_mkP ?_
  with_reducible assumption
  with_reducible refine within_mkP ?_
  with_reducible apply countPoison_within
  with_reducible exact sub_of hc (by decide)
  with_reducible assumption

theorem poisonCopy_within {cs : List Part} {r : State} (found : Nat) (agent : Nat) (line : Nat) (s : State) (hc : subParts [.live, .coh] cs = true) (h : Within cs r s) : Within cs r (poisonCopy found agent line s) := by
  delta poisonCopy
  split
  with_reducible refine within_ite (fun _ => ?_) (fun _ => ?_)
  with_reducible apply countPoison_within
  with_reducible exact sub_of hc (by decide)
  with_reducible apply putLine_within
  with_reducible exact sub_of hc (by decide)
  with_reducible assumption
  with_reducible assumption
  with_reducible assumption

theorem agentLine_within {cs : List Part} {r : State} (agent : Nat) (line : Nat) (s : State) (hc : subParts [] cs = true) (h : Within cs r s) : ResultWithin cs r (agentLine agent line s) := by
  delta agentLine
  with_reducible apply within_onUnit
  with_reducible assumption

theorem agentRow_within {cs : List Part} {r : State} (agent : Nat) (line : Nat) (found : Nat) (f : State → State) (s : State)
    (hc : subParts [.mode, .faults, .busy, .live, .vault, .tally, .endpoint, .rings, .coh, .results, .buckets, .links, .slots, .headgate, .out] cs = true) (h : Within cs r s) (hf : ∀ t, Within cs r t → Within cs r (f t)) : ResultWithin cs r (agentRow agent line found f s) := by
  delta agentRow
  with_reducible apply agentLine_within
  with_reducible exact sub_of hc (by decide)
  with_reducible refine within_ite (fun _ => ?_) (fun _ => ?_)
  with_reducible assumption
  with_reducible refine within_ite (fun _ => ?_) (fun _ => ?_)
  with_reducible apply domainFail_within
  with_reducible exact sub_of hc (by decide)
  with_reducible assumption
  with_reducible apply judgeDomain_within
  with_reducible exact sub_of hc (by decide)
  with_reducible refine hf _ ?_
  with_reducible assumption

theorem snoopRow_within {cs : List Part} {r : State} (agent : Nat) (line : Nat) (kind : MsgKind) (requester : Option Nat) (found : Nat) (s : State)
    (hc : subParts [.mode, .faults, .busy, .live, .vault, .tally, .endpoint, .rings, .coh, .results, .buckets, .links, .slots, .headgate, .out] cs = true) (h : Within cs r s) : ResultWithin cs r (snoopRow agent line kind requester found s) := by
  delta snoopRow
  with_reducible apply agentRow_within
  with_reducible exact sub_of hc (by decide)
  with_reducible assumption
  with_reducible intro _ _
  split
  with_reducible apply deliver_within
  with_reducible exact sub_of hc (by decide)
  with_reducible apply poisonCopy_within
  with_reducible exact sub_of hc (by decide)
  with_reducible assumption
  split
  with_reducible apply illegalAt_within
  with_reducible exact sub_of hc (by decide)
  with_reducible assumption
  with_reducible apply illegalAt_within
  with_reducible exact sub_of hc (by decide)
  with_reducible assumption
  with_reducible apply illegalAt_within
  with_reducible exact sub_of hc (by decide)
  with_reducible assumption
  with_reducible assumption

theorem arrivalRow_within {cs : List Part} {r : State} (agent : Nat) (line : Nat) (p : MsgKind → Bool) (found : Nat) (s : State)
    (hc : subParts [.mode, .faults, .busy, .live, .vault, .tally, .endpoint, .rings, .coh, .results, .buckets, .links, .slots, .headgate, .out] cs = true) (h : Within cs r s) : ResultWithin cs r (arrivalRow agent line p found s) := by
  delta arrivalRow
  with_reducible apply agentRow_within
  with_reducible exact sub_of hc (by decide)
  with_reducible assumption
  with_reducible intro _ _
  split
  extract_lets a16
  have e_a16 : Within cs r a16 := by
    unfold a16
    with_reducible apply onCoh_within
    with_reducible exact sub_of hc (by decide)
    with_reducible assumption
    with_reducible exact fun _ h => h
  clear_value a16
  split
  with_reducible apply takeMessage_within
  with_reducible exact sub_of hc (by decide)
  with_reducible refine within_of_pair (by assumption) ?_
  with_reducible apply poisonMessage_within
  with_reducible exact sub_of hc (by decide)
  with_reducible assumption
  with_reducible refine within_ite (fun _ => ?_) (fun _ => ?_)
  with_reducible assumption
  with_reducible apply illegalAt_within
  with_reducible exact sub_of hc (by decide)
  with_reducible assumption

theorem execSnpData_within {cs : List Part} {r : State} (agent : Nat) (at_ : Sys2Proof.LineRead) (requester : Nat) (s : State)
    (hc : subParts [.mode, .faults, .busy, .live, .vault, .tally, .endpoint, .rings, .coh, .results, .buckets, .links, .slots, .headgate, .out] cs = true) (h : Within cs r s) : ResultWithin cs r (execSnpData agent at_ requester s) := by
  delta execSnpData
  with_reducible apply snoopRow_within
  with_reducible exact sub_of hc (by decide)
  with_reducible assumption

theorem execSnpOwn_within {cs : List Part} {r : State} (agent : Nat) (at_ : Sys2Proof.LineRead) (requester : Nat) (s : State)
    (hc : subParts [.mode, .faults, .busy, .live, .vault, .tally, .endpoint, .rings, .coh, .results, .buckets, .links, .slots, .headgate, .out] cs = true) (h : Within cs r s) : ResultWithin cs r (execSnpOwn agent at_ requester s) := by
  delta execSnpOwn
  with_reducible apply snoopRow_within
  with_reducible exact sub_of hc (by decide)
  with_reducible assumption

theorem execSnpInv_within {cs : List Part} {r : State} (agent : Nat) (at_ : Sys2Proof.LineRead) (s : State)
    (hc : subParts [.mode, .faults, .busy, .live, .vault, .tally, .endpoint, .rings, .coh, .results, .buckets, .links, .slots, .headgate, .out] cs = true) (h : Within cs r s) : ResultWithin cs r (execSnpInv agent at_ s) := by
  delta execSnpInv
  with_reducible apply snoopRow_within
  with_reducible exact sub_of hc (by decide)
  with_reducible assumption

theorem execSnpRecall_within {cs : List Part} {r : State} (agent : Nat) (at_ : Sys2Proof.LineRead) (backInv : Bool) (s : State)
    (hc : subParts [.mode, .faults, .busy, .live, .vault, .tally, .endpoint, .rings, .coh, .results, .buckets, .links, .slots, .headgate, .out] cs = true) (h : Within cs r s) : ResultWithin cs r (execSnpRecall agent at_ backInv s) := by
  delta execSnpRecall
  with_reducible apply snoopRow_within
  with_reducible exact sub_of hc (by decide)
  with_reducible assumption

theorem execDataFwd_within {cs : List Part} {r : State} (agent : Nat) (at_ : Sys2Proof.LineRead) (s : State)
    (hc : subParts [.mode, .faults, .busy, .live, .vault, .tally, .endpoint, .rings, .coh, .results, .buckets, .links, .slots, .headgate, .out] cs = true) (h : Within cs r s) : ResultWithin cs r (execDataFwd agent at_ s) := by
  delta execDataFwd
  with_reducible apply arrivalRow_within
  with_reducible exact sub_of hc (by decide)
  with_reducible assumption

theorem execDataH_within {cs : List Part} {r : State} (agent : Nat) (at_ : Sys2Proof.LineRead) (s : State)
    (hc : subParts [.mode, .faults, .busy, .live, .vault, .tally, .endpoint, .rings, .coh, .results, .buckets, .links, .slots, .headgate, .out] cs = true) (h : Within cs r s) : ResultWithin cs r (execDataH agent at_ s) := by
  delta execDataH
  with_reducible apply arrivalRow_within
  with_reducible exact sub_of hc (by decide)
  with_reducible assumption

theorem execGrant_within {cs : List Part} {r : State} (agent : Nat) (line : Nat) (s : State)
    (hc : subParts [.mode, .faults, .busy, .live, .vault, .tally, .endpoint, .rings, .coh, .results, .buckets, .links, .slots, .headgate, .out] cs = true) (h : Within cs r s) : ResultWithin cs r (execGrant agent line s) := by
  delta execGrant
  with_reducible apply arrivalRow_within
  with_reducible exact sub_of hc (by decide)
  with_reducible assumption

theorem execHoldEnd_within {cs : List Part} {r : State} (agent : Nat) (line : Nat) (s : State)
    (hc : subParts [.mode, .faults, .busy, .live, .vault, .tally, .endpoint, .rings, .coh, .results, .buckets, .links, .slots, .headgate, .out] cs = true) (h : Within cs r s) : ResultWithin cs r (execHoldEnd agent line s) := by
  delta execHoldEnd
  with_reducible apply agentRow_within
  with_reducible exact sub_of hc (by decide)
  with_reducible assumption
  with_reducible intro _ _
  with_reducible apply endHold_within
  with_reducible exact sub_of hc (by decide)
  with_reducible assumption

theorem execCapacityEviction_within {cs : List Part} {r : State} (agent : Nat) (at_ : Sys2Proof.LineRead) (s : State)
    (hc : subParts [.mode, .faults, .busy, .live, .vault, .tally, .endpoint, .rings, .coh, .results, .buckets, .links, .slots, .headgate, .out] cs = true) (h : Within cs r s) : ResultWithin cs r (execCapacityEviction agent at_ s) := by
  delta execCapacityEviction
  with_reducible apply agentRow_within
  with_reducible exact sub_of hc (by decide)
  with_reducible assumption
  with_reducible intro _ _
  split
  with_reducible refine within_ite (fun _ => ?_) (fun _ => ?_)
  with_reducible assumption
  with_reducible apply evict_within
  with_reducible exact sub_of hc (by decide)
  with_reducible apply poisonCopy_within
  with_reducible exact sub_of hc (by decide)
  with_reducible assumption
  with_reducible assumption

theorem execEvAck_within {cs : List Part} {r : State} (agent : Nat) (line : Nat) (s : State)
    (hc : subParts [.mode, .faults, .busy, .live, .vault, .tally, .endpoint, .rings, .coh, .results, .buckets, .links, .slots, .headgate, .out] cs = true) (h : Within cs r s) : ResultWithin cs r (execEvAck agent line s) := by
  delta execEvAck
  with_reducible apply agentRow_within
  with_reducible exact sub_of hc (by decide)
  with_reducible assumption
  with_reducible intro _ _
  split
  with_reducible apply deliver_within
  with_reducible exact sub_of hc (by decide)
  with_reducible assumption
  with_reducible refine within_ite (fun _ => ?_) (fun _ => ?_)
  with_reducible assumption
  with_reducible apply illegalAt_within
  with_reducible exact sub_of hc (by decide)
  with_reducible assumption

theorem execRds_within {cs : List Part} {r : State} (agent : Nat) (line : Nat) (s : State)
    (hc : subParts [.mode, .faults, .busy, .live, .vault, .tally, .endpoint, .rings, .coh, .results, .buckets, .links, .slots, .headgate, .out] cs = true) (h : Within cs r s) : ResultWithin cs r (execRds agent line s) := by
  delta execRds
  with_reducible apply agentRow_within
  with_reducible exact sub_of hc (by decide)
  with_reducible assumption
  with_reducible intro _ _
  split
  with_reducible apply sendReq_within
  with_reducible exact sub_of hc (by decide)
  with_reducible refine within_of_some (by assumption) ?_
  with_reducible apply startFetch_within
  with_reducible exact sub_of hc (by decide)
  with_reducible assumption
  with_reducible assumption

theorem execRdo_within {cs : List Part} {r : State} (agent : Nat) (line : Nat) (s : State)
    (hc : subParts [.mode, .faults, .busy, .live, .vault, .tally, .endpoint, .rings, .coh, .results, .buckets, .links, .slots, .headgate, .out] cs = true) (h : Within cs r s) : ResultWithin cs r (execRdo agent line s) := by
  delta execRdo
  with_reducible apply agentRow_within
  with_reducible exact sub_of hc (by decide)
  with_reducible assumption
  with_reducible intro _ _
  with_reducible refine within_ite (fun _ => ?_) (fun _ => ?_)
  with_reducible assumption
  split
  with_reducible refine within_ite (fun _ => ?_) (fun _ => ?_)
  with_reducible apply putLine_within
  with_reducible exact sub_of hc (by decide)
  with_reducible assumption
  with_reducible assumption
  split
  with_reducible apply sendReq_within
  with_reducible exact sub_of hc (by decide)
  with_reducible refine within_of_some (by assumption) ?_
  with_reducible apply startFetch_within
  with_reducible exact sub_of hc (by decide)
  with_reducible assumption
  with_reducible assumption

theorem execUpg_within {cs : List Part} {r : State} (agent : Nat) (line : Nat) (s : State)
    (hc : subParts [.mode, .faults, .busy, .live, .vault, .tally, .endpoint, .rings, .coh, .results, .buckets, .links, .slots, .headgate, .out] cs = true) (h : Within cs r s) : ResultWithin cs r (execUpg agent line s) := by
  delta execUpg
  with_reducible apply agentRow_within
  with_reducible exact sub_of hc (by decide)
  with_reducible assumption
  with_reducible intro _ _
  with_reducible refine within_ite (fun _ => ?_) (fun _ => ?_)
  with_reducible assumption
  split
  with_reducible refine within_ite (fun _ => ?_) (fun _ => ?_)
  with_reducible apply sendReq_within
  with_reducible exact sub_of hc (by decide)
  with_reducible apply putLine_within
  with_reducible exact sub_of hc (by decide)
  with_reducible assumption
  with_reducible assumption
  with_reducible assumption

theorem requesterLine_within {cs : List Part} {r : State} (req : Nat) (line : Nat) (s : State) (hc : subParts [] cs = true) (h : Within cs r s) : ResultWithin cs r (requesterLine req line s) := by
  delta requesterLine
  with_reducible apply within_onUnit
  with_reducible assumption

theorem execRdh_within {cs : List Part} {r : State} (req : Nat) (line : Nat) (mask : Nat) (s : State)
    (hc : subParts [.mode, .faults, .busy, .live, .vault, .tally, .endpoint, .rings, .coh, .results, .buckets, .links, .slots, .headgate, .out] cs = true) (h : Within cs r s) : ResultWithin cs r (execRdh req line mask s) := by
  delta execRdh
  with_reducible apply within_onUnit
  with_reducible refine within_ite (fun _ => ?_) (fun _ => ?_)
  with_reducible apply judgeDomain_within
  with_reducible exact sub_of hc (by decide)
  with_reducible apply sendReq_within
  with_reducible exact sub_of hc (by decide)
  with_reducible assumption
  with_reducible assumption

theorem execWrh_within {cs : List Part} {r : State} (req : Nat) (line : Nat) (mask : Nat) (data : List Nat) (s : State)
    (hc : subParts [.mode, .faults, .busy, .live, .vault, .tally, .endpoint, .rings, .coh, .results, .buckets, .links, .slots, .headgate, .out] cs = true) (h : Within cs r s) : ResultWithin cs r (execWrh req line mask data s) := by
  delta execWrh
  with_reducible apply within_onUnit
  with_reducible refine within_ite (fun _ => ?_) (fun _ => ?_)
  with_reducible apply judgeDomain_within
  with_reducible exact sub_of hc (by decide)
  with_reducible apply sendReq_within
  with_reducible exact sub_of hc (by decide)
  with_reducible assumption
  with_reducible assumption

theorem execAtm_within {cs : List Part} {r : State} (req : Nat) (at_ : Sys2Proof.GranuleAt) (op : Sys2Proof.Atom) (s : State)
    (hc : subParts [.mode, .faults, .busy, .live, .vault, .tally, .endpoint, .rings, .coh, .results, .buckets, .links, .slots, .headgate, .out] cs = true) (h : Within cs r s) : ResultWithin cs r (execAtm req at_ op s) := by
  delta execAtm
  with_reducible apply within_onUnit
  with_reducible refine within_ite (fun _ => ?_) (fun _ => ?_)
  with_reducible apply judgeDomain_within
  with_reducible exact sub_of hc (by decide)
  with_reducible apply sendReq_within
  with_reducible exact sub_of hc (by decide)
  with_reducible assumption
  with_reducible assumption

theorem homeRow_within {cs : List Part} {r : State} (agent : Nat) (line : Nat) (found : Nat) (f : State → State) (s : State)
    (hc : subParts [.mode, .faults, .busy, .live, .vault, .tally, .endpoint, .rings, .coh, .results, .buckets, .links, .slots, .headgate, .out] cs = true) (h : Within cs r s) (hf : ∀ t, Within cs r t → Within cs r (f t)) : ResultWithin cs r (homeRow agent line found f s) := by
  delta homeRow
  with_reducible apply agentLine_within
  with_reducible exact sub_of hc (by decide)
  with_reducible refine within_ite (fun _ => ?_) (fun _ => ?_)
  with_reducible assumption
  with_reducible refine within_ite (fun _ => ?_) (fun _ => ?_)
  with_reducible apply domainFail_within
  with_reducible exact sub_of hc (by decide)
  with_reducible assumption
  with_reducible apply judgeDomain_within
  with_reducible exact sub_of hc (by decide)
  with_reducible refine hf _ ?_
  with_reducible assumption

theorem homeTakes_within {cs : List Part} {r : State} (agent : Nat) (line : Nat) (kind : MsgKind) (found : Nat) (none_ : State → State) (s : State)
    (hc : subParts [.live, .coh] cs = true) (h : Within cs r s) (hf : ∀ t, Within cs r t → Within cs r (none_ t)) : Within cs r (homeTakes agent line kind found none_ s) := by
  delta homeTakes
  split
  extract_lets a16
  have e_a16 : Within cs r a16 := by
    unfold a16
    with_reducible apply onCoh_within
    with_reducible exact sub_of hc (by decide)
    with_reducible assumption
    with_reducible exact fun _ h => h
  clear_value a16
  split
  with_reducible apply landMsg_within
  with_reducible exact sub_of hc (by decide)
  with_reducible refine within_of_pair (by assumption) ?_
  with_reducible apply poisonMessage_within
  with_reducible exact sub_of hc (by decide)
  with_reducible assumption
  with_reducible refine hf _ ?_
  with_reducible assumption

theorem evictionRow_within {cs : List Part} {r : State} (kind : MsgKind) (agent : Nat) (line : Nat) (found : Nat) (s : State)
    (hc : subParts [.mode, .faults, .busy, .live, .vault, .tally, .endpoint, .rings, .coh, .results, .buckets, .links, .slots, .headgate, .out] cs = true) (h : Within cs r s) : ResultWithin cs r (evictionRow kind agent line found s) := by
  delta evictionRow
  with_reducible apply homeRow_within
  with_reducible exact sub_of hc (by decide)
  with_reducible assumption
  with_reducible intro _ _
  with_reducible apply homeTakes_within
  with_reducible exact sub_of hc (by decide)
  with_reducible assumption
  with_reducible intro _ _
  split
  with_reducible refine within_ite (fun _ => ?_) (fun _ => ?_)
  with_reducible assumption
  with_reducible apply illegalAt_within
  with_reducible exact sub_of hc (by decide)
  with_reducible assumption
  with_reducible apply illegalAt_within
  with_reducible exact sub_of hc (by decide)
  with_reducible assumption

theorem execWbd_within {cs : List Part} {r : State} (agent : Nat) (at_ : Sys2Proof.LineRead) (s : State)
    (hc : subParts [.mode, .faults, .busy, .live, .vault, .tally, .endpoint, .rings, .coh, .results, .buckets, .links, .slots, .headgate, .out] cs = true) (h : Within cs r s) : ResultWithin cs r (execWbd agent at_ s) := by
  delta execWbd
  with_reducible apply evictionRow_within
  with_reducible exact sub_of hc (by decide)
  with_reducible assumption

theorem execEvc_within {cs : List Part} {r : State} (agent : Nat) (line : Nat) (s : State)
    (hc : subParts [.mode, .faults, .busy, .live, .vault, .tally, .endpoint, .rings, .coh, .results, .buckets, .links, .slots, .headgate, .out] cs = true) (h : Within cs r s) : ResultWithin cs r (execEvc agent line s) := by
  delta execEvc
  with_reducible apply evictionRow_within
  with_reducible exact sub_of hc (by decide)
  with_reducible assumption

theorem execCmp_within {cs : List Part} {r : State} (agent : Nat) (line : Nat) (s : State)
    (hc : subParts [.mode, .faults, .busy, .live, .vault, .tally, .endpoint, .rings, .coh, .results, .buckets, .links, .slots, .headgate, .out] cs = true) (h : Within cs r s) : ResultWithin cs r (execCmp agent line s) := by
  delta execCmp
  with_reducible apply homeRow_within
  with_reducible exact sub_of hc (by decide)
  with_reducible assumption
  with_reducible intro _ _
  with_reducible apply homeTakes_within
  with_reducible exact sub_of hc (by decide)
  with_reducible assumption
  with_reducible intro _ _
  with_reducible refine within_ite (fun _ => ?_) (fun _ => ?_)
  with_reducible assumption
  with_reducible apply illegalAt_within
  with_reducible exact sub_of hc (by decide)
  with_reducible assumption

theorem responseRow_within {cs : List Part} {r : State} (kind : MsgKind) (agent : Nat) (line : Nat) (found : Nat) (s : State)
    (hc : subParts [.mode, .faults, .busy, .live, .vault, .tally, .endpoint, .rings, .coh, .results, .buckets, .links, .slots, .headgate, .out] cs = true) (h : Within cs r s) : ResultWithin cs r (responseRow kind agent line found s) := by
  delta responseRow
  with_reducible apply homeRow_within
  with_reducible exact sub_of hc (by decide)
  with_reducible assumption
  with_reducible intro _ _
  with_reducible apply homeTakes_within
  with_reducible exact sub_of hc (by decide)
  with_reducible assumption
  with_reducible intro _ _
  with_reducible refine within_ite (fun _ => ?_) (fun _ => ?_)
  with_reducible assumption
  with_reducible apply illegalAt_within
  with_reducible exact sub_of hc (by decide)
  with_reducible assumption

theorem execRspI_within {cs : List Part} {r : State} (agent : Nat) (line : Nat) (s : State)
    (hc : subParts [.mode, .faults, .busy, .live, .vault, .tally, .endpoint, .rings, .coh, .results, .buckets, .links, .slots, .headgate, .out] cs = true) (h : Within cs r s) : ResultWithin cs r (execRspI agent line s) := by
  delta execRspI
  with_reducible apply responseRow_within
  with_reducible exact sub_of hc (by decide)
  with_reducible assumption

theorem execRspFwd_within {cs : List Part} {r : State} (agent : Nat) (line : Nat) (s : State)
    (hc : subParts [.mode, .faults, .busy, .live, .vault, .tally, .endpoint, .rings, .coh, .results, .buckets, .links, .slots, .headgate, .out] cs = true) (h : Within cs r s) : ResultWithin cs r (execRspFwd agent line s) := by
  delta execRspFwd
  with_reducible apply responseRow_within
  with_reducible exact sub_of hc (by decide)
  with_reducible assumption

theorem execRspFwdData_within {cs : List Part} {r : State} (agent : Nat) (at_ : Sys2Proof.LineRead) (s : State)
    (hc : subParts [.mode, .faults, .busy, .live, .vault, .tally, .endpoint, .rings, .coh, .results, .buckets, .links, .slots, .headgate, .out] cs = true) (h : Within cs r s) : ResultWithin cs r (execRspFwdData agent at_ s) := by
  delta execRspFwdData
  with_reducible apply responseRow_within
  with_reducible exact sub_of hc (by decide)
  with_reducible assumption

theorem execRspData_within {cs : List Part} {r : State} (agent : Nat) (at_ : Sys2Proof.LineRead) (s : State)
    (hc : subParts [.mode, .faults, .busy, .live, .vault, .tally, .endpoint, .rings, .coh, .results, .buckets, .links, .slots, .headgate, .out] cs = true) (h : Within cs r s) : ResultWithin cs r (execRspData agent at_ s) := by
  delta execRspData
  with_reducible apply responseRow_within
  with_reducible exact sub_of hc (by decide)
  with_reducible assumption

theorem execRspEvInFlight_within {cs : List Part} {r : State} (agent : Nat) (line : Nat) (s : State)
    (hc : subParts [.mode, .faults, .busy, .live, .vault, .tally, .endpoint, .rings, .coh, .results, .buckets, .links, .slots, .headgate, .out] cs = true) (h : Within cs r s) : ResultWithin cs r (execRspEvInFlight agent line s) := by
  delta execRspEvInFlight
  with_reducible apply responseRow_within
  with_reducible exact sub_of hc (by decide)
  with_reducible assumption

theorem execNack_within {cs : List Part} {r : State} (req : Nat) (line : Nat) (s : State) (hc : subParts [.live, .coh] cs = true) (h : Within cs r s) : ResultWithin cs r (execNack req line s) := by
  delta execNack
  with_reducible apply requesterLine_within
  with_reducible exact sub_of hc (by decide)
  with_reducible refine within_ite (fun _ => ?_) (fun _ => ?_)
  with_reducible assumption
  split
  with_reducible apply deliver_within
  with_reducible exact sub_of hc (by decide)
  with_reducible assumption
  with_reducible assumption

theorem execNackRetry_within {cs : List Part} {r : State} (req : Nat) (line : Nat) (s : State)
    (hc : subParts [.mode, .faults, .busy, .live, .vault, .tally, .endpoint, .rings, .coh, .results, .buckets, .links, .slots, .headgate, .out] cs = true) (h : Within cs r s) : ResultWithin cs r (execNackRetry req line s) := by
  delta execNackRetry
  with_reducible apply requesterLine_within
  with_reducible exact sub_of hc (by decide)
  extract_lets a7 a8
  split
  with_reducible assumption
  with_reducible refine within_ite (fun _ => ?_) (fun _ => ?_)
  with_reducible assumption
  with_reducible refine within_ite (fun _ => ?_) (fun _ => ?_)
  with_reducible apply judgeDomain_within
  with_reducible exact sub_of hc (by decide)
  with_reducible apply admitReq_within
  with_reducible exact sub_of hc (by decide)
  with_reducible apply onCoh_within
  with_reducible exact sub_of hc (by decide)
  with_reducible assumption
  with_reducible exact fun _ h => h
  with_reducible apply homeSend_within
  with_reducible exact sub_of hc (by decide)
  with_reducible apply State.bump_within
  with_reducible exact sub_of hc (by decide)
  with_reducible assumption

theorem uncachedRow_within {cs : List Part} {r : State} (req : Nat) (line : Nat) (p : MsgKind → Bool) (s : State) (hc : subParts [.live, .coh] cs = true) (h : Within cs r s) : ResultWithin cs r (uncachedRow req line p s) := by
  delta uncachedRow
  with_reducible apply requesterLine_within
  with_reducible exact sub_of hc (by decide)
  with_reducible refine within_ite (fun _ => ?_) (fun _ => ?_)
  with_reducible assumption
  split
  with_reducible apply deliver_within
  with_reducible exact sub_of hc (by decide)
  with_reducible assumption
  with_reducible assumption

theorem execAtmRsp_within {cs : List Part} {r : State} (req : Nat) (line : Nat) (s : State) (hc : subParts [.live, .coh] cs = true) (h : Within cs r s) : ResultWithin cs r (execAtmRsp req line s) := by
  delta execAtmRsp
  with_reducible apply uncachedRow_within
  with_reducible exact sub_of hc (by decide)
  with_reducible assumption

theorem execWrAck_within {cs : List Part} {r : State} (req : Nat) (line : Nat) (s : State) (hc : subParts [.live, .coh] cs = true) (h : Within cs r s) : ResultWithin cs r (execWrAck req line s) := by
  delta execWrAck
  with_reducible apply uncachedRow_within
  with_reducible exact sub_of hc (by decide)
  with_reducible assumption

theorem execRdRsp_within {cs : List Part} {r : State} (req : Nat) (line : Nat) (s : State) (hc : subParts [.live, .coh] cs = true) (h : Within cs r s) : ResultWithin cs r (execRdRsp req line s) := by
  delta execRdRsp
  with_reducible apply uncachedRow_within
  with_reducible exact sub_of hc (by decide)
  with_reducible assumption

theorem execSnoopTimeout_within {cs : List Part} {r : State} (agent : Nat) (line : Nat) (s : State)
    (hc : subParts [.mode, .faults, .busy, .live, .vault, .tally, .endpoint, .rings, .coh, .results, .buckets, .links, .slots, .headgate, .out] cs = true) (h : Within cs r s) : ResultWithin cs r (execSnoopTimeout agent line s) := by
  delta execSnoopTimeout
  with_reducible apply agentLine_within
  with_reducible exact sub_of hc (by decide)
  with_reducible refine within_ite (fun _ => ?_) (fun _ => ?_)
  with_reducible apply domainFail_within
  with_reducible exact sub_of hc (by decide)
  with_reducible assumption
  with_reducible assumption

theorem execTransactionTimeout_within {cs : List Part} {r : State} (line : Nat) (s : State)
    (hc : subParts [.mode, .faults, .busy, .live, .vault, .tally, .endpoint, .rings, .coh, .results, .buckets, .links, .slots, .headgate, .out] cs = true) (h : Within cs r s) : ResultWithin cs r (execTransactionTimeout line s) := by
  delta execTransactionTimeout
  with_reducible apply within_onUnit
  with_reducible refine within_ite (fun _ => ?_) (fun _ => ?_)
  with_reducible apply domainFail_within
  with_reducible exact sub_of hc (by decide)
  with_reducible assumption
  with_reducible assumption

theorem readCheckpointLines_within {cs : List Part} {r : State} (s : State) (hc : subParts [.live, .coh] cs = true) (h : Within cs r s) : Within cs r (readCheckpointLines s) := by
  delta readCheckpointLines
  extract_lets a5 a6
  have e_a6 : Within cs r a6 := by
    unfold a6
    with_reducible refine within_foldl (fun _ _ _ => ?_) ?_
    with_reducible apply readAtHome_within
    with_reducible exact sub_of hc (by decide)
    with_reducible assumption
    with_reducible assumption
  clear_value a6
  with_reducible refine within_foldl (fun _ _ _ => ?_) ?_
  with_reducible apply State.bumpBy_within
  with_reducible exact sub_of hc (by decide)
  with_reducible assumption
  with_reducible assumption

theorem execCheckpoint_within {cs : List Part} {r : State} (s : State) (hc : subParts [.live, .coh] cs = true) (h : Within cs r s) : ResultWithin cs r (execCheckpoint s) := by
  delta execCheckpoint
  with_reducible refine within_next ?_
  with_reducible refine within_ite (fun _ => ?_) (fun _ => ?_)
  with_reducible assumption
  extract_lets a6 a7 a8
  have e_a6 : Within cs r a6 := by
    unfold a6
    with_reducible apply readCheckpointLines_within
    with_reducible exact sub_of hc (by decide)
    with_reducible assumption
  clear_value a6
  have e_a8 : Within cs r a8 := by
    unfold a8
    with_reducible apply onCoh_within
    with_reducible exact sub_of hc (by decide)
    with_reducible assumption
    with_reducible intro _ _
    (split <;> simp_all only [List.length_set, List.length_modify, List.length_map])
  clear_value a8
  with_reducible apply State.bump_within
  with_reducible exact sub_of hc (by decide)
  with_reducible apply State.put_within
  with_reducible exact sub_of hc (by decide)
  with_reducible assumption

theorem endRestart_within {cs : List Part} {r : State} (s : State) (hc : subParts [.mode, .faults, .busy, .live, .keys, .vault, .tally, .endpoint, .rings, .coh, .out] cs = true) (h : Within cs r s) : Within cs r (endRestart s) := by
  delta endRestart
  with_reducible refine within_ite (fun _ => ?_) (fun _ => ?_)
  with_reducible assumption
  extract_lets a6 a7 a8 a9 a10 a11 a12 a13 a14 a15
  have e_a8 : Within cs r a8 := by
    unfold a8
    with_reducible apply onCoh_within
    with_reducible exact sub_of hc (by decide)
    with_reducible assumption
    with_reducible exact fun _ h => h
  clear_value a8
  have e_a9 : Within cs r a9 := by
    unfold a9
    with_reducible apply State.put_within
    with_reducible exact sub_of hc (by decide)
    with_reducible apply State.put_within
    with_reducible exact sub_of hc (by decide)
    with_reducible assumption
  clear_value a9
  have e_a10 : Within cs r a10 := by
    unfold a10
    with_reducible apply State.put_within
    with_reducible exact sub_of hc (by decide)
    with_reducible assumption
  clear_value a10
  have e_a11 : Within cs r a11 := by
    unfold a11
    with_reducible apply State.put_within
    with_reducible exact sub_of hc (by decide)
    with_reducible assumption
  clear_value a11
  have e_a12 : Within cs r a12 := by
    unfold a12
    with_reducible apply State.bump_within
    with_reducible exact sub_of hc (by decide)
    with_reducible assumption
  clear_value a12
  have e_a13 : Within cs r a13 := by
    unfold a13
    with_reducible apply journalWaiting_within
    with_reducible exact sub_of hc (by decide)
    with_reducible assumption
  clear_value a13
  have e_a14 : Within cs r a14 := by
    unfold a14
    with_reducible apply journal_within
    with_reducible exact sub_of hc (by decide)
    with_reducible assumption
  clear_value a14
  have e_a15 : Within cs r a15 := by
    unfold a15
    with_reducible apply clearFault_within
    with_reducible exact sub_of hc (by decide)
    with_reducible apply settleMode_within
    with_reducible exact sub_of hc (by decide)
    with_reducible assumption
  clear_value a15
  with_reducible apply settleFences_within
  with_reducible exact sub_of hc (by decide)
  with_reducible assumption

end Sys2Proof.Machine
end

