-- ==== Sys2Proof/Laws/WithinCare.lean ====
section
/-! SUPPORT. What each operation of recovery, integrity, tamper, commits and keys may change, once for each (`<operation>_within`); callers cite these and do not unfold. -/

set_option linter.unusedVariables false
set_option linter.unusedSimpArgs false
namespace Sys2Proof.Machine

theorem moveRings_within {cs : List Part} {r : State} (s : State) (hc : subParts [.live] cs = true) (h : Within cs r s) : Within cs r (moveRings s) := by
  delta moveRings
  with_reducible refine within_foldl (fun _ _ _ => ?_) ?_
  with_reducible apply State.setObj_within
  with_reducible exact sub_of hc (by decide)
  with_reducible assumption
  with_reducible assumption

theorem stopLink_within {cs : List Part} {r : State} (m : Nat) (s : State) (hc : subParts [.live, .keys, .endpoint, .rings, .links, .slots, .out] cs = true) (h : Within cs r s) : Within cs r (stopLink m s) := by
  delta stopLink
  extract_lets a6 a7 a8
  have e_a8 : Within cs r a8 := by
    unfold a8
    with_reducible apply discardAll_within
    with_reducible exact sub_of hc (by decide)
    with_reducible assumption
  clear_value a8
  with_reducible refine within_ite (fun _ => ?_) (fun _ => ?_)
  with_reducible assumption
  with_reducible refine within_ite (fun _ => ?_) (fun _ => ?_)
  with_reducible apply linkDown_within
  with_reducible exact sub_of hc (by decide)
  with_reducible assumption
  with_reducible apply onLink_within
  with_reducible exact sub_of hc (by decide)
  with_reducible assumption

theorem chainDown_within {cs : List Part} {r : State} (s : State) (hc : subParts [.faults, .live, .endpoint, .out] cs = true) (h : Within cs r s) : Within cs r (chainDown s) := by
  delta chainDown
  with_reducible refine within_ite (fun _ => ?_) (fun _ => ?_)
  with_reducible assumption
  with_reducible apply raiseFault_within
  with_reducible exact sub_of hc (by decide)
  with_reducible apply vector_within
  with_reducible exact sub_of hc (by decide)
  with_reducible apply State.put_within
  with_reducible exact sub_of hc (by decide)
  with_reducible assumption

theorem enterHalt_within {cs : List Part} {r : State} (code : Nat) (detail : Nat) (s : State)
    (hc : subParts [.modes, .mode, .faults, .busy, .live, .keys, .vault, .flash, .tally, .sluice, .endpoint, .rings, .scratch, .integ, .links, .slots, .chain, .fresh, .out] cs = true) (h : Within cs r s) : Within cs r (enterHalt code detail s) := by
  delta enterHalt
  with_reducible refine within_ite (fun _ => ?_) (fun _ => ?_)
  with_reducible apply raiseFault_within
  with_reducible exact sub_of hc (by decide)
  with_reducible assumption
  extract_lets a8 a9 a10 a11 a12 a13 a14 a15 a16
  have e_a10 : Within cs r a10 := by
    unfold a10
    with_reducible refine within_set_modes_halted (sub_of hc (by decide)) ?_
    with_reducible assumption
  clear_value a10
  have e_a11 : Within cs r a11 := by
    unfold a11
    with_reducible apply journalWaiting_within
    with_reducible exact sub_of hc (by decide)
    with_reducible refine within_ite (fun _ => ?_) (fun _ => ?_)
    with_reducible assumption
    with_reducible apply reconcileChain_within
    with_reducible exact sub_of hc (by decide)
    with_reducible assumption
  clear_value a11
  have e_a12 : Within cs r a12 := by
    unfold a12
    with_reducible refine within_foldl (fun _ _ _ => ?_) ?_
    with_reducible apply stopLink_within
    with_reducible exact sub_of hc (by decide)
    with_reducible assumption
    with_reducible assumption
  clear_value a12
  have e_a13 : Within cs r a13 := by
    unfold a13
    with_reducible refine within_ite (fun _ => ?_) (fun _ => ?_)
    with_reducible assumption
    with_reducible apply State.put_within
    with_reducible exact sub_of hc (by decide)
    with_reducible assumption
  clear_value a13
  have e_a15 : Within cs r a15 := by
    unfold a15
    with_reducible refine within_ite (fun _ => ?_) (fun _ => ?_)
    with_reducible assumption
    with_reducible apply chainDown_within
    with_reducible exact sub_of hc (by decide)
    with_reducible refine within_set_chain (sub_of hc (by decide)) ?_
    with_reducible assumption
  clear_value a15
  have e_a16 : Within cs r a16 := by
    unfold a16
    with_reducible apply raiseFault_within
    with_reducible exact sub_of hc (by decide)
    with_reducible apply settleMode_within
    with_reducible exact sub_of hc (by decide)
    with_reducible assumption
  clear_value a16
  with_reducible apply tallyCommit_within
  with_reducible exact sub_of hc (by decide)
  with_reducible apply askSluice_within
  with_reducible exact sub_of hc (by decide)
  with_reducible assumption
  with_reducible intro _ _
  with_reducible apply sluiceHalt_within
  with_reducible exact sub_of hc (by decide)
  with_reducible assumption

theorem endWithErrData_within {cs : List Part} {r : State} (p : Slot → Bool) (s : State) (hc : subParts [.live, .endpoint, .buckets, .links, .slots, .headgate, .out] cs = true) (h : Within cs r s) : Within cs r (endWithErrData p s) := by
  delta endWithErrData
  with_reducible apply releaseContexts_within
  with_reducible exact sub_of hc (by decide)
  with_reducible refine within_foldl (fun _ _ _ => ?_) ?_
  with_reducible apply underConfig_within
  with_reducible exact sub_of hc (by decide)
  with_reducible assumption
  with_reducible intro _ _
  with_reducible apply finishSearch_within
  with_reducible exact sub_of hc (by decide)
  with_reducible assumption
  with_reducible assumption

theorem quarantineLateral_within {cs : List Part} {r : State} (n : Nat) (s : State)
    (hc : subParts [.mode, .faults, .drowse, .busy, .live, .vault, .tally, .endpoint, .rings, .coh, .results, .buckets, .links, .slots, .headgate, .out] cs = true) (h : Within cs r s) : Within cs r (quarantineLateral n s) := by
  delta quarantineLateral
  extract_lets a6 a7 a8 a9
  have e_a6 : Within cs r a6 := by
    unfold a6
    with_reducible apply endWithErrData_within
    with_reducible exact sub_of hc (by decide)
    with_reducible assumption
  clear_value a6
  have e_a7 : Within cs r a7 := by
    unfold a7
    with_reducible apply onHeadgate_within
    with_reducible exact sub_of hc (by decide)
    with_reducible assumption
    with_reducible exact fun _ h => h
  clear_value a7
  have e_a8 : Within cs r a8 := by
    unfold a8
    with_reducible apply agentLeaves_within
    with_reducible exact sub_of hc (by decide)
    with_reducible assumption
  clear_value a8
  have e_a9 : Within cs r a9 := by
    unfold a9
    with_reducible refine within_ite (fun _ => ?_) (fun _ => ?_)
    with_reducible apply drowseTrigger_within
    with_reducible exact sub_of hc (by decide)
    with_reducible assumption
    with_reducible assumption
  clear_value a9
  with_reducible refine within_ite (fun _ => ?_) (fun _ => ?_)
  with_reducible apply raiseFault_within
  with_reducible exact sub_of hc (by decide)
  with_reducible apply endWithErrData_within
  with_reducible exact sub_of hc (by decide)
  with_reducible assumption
  with_reducible assumption

theorem noticeBank_within {cs : List Part} {r : State} (b : Nat) (s : State) (hc : subParts [.endpoint, .out] cs = true) (h : Within cs r s) : Within cs r (noticeBank b s) := by
  delta noticeBank
  with_reducible refine within_ite (fun _ => ?_) (fun _ => ?_)
  with_reducible apply vector_within
  with_reducible exact sub_of hc (by decide)
  with_reducible assumption
  with_reducible assumption

theorem quarantineUnit_within {cs : List Part} {r : State} (u : Nat) (s : State)
    (hc : subParts [.modes, .mode, .faults, .drowse, .busy, .live, .keys, .vault, .flash, .tally, .sluice, .endpoint, .rings, .scratch, .integ, .coh, .results, .buckets, .links, .slots, .headgate, .chain, .fresh, .out] cs = true) (h : Within cs r s) : Within cs r (quarantineUnit u s) := by
  delta quarantineUnit
  with_reducible refine within_ite (fun _ => ?_) (fun _ => ?_)
  with_reducible assumption
  extract_lets a7 a8 a9
  have e_a7 : Within cs r a7 := by
    unfold a7
    with_reducible apply quarantineMark_within
    with_reducible exact sub_of hc (by decide)
    with_reducible assumption
  clear_value a7
  have e_a8 : Within cs r a8 := by
    unfold a8
    with_reducible refine within_ite (fun _ => ?_) (fun _ => ?_)
    with_reducible apply quarantineLateral_within
    with_reducible exact sub_of hc (by decide)
    with_reducible assumption
    with_reducible refine within_ite (fun _ => ?_) (fun _ => ?_)
    with_reducible apply moveRings_within
    with_reducible exact sub_of hc (by decide)
    with_reducible apply agentLeaves_within
    with_reducible exact sub_of hc (by decide)
    with_reducible assumption
    with_reducible refine within_ite (fun _ => ?_) (fun _ => ?_)
    with_reducible apply noticeBank_within
    with_reducible exact sub_of hc (by decide)
    with_reducible assumption
    with_reducible assumption
  clear_value a8
  have e_a9 : Within cs r a9 := by
    unfold a9
    with_reducible refine within_ite (fun _ => ?_) (fun _ => ?_)
    with_reducible apply enterHalt_within
    with_reducible exact sub_of hc (by decide)
    with_reducible assumption
    with_reducible assumption
  clear_value a9
  with_reducible apply settleGrants_within
  with_reducible exact sub_of hc (by decide)
  with_reducible assumption

theorem execQuarantine_within {cs : List Part} {r : State} (unit : Nat) (s : State)
    (hc : subParts [.modes, .mode, .faults, .drowse, .busy, .live, .keys, .vault, .flash, .tally, .sluice, .endpoint, .rings, .scratch, .integ, .coh, .results, .buckets, .links, .slots, .headgate, .chain, .fresh, .out] cs = true) (h : Within cs r s) : ResultWithin cs r (execQuarantine unit s) := by
  delta execQuarantine
  with_reducible apply within_onUnit
  with_reducible refine within_ite (fun _ => ?_) (fun _ => ?_)
  with_reducible apply quarantineUnit_within
  with_reducible exact sub_of hc (by decide)
  with_reducible assumption
  with_reducible assumption

theorem execMarionetteHeartbeatTimeout_within {cs : List Part} {r : State} (marionette : Nat) (s : State)
    (hc : subParts [.modes, .mode, .faults, .drowse, .busy, .live, .keys, .vault, .flash, .tally, .sluice, .endpoint, .rings, .scratch, .integ, .coh, .results, .buckets, .links, .slots, .headgate, .chain, .fresh, .out] cs = true) (h : Within cs r s) : ResultWithin cs r (execMarionetteHeartbeatTimeout marionette s) := by
  delta execMarionetteHeartbeatTimeout
  with_reducible apply within_onUnit
  with_reducible refine within_ite (fun _ => ?_) (fun _ => ?_)
  with_reducible apply quarantineUnit_within
  with_reducible exact sub_of hc (by decide)
  with_reducible assumption
  with_reducible assumption

theorem onScrub_within {cs : List Part} {r : State} (region : Nat) (f : RegionScrub → RegionScrub) (s : State) (hc : subParts [.integ] cs = true) (h : Within cs r s) : Within cs r (onScrub region f s) := by
  delta onScrub
  with_reducible apply onInteg_within
  with_reducible exact sub_of hc (by decide)
  with_reducible assumption
  with_reducible intro _ _
  simp_all only [List.length_set, List.length_modify, List.length_map]

theorem journalWord_within {cs : List Part} {r : State} (type : Nat) (region : Nat) (word : Nat) (s : State) (hc : subParts [.vault, .tally, .endpoint, .out] cs = true) (h : Within cs r s) : Within cs r (journalWord type region word s) := by
  delta journalWord
  with_reducible refine within_ite (fun _ => ?_) (fun _ => ?_)
  with_reducible apply journal_within
  with_reducible exact sub_of hc (by decide)
  with_reducible assumption
  with_reducible assumption

theorem rewriteSlot_within {cs : List Part} {r : State} (k : Nat) (s : State) (hc : subParts [.live, .tcam] cs = true) (h : Within cs r s) : Within cs r (rewriteSlot k s) := by
  delta rewriteSlot
  with_reducible apply State.bump_within
  with_reducible exact sub_of hc (by decide)
  with_reducible apply State.bump_within
  with_reducible exact sub_of hc (by decide)
  with_reducible apply writeSlot_within
  with_reducible exact sub_of hc (by decide)
  with_reducible assumption

theorem clearPlace_within {cs : List Part} {r : State} (wide : Bool) (p : Nat) (s : State) (hc : subParts [.tcam] cs = true) (h : Within cs r s) : Within cs r (clearPlace wide p s) := by
  delta clearPlace
  with_reducible refine within_foldl (fun _ _ _ => ?_) ?_
  with_reducible apply writeSlot_within
  with_reducible exact sub_of hc (by decide)
  with_reducible assumption
  with_reducible assumption

theorem loseShadow_within {cs : List Part} {r : State} (k : Nat) (s : State) (hc : subParts [.tcam] cs = true) (h : Within cs r s) : Within cs r (loseShadow k s) := by
  delta loseShadow
  split
  with_reducible apply writeSlot_within
  with_reducible exact sub_of hc (by decide)
  with_reducible assumption
  extract_lets a12 a13
  with_reducible apply clearPlace_within
  with_reducible exact sub_of hc (by decide)
  with_reducible apply onTcam_within
  with_reducible exact sub_of hc (by decide)
  with_reducible assumption

theorem reinsert_within {cs : List Part} {r : State} (p : Nat) (s : State) (hc : subParts [.live, .tcam, .chain, .out] cs = true) (h : Within cs r s) : Within cs r (reinsert p s) := by
  delta reinsert
  split
  with_reducible assumption
  extract_lets a11 a12
  split
  with_reducible assumption
  extract_lets a18 a19 a20
  with_reducible refine within_ite (fun _ => ?_) (fun _ => ?_)
  with_reducible assumption
  split
  with_reducible assumption
  with_reducible apply queueWrites_within
  with_reducible exact sub_of hc (by decide)
  with_reducible apply onTcam_within
  with_reducible exact sub_of hc (by decide)
  with_reducible apply State.bumpBy_within
  with_reducible exact sub_of hc (by decide)
  with_reducible assumption

theorem judgeBank_within {cs : List Part} {r : State} (b : Nat) (s : State)
    (hc : subParts [.modes, .mode, .faults, .drowse, .busy, .live, .keys, .vault, .flash, .tally, .sluice, .endpoint, .rings, .scratch, .integ, .coh, .results, .buckets, .links, .slots, .headgate, .chain, .fresh, .out] cs = true) (h : Within cs r s) : Within cs r (judgeBank b s) := by
  delta judgeBank
  extract_lets a6
  with_reducible refine within_ite (fun _ => ?_) (fun _ => ?_)
  with_reducible apply quarantineUnit_within
  with_reducible exact sub_of hc (by decide)
  with_reducible assumption
  with_reducible assumption

theorem loseWord_within {cs : List Part} {r : State} (region : Nat) (word : Nat) (s : State)
    (hc : subParts [.modes, .mode, .faults, .drowse, .busy, .live, .keys, .vault, .flash, .tally, .sluice, .endpoint, .rings, .scratch, .integ, .coh, .results, .buckets, .tcam, .furrow, .links, .slots, .headgate, .chain, .fresh, .out] cs = true) (h : Within cs r s) : Within cs r (loseWord region word s) := by
  delta loseWord
  extract_lets a7 a8 a9 a10 a11 a12 a13 a14 a15
  have e_a7 : Within cs r a7 := by
    unfold a7
    with_reducible apply journalWord_within
    with_reducible exact sub_of hc (by decide)
    with_reducible apply State.bump_within
    with_reducible exact sub_of hc (by decide)
    with_reducible assumption
  clear_value a7
  have e_a9 : Within cs r a9 := by
    unfold a9
    with_reducible apply setFresh_within
    with_reducible exact sub_of hc (by decide)
    with_reducible assumption
  clear_value a9
  with_reducible refine within_ite (fun _ => ?_) (fun _ => ?_)
  with_reducible refine within_set_results (sub_of hc (by decide)) ?_
  with_reducible assumption
  with_reducible refine within_ite (fun _ => ?_) (fun _ => ?_)
  with_reducible refine within_set_results (sub_of hc (by decide)) ?_
  with_reducible assumption
  with_reducible refine within_ite (fun _ => ?_) (fun _ => ?_)
  with_reducible refine within_set_results (sub_of hc (by decide)) ?_
  with_reducible assumption
  with_reducible refine within_ite (fun _ => ?_) (fun _ => ?_)
  with_reducible apply loseShadow_within
  with_reducible exact sub_of hc (by decide)
  with_reducible assumption
  with_reducible refine within_ite (fun _ => ?_) (fun _ => ?_)
  with_reducible apply rewriteSlot_within
  with_reducible exact sub_of hc (by decide)
  with_reducible assumption
  with_reducible refine within_ite (fun _ => ?_) (fun _ => ?_)
  with_reducible refine within_set_furrow (sub_of hc (by decide)) ?_
  with_reducible assumption
  with_reducible refine within_ite (fun _ => ?_) (fun _ => ?_)
  with_reducible refine within_ite (fun _ => ?_) (fun _ => ?_)
  with_reducible assumption
  with_reducible apply onBuckets_within
  with_reducible exact sub_of hc (by decide)
  with_reducible assumption
  with_reducible refine within_ite (fun _ => ?_) (fun _ => ?_)
  with_reducible refine within_ite (fun _ => ?_) (fun _ => ?_)
  with_reducible assumption
  with_reducible apply State.bump_within
  with_reducible exact sub_of hc (by decide)
  with_reducible apply setPoison_within
  with_reducible exact sub_of hc (by decide)
  with_reducible assumption
  with_reducible refine within_ite (fun _ => ?_) (fun _ => ?_)
  with_reducible apply domainFail_within
  with_reducible exact sub_of hc (by decide)
  with_reducible assumption
  with_reducible refine within_ite (fun _ => ?_) (fun _ => ?_)
  with_reducible refine within_ite (fun _ => ?_) (fun _ => ?_)
  with_reducible refine within_set_keys_slots (sub_of hc (by decide)) ?_
  with_reducible assumption
  with_reducible assumption
  with_reducible refine within_ite (fun _ => ?_) (fun _ => ?_)
  split
  with_reducible refine within_ite (fun _ => ?_) (fun _ => ?_)
  with_reducible refine within_set_keys_lost (sub_of hc (by decide)) ?_
  with_reducible assumption
  with_reducible assumption
  with_reducible assumption
  with_reducible refine within_ite (fun _ => ?_) (fun _ => ?_)
  with_reducible apply judgeBank_within
  with_reducible exact sub_of hc (by decide)
  with_reducible apply onScratch_within
  with_reducible exact sub_of hc (by decide)
  with_reducible assumption
  with_reducible exact fun _ h => h
  with_reducible refine within_ite (fun _ => ?_) (fun _ => ?_)
  with_reducible apply quarantineUnit_within
  with_reducible exact sub_of hc (by decide)
  with_reducible assumption
  with_reducible assumption

theorem retireSlot_within {cs : List Part} {r : State} (k : Nat) (s : State) (hc : subParts [.live, .tcam, .chain, .out] cs = true) (h : Within cs r s) : OptWithin cs r (retireSlot k s) := by
  delta retireSlot
  extract_lets a6 a7
  split
  with_reducible refine within_some ?_
  dsimp only [a6]
  with_reducible apply onTcam_within
  with_reducible exact sub_of hc (by decide)
  with_reducible assumption
  split
  with_reducible exact within_none
  extract_lets a15 a16
  split
  with_reducible exact within_none
  split
  with_reducible refine within_some ?_
  with_reducible apply queueWrites_within
  with_reducible exact sub_of hc (by decide)
  dsimp only [a6]
  with_reducible apply onTcam_within
  with_reducible exact sub_of hc (by decide)
  with_reducible apply State.bumpBy_within
  with_reducible exact sub_of hc (by decide)
  with_reducible assumption
  with_reducible exact within_none

theorem retirePlace_within {cs : List Part} {r : State} (p : Nat) (s : State) (hc : subParts [.live, .integ, .buckets] cs = true) (h : Within cs r s) : OptWithin cs r (retirePlace p s) := by
  delta retirePlace
  extract_lets a6 a7
  have e_a7 : Within cs r a7 := by
    unfold a7
    dsimp only [a6]
    with_reducible apply onBuckets_within
    with_reducible exact sub_of hc (by decide)
    with_reducible apply dropEntry_within
    with_reducible exact sub_of hc (by decide)
    with_reducible assumption
  clear_value a7
  split
  with_reducible refine within_some ?_
  dsimp only [a6]
  with_reducible apply onBuckets_within
  with_reducible exact sub_of hc (by decide)
  with_reducible assumption
  split
  with_reducible refine within_some ?_
  with_reducible apply notePeak_within
  with_reducible exact sub_of hc (by decide)
  with_reducible apply putEntry_within
  with_reducible exact sub_of hc (by decide)
  with_reducible assumption
  with_reducible exact within_none

theorem redirectLine_within {cs : List Part} {r : State} (line : Nat) (s : State) (hc : subParts [.live, .coh] cs = true) (h : Within cs r s) : OptWithin cs r (redirectLine line s) := by
  delta redirectLine
  extract_lets a6 a7 a8 a9 a10
  have e_a6 : Within cs r a6 := by
    unfold a6
    with_reducible apply settleFree_within
    with_reducible exact sub_of hc (by decide)
    with_reducible assumption
  clear_value a6
  split
  with_reducible refine within_some ?_
  with_reducible apply State.bump_within
  with_reducible exact sub_of hc (by decide)
  with_reducible apply onCoh_within
  with_reducible exact sub_of hc (by decide)
  with_reducible assumption
  with_reducible exact fun _ h => h
  with_reducible exact within_none

theorem disableWay_within {cs : List Part} {r : State} (entry : Nat) (s : State) (hc : subParts [.live, .integ, .coh] cs = true) (h : Within cs r s) : Within cs r (disableWay entry s) := by
  delta disableWay
  extract_lets a6 a7 a8 a9 a10
  have e_a8 : Within cs r a8 := by
    unfold a8
    with_reducible apply onInteg_within
    with_reducible exact sub_of hc (by decide)
    with_reducible assumption
    with_reducible exact fun _ h => h
  clear_value a8
  with_reducible refine within_ite (fun _ => ?_) (fun _ => ?_)
  split
  with_reducible apply State.bump_within
  with_reducible exact sub_of hc (by decide)
  with_reducible apply writeTurn_within
  with_reducible exact sub_of hc (by decide)
  with_reducible assumption
  with_reducible assumption
  with_reducible assumption

theorem relocate_within {cs : List Part} {r : State} (region : Nat) (unit : Nat) (n : Nat) (s : State) (hc : subParts [.integ] cs = true) (h : Within cs r s) : OptWithin cs r (relocate region unit n s) := by
  delta relocate
  split
  with_reducible refine within_some ?_
  with_reducible apply onScrub_within
  with_reducible exact sub_of hc (by decide)
  with_reducible assumption
  with_reducible exact within_none

theorem listWeak_within {cs : List Part} {r : State} (region : Nat) (word : Nat) (st : Nat) (s : State) (hc : subParts [.integ] cs = true) (h : Within cs r s) : Within cs r (listWeak region word st s) := by
  delta listWeak
  with_reducible apply onScrub_within
  with_reducible exact sub_of hc (by decide)
  with_reducible assumption

theorem countRetired_within {cs : List Part} {r : State} (region : Nat) (s : State) (hc : subParts [.live] cs = true) (h : Within cs r s) : Within cs r (countRetired region s) := by
  delta countRetired
  with_reducible apply State.bump_within
  with_reducible exact sub_of hc (by decide)
  with_reducible assumption

theorem reinsertAt_within {cs : List Part} {r : State} (k : Nat) (s : State) (hc : subParts [.live, .tcam, .chain, .out] cs = true) (h : Within cs r s) : Within cs r (reinsertAt k s) := by
  delta reinsertAt
  split
  with_reducible apply reinsert_within
  with_reducible exact sub_of hc (by decide)
  with_reducible assumption
  with_reducible assumption

theorem weakWord_within {cs : List Part} {r : State} (region : Nat) (word : Nat) (s : State) (hc : subParts [.mode, .faults, .busy, .live, .vault, .tally, .endpoint, .integ, .coh, .tcam, .chain, .out] cs = true) (h : Within cs r s) : Within cs r (weakWord region word s) := by
  delta weakWord
  extract_lets a7 a8 a9 a10
  have e_a7 : Within cs r a7 := by
    unfold a7
    with_reducible apply State.bump_within
    with_reducible exact sub_of hc (by decide)
    with_reducible assumption
  clear_value a7
  have e_a8 : Within cs r a8 := by
    unfold a8
    with_reducible refine within_ite (fun _ => ?_) (fun _ => ?_)
    with_reducible apply raiseFault_within
    with_reducible exact sub_of hc (by decide)
    with_reducible apply settleMode_within
    with_reducible exact sub_of hc (by decide)
    with_reducible assumption
    with_reducible assumption
  clear_value a8
  have e_a10 : Within cs r a10 := by
    unfold a10
    with_reducible apply listWeak_within
    with_reducible exact sub_of hc (by decide)
    with_reducible assumption
  clear_value a10
  with_reducible refine within_ite (fun _ => ?_) (fun _ => ?_)
  dsimp only [a9]
  split
  with_reducible refine within_ite (fun _ => ?_) (fun _ => ?_)
  with_reducible apply listWeak_within
  with_reducible exact sub_of hc (by decide)
  with_reducible refine within_of_some (by assumption) ?_
  with_reducible apply relocate_within
  with_reducible exact sub_of hc (by decide)
  with_reducible assumption
  with_reducible apply countRetired_within
  with_reducible exact sub_of hc (by decide)
  with_reducible apply listWeak_within
  with_reducible exact sub_of hc (by decide)
  with_reducible refine within_of_some (by assumption) ?_
  with_reducible apply relocate_within
  with_reducible exact sub_of hc (by decide)
  with_reducible assumption
  with_reducible apply listWeak_within
  with_reducible exact sub_of hc (by decide)
  with_reducible assumption
  with_reducible refine within_ite (fun _ => ?_) (fun _ => ?_)
  dsimp only [a9]
  split
  with_reducible refine within_ite (fun _ => ?_) (fun _ => ?_)
  with_reducible apply listWeak_within
  with_reducible exact sub_of hc (by decide)
  with_reducible refine within_of_some (by assumption) ?_
  with_reducible apply retireSlot_within
  with_reducible exact sub_of hc (by decide)
  with_reducible assumption
  with_reducible apply countRetired_within
  with_reducible exact sub_of hc (by decide)
  with_reducible apply listWeak_within
  with_reducible exact sub_of hc (by decide)
  with_reducible refine within_of_some (by assumption) ?_
  with_reducible apply retireSlot_within
  with_reducible exact sub_of hc (by decide)
  with_reducible assumption
  with_reducible apply listWeak_within
  with_reducible exact sub_of hc (by decide)
  with_reducible assumption
  with_reducible refine within_ite (fun _ => ?_) (fun _ => ?_)
  dsimp only [a9]
  split
  with_reducible refine within_ite (fun _ => ?_) (fun _ => ?_)
  with_reducible apply listWeak_within
  with_reducible exact sub_of hc (by decide)
  with_reducible refine within_of_some (by assumption) ?_
  with_reducible refine within_mapM ?_ (fun _ _ => ?_)
  with_reducible apply retireSlot_within
  with_reducible exact sub_of hc (by decide)
  with_reducible assumption
  with_reducible apply reinsertAt_within
  with_reducible exact sub_of hc (by decide)
  with_reducible assumption
  with_reducible apply countRetired_within
  with_reducible exact sub_of hc (by decide)
  with_reducible apply listWeak_within
  with_reducible exact sub_of hc (by decide)
  with_reducible refine within_of_some (by assumption) ?_
  with_reducible refine within_mapM ?_ (fun _ _ => ?_)
  with_reducible apply retireSlot_within
  with_reducible exact sub_of hc (by decide)
  with_reducible assumption
  with_reducible apply reinsertAt_within
  with_reducible exact sub_of hc (by decide)
  with_reducible assumption
  with_reducible apply listWeak_within
  with_reducible exact sub_of hc (by decide)
  with_reducible assumption
  with_reducible refine within_ite (fun _ => ?_) (fun _ => ?_)
  dsimp only [a9]
  split
  with_reducible refine within_ite (fun _ => ?_) (fun _ => ?_)
  with_reducible apply listWeak_within
  with_reducible exact sub_of hc (by decide)
  with_reducible refine within_of_some (by assumption) ?_
  with_reducible apply redirectLine_within
  with_reducible exact sub_of hc (by decide)
  with_reducible assumption
  with_reducible apply countRetired_within
  with_reducible exact sub_of hc (by decide)
  with_reducible apply listWeak_within
  with_reducible exact sub_of hc (by decide)
  with_reducible refine within_of_some (by assumption) ?_
  with_reducible apply redirectLine_within
  with_reducible exact sub_of hc (by decide)
  with_reducible assumption
  with_reducible apply listWeak_within
  with_reducible exact sub_of hc (by decide)
  with_reducible assumption
  with_reducible refine within_ite (fun _ => ?_) (fun _ => ?_)
  with_reducible apply listWeak_within
  with_reducible exact sub_of hc (by decide)
  with_reducible apply disableWay_within
  with_reducible exact sub_of hc (by decide)
  with_reducible assumption
  with_reducible refine within_ite (fun _ => ?_) (fun _ => ?_)
  with_reducible apply noticeBank_within
  with_reducible exact sub_of hc (by decide)
  with_reducible assumption
  with_reducible assumption

theorem correctWord_within {cs : List Part} {r : State} (region : Nat) (word : Nat) (s : State) (hc : subParts [.mode, .faults, .busy, .live, .vault, .tally, .endpoint, .integ, .coh, .tcam, .chain, .out] cs = true) (h : Within cs r s) : Within cs r (correctWord region word s) := by
  delta correctWord
  extract_lets a7 a8 a9 a10 a11 a12 a13 a14
  have e_a12 : Within cs r a12 := by
    unfold a12
    with_reducible refine within_ite (fun _ => ?_) (fun _ => ?_)
    with_reducible apply State.bump_within
    with_reducible exact sub_of hc (by decide)
    with_reducible assumption
    with_reducible assumption
  clear_value a12
  have e_a13 : Within cs r a13 := by
    unfold a13
    with_reducible apply onScrub_within
    with_reducible exact sub_of hc (by decide)
    with_reducible assumption
  clear_value a13
  with_reducible refine within_ite (fun _ => ?_) (fun _ => ?_)
  with_reducible apply weakWord_within
  with_reducible exact sub_of hc (by decide)
  with_reducible assumption
  with_reducible assumption

theorem observe_within {cs : List Part} {r : State} (region : Nat) (obs : Sys2Proof.Observation) (lapVisit : Bool) (s : State)
    (hc : subParts [.modes, .mode, .faults, .drowse, .busy, .live, .keys, .vault, .flash, .tally, .sluice, .endpoint, .rings, .scratch, .integ, .coh, .results, .buckets, .tcam, .furrow, .links, .slots, .headgate, .chain, .fresh, .out] cs = true) (h : Within cs r s) : Within cs r (observe region obs lapVisit s) := by
  delta observe
  split
  with_reducible assumption
  with_reducible assumption
  extract_lets a13 a14
  have e_a13 : Within cs r a13 := by
    unfold a13
    with_reducible apply State.bump_within
    with_reducible exact sub_of hc (by decide)
    with_reducible assumption
  clear_value a13
  have e_a14 : Within cs r a14 := by
    unfold a14
    with_reducible refine within_ite (fun _ => ?_) (fun _ => ?_)
    with_reducible apply rewriteSlot_within
    with_reducible exact sub_of hc (by decide)
    with_reducible assumption
    with_reducible assumption
  clear_value a14
  with_reducible refine within_ite (fun _ => ?_) (fun _ => ?_)
  with_reducible apply correctWord_within
  with_reducible exact sub_of hc (by decide)
  with_reducible assumption
  with_reducible assumption
  extract_lets a13 a14
  have e_a14 : Within cs r a14 := by
    unfold a14
    with_reducible apply loseWord_within
    with_reducible exact sub_of hc (by decide)
    with_reducible assumption
  clear_value a14
  with_reducible refine within_ite (fun _ => ?_) (fun _ => ?_)
  with_reducible apply weakWord_within
  with_reducible exact sub_of hc (by decide)
  with_reducible assumption
  with_reducible assumption

theorem flushUnit_within {cs : List Part} {r : State} (region : Nat) (unit : Nat) (s : State) (hc : subParts [.live, .integ] cs = true) (h : Within cs r s) : Within cs r (flushUnit region unit s) := by
  delta flushUnit
  with_reducible refine within_ite (fun _ => ?_) (fun _ => ?_)
  with_reducible refine within_foldl (fun _ _ _ => ?_) ?_
  with_reducible apply mergeFlush_within
  with_reducible exact sub_of hc (by decide)
  with_reducible assumption
  with_reducible assumption
  with_reducible refine within_ite (fun _ => ?_) (fun _ => ?_)
  with_reducible refine within_foldl (fun _ _ _ => ?_) ?_
  with_reducible apply mergeFlush_within
  with_reducible exact sub_of hc (by decide)
  with_reducible assumption
  with_reducible assumption
  with_reducible assumption

theorem endLap_within {cs : List Part} {r : State} (region : Nat) (s : State) (hc : subParts [.scratch, .tcam] cs = true) (h : Within cs r s) : Within cs r (endLap region s) := by
  delta endLap
  with_reducible refine within_ite (fun _ => ?_) (fun _ => ?_)
  with_reducible apply onScratch_within
  with_reducible exact sub_of hc (by decide)
  with_reducible assumption
  with_reducible exact fun _ h => h
  with_reducible refine within_ite (fun _ => ?_) (fun _ => ?_)
  with_reducible apply onTcam_within
  with_reducible exact sub_of hc (by decide)
  with_reducible assumption
  with_reducible assumption

theorem visit_within {cs : List Part} {r : State} (region : Nat) (obs : Sys2Proof.Observation) (s : State)
    (hc : subParts [.modes, .mode, .faults, .drowse, .busy, .live, .keys, .vault, .flash, .tally, .sluice, .endpoint, .rings, .scratch, .integ, .coh, .results, .buckets, .tcam, .furrow, .links, .slots, .headgate, .chain, .fresh, .out] cs = true) (h : Within cs r s) : Within cs r (visit region obs s) := by
  delta visit
  extract_lets a7 a8 a9 a10 a11 a12 a13 a14 a15 a16 a17
  have e_a11 : Within cs r a11 := by
    unfold a11
    with_reducible apply flushUnit_within
    with_reducible exact sub_of hc (by decide)
    with_reducible assumption
  clear_value a11
  have e_a12 : Within cs r a12 := by
    unfold a12
    with_reducible refine within_ite (fun _ => ?_) (fun _ => ?_)
    with_reducible apply onScrub_within
    with_reducible exact sub_of hc (by decide)
    with_reducible assumption
    with_reducible assumption
  clear_value a12
  have e_a14 : Within cs r a14 := by
    unfold a14
    with_reducible apply onScrub_within
    with_reducible exact sub_of hc (by decide)
    with_reducible assumption
  clear_value a14
  have e_a15 : Within cs r a15 := by
    unfold a15
    with_reducible apply observe_within
    with_reducible exact sub_of hc (by decide)
    with_reducible assumption
  clear_value a15
  have e_a16 : Within cs r a16 := by
    unfold a16
    with_reducible refine within_ite (fun _ => ?_) (fun _ => ?_)
    with_reducible assumption
    with_reducible apply State.put_within
    with_reducible exact sub_of hc (by decide)
    with_reducible assumption
  clear_value a16
  have e_a17 : Within cs r a17 := by
    unfold a17
    with_reducible apply endLap_within
    with_reducible exact sub_of hc (by decide)
    with_reducible assumption
  clear_value a17
  with_reducible refine within_ite (fun _ => ?_) (fun _ => ?_)
  with_reducible assumption
  with_reducible refine within_ite (fun _ => ?_) (fun _ => ?_)
  with_reducible apply onScrub_within
  with_reducible exact sub_of hc (by decide)
  with_reducible assumption
  with_reducible apply onScrub_within
  with_reducible exact sub_of hc (by decide)
  with_reducible assumption

theorem execTopScrubVisit_within {cs : List Part} {r : State} (region : Nat) (obs : Sys2Proof.Observation) (s : State)
    (hc : subParts [.modes, .mode, .faults, .drowse, .busy, .live, .keys, .vault, .flash, .tally, .sluice, .endpoint, .rings, .scratch, .integ, .coh, .results, .buckets, .tcam, .furrow, .links, .slots, .headgate, .chain, .fresh, .out] cs = true) (h : Within cs r s) : ResultWithin cs r (execTopScrubVisit region obs s) := by
  delta execTopScrubVisit
  with_reducible apply within_onUnit
  with_reducible refine within_ite (fun _ => ?_) (fun _ => ?_)
  with_reducible apply visit_within
  with_reducible exact sub_of hc (by decide)
  with_reducible assumption
  with_reducible assumption

theorem execYoyoScrub_within {cs : List Part} {r : State} (region : Nat) (obs : Sys2Proof.Observation) (s : State)
    (hc : subParts [.modes, .mode, .faults, .drowse, .busy, .live, .keys, .vault, .flash, .tally, .sluice, .endpoint, .rings, .scratch, .integ, .coh, .results, .buckets, .tcam, .furrow, .links, .slots, .headgate, .chain, .fresh, .out] cs = true) (h : Within cs r s) : ResultWithin cs r (execYoyoScrub region obs s) := by
  delta execYoyoScrub
  with_reducible apply within_onUnit
  with_reducible refine within_ite (fun _ => ?_) (fun _ => ?_)
  with_reducible apply visit_within
  with_reducible exact sub_of hc (by decide)
  with_reducible assumption
  with_reducible assumption

theorem execYoyoLapTimeout_within {cs : List Part} {r : State} (region : Nat) (s : State) (hc : subParts [.live, .integ] cs = true) (h : Within cs r s) : ResultWithin cs r (execYoyoLapTimeout region s) := by
  delta execYoyoLapTimeout
  with_reducible apply within_onUnit
  with_reducible refine within_ite (fun _ => ?_) (fun _ => ?_)
  with_reducible apply State.bump_within
  with_reducible exact sub_of hc (by decide)
  with_reducible apply onScrub_within
  with_reducible exact sub_of hc (by decide)
  with_reducible assumption
  with_reducible assumption

theorem execOutOfTurnScrub_within {cs : List Part} {r : State} (region : Nat) (word : Nat) (obs : Sys2Proof.Observation) (s : State)
    (hc : subParts [.modes, .mode, .faults, .drowse, .busy, .live, .keys, .vault, .flash, .tally, .sluice, .endpoint, .rings, .scratch, .integ, .coh, .results, .buckets, .tcam, .furrow, .links, .slots, .headgate, .chain, .fresh, .out] cs = true) (h : Within cs r s) : ResultWithin cs r (execOutOfTurnScrub region word obs s) := by
  delta execOutOfTurnScrub
  with_reducible apply within_onUnit
  with_reducible refine within_ite (fun _ => ?_) (fun _ => ?_)
  extract_lets a9
  with_reducible apply observe_within
  with_reducible exact sub_of hc (by decide)
  with_reducible apply flushUnit_within
  with_reducible exact sub_of hc (by decide)
  with_reducible refine within_ite (fun _ => ?_) (fun _ => ?_)
  with_reducible assumption
  with_reducible apply State.bump_within
  with_reducible exact sub_of hc (by decide)
  with_reducible assumption
  with_reducible assumption

theorem retestPassed_within {cs : List Part} {r : State} (region : Nat) (word : Nat) (s : State) (hc : subParts [.live, .integ, .tcam, .chain, .out] cs = true) (h : Within cs r s) : Within cs r (retestPassed region word s) := by
  delta retestPassed
  extract_lets a7
  have e_a7 : Within cs r a7 := by
    unfold a7
    with_reducible apply onScrub_within
    with_reducible exact sub_of hc (by decide)
    with_reducible apply listWeak_within
    with_reducible exact sub_of hc (by decide)
    with_reducible assumption
  clear_value a7
  with_reducible refine within_ite (fun _ => ?_) (fun _ => ?_)
  with_reducible apply onTcam_within
  with_reducible exact sub_of hc (by decide)
  with_reducible assumption
  with_reducible refine within_ite (fun _ => ?_) (fun _ => ?_)
  with_reducible apply reinsertAt_within
  with_reducible exact sub_of hc (by decide)
  with_reducible assumption
  with_reducible refine within_ite (fun _ => ?_) (fun _ => ?_)
  with_reducible apply onInteg_within
  with_reducible exact sub_of hc (by decide)
  with_reducible assumption
  with_reducible exact fun _ h => h
  with_reducible assumption

theorem retestEnds_within {cs : List Part} {r : State} (region : Nat) (word : Nat) (s : State) (a3 : Option State) (hc : subParts [.live, .integ] cs = true) (h : Within cs r s) (hm : OptWithin cs r a3) : Within cs r (retestEnds region word s a3) := by
  delta retestEnds
  split
  with_reducible apply countRetired_within
  with_reducible exact sub_of hc (by decide)
  with_reducible apply listWeak_within
  with_reducible exact sub_of hc (by decide)
  exact hm _ rfl
  with_reducible apply listWeak_within
  with_reducible exact sub_of hc (by decide)
  with_reducible assumption

theorem moveSecret_within {cs : List Part} {r : State} (word : Nat) (s : State) (hc : subParts [.integ] cs = true) (h : Within cs r s) : OptWithin cs r (moveSecret word s) := by
  delta moveSecret
  extract_lets a6 a7
  split
  with_reducible refine within_some ?_
  dsimp only [a6]
  with_reducible apply onInteg_within
  with_reducible exact sub_of hc (by decide)
  with_reducible assumption
  with_reducible exact fun _ h => h
  split
  with_reducible refine within_some ?_
  dsimp only [a6]
  with_reducible apply onInteg_within
  with_reducible exact sub_of hc (by decide)
  with_reducible apply onInteg_within
  with_reducible exact sub_of hc (by decide)
  with_reducible assumption
  with_reducible exact fun _ h => h
  with_reducible exact fun _ h => h
  with_reducible exact within_none

theorem retestHard_within {cs : List Part} {r : State} (region : Nat) (word : Nat) (s : State) (hc : subParts [.live, .vault, .tally, .endpoint, .integ, .coh, .buckets, .tcam, .furrow, .chain, .fresh, .out] cs = true) (h : Within cs r s) : Within cs r (retestHard region word s) := by
  delta retestHard
  extract_lets a7 a8
  have e_a7 : Within cs r a7 := by
    unfold a7
    with_reducible apply journalWord_within
    with_reducible exact sub_of hc (by decide)
    with_reducible assumption
  clear_value a7
  with_reducible refine within_ite (fun _ => ?_) (fun _ => ?_)
  dsimp only [a8]
  with_reducible apply retestEnds_within
  with_reducible exact sub_of hc (by decide)
  with_reducible assumption
  with_reducible refine within_mapM ?_ (fun _ _ => ?_)
  with_reducible apply retireSlot_within
  with_reducible exact sub_of hc (by decide)
  with_reducible assumption
  with_reducible apply reinsertAt_within
  with_reducible exact sub_of hc (by decide)
  with_reducible assumption
  with_reducible refine within_ite (fun _ => ?_) (fun _ => ?_)
  dsimp only [a8]
  with_reducible apply retestEnds_within
  with_reducible exact sub_of hc (by decide)
  with_reducible assumption
  with_reducible apply retirePlace_within
  with_reducible exact sub_of hc (by decide)
  with_reducible apply drainOps_within
  with_reducible exact sub_of hc (by decide)
  with_reducible assumption
  with_reducible refine within_ite (fun _ => ?_) (fun _ => ?_)
  dsimp only [a8]
  with_reducible apply retestEnds_within
  with_reducible exact sub_of hc (by decide)
  with_reducible assumption
  with_reducible apply retirePlace_within
  with_reducible exact sub_of hc (by decide)
  with_reducible apply drainOps_within
  with_reducible exact sub_of hc (by decide)
  with_reducible assumption
  with_reducible refine within_ite (fun _ => ?_) (fun _ => ?_)
  dsimp only [a8]
  with_reducible apply retestEnds_within
  with_reducible exact sub_of hc (by decide)
  with_reducible assumption
  with_reducible apply moveSecret_within
  with_reducible exact sub_of hc (by decide)
  with_reducible assumption
  with_reducible refine within_ite (fun _ => ?_) (fun _ => ?_)
  dsimp only [a8]
  with_reducible apply retestEnds_within
  with_reducible exact sub_of hc (by decide)
  with_reducible assumption
  with_reducible refine within_mapM ?_ (fun _ _ => ?_)
  with_reducible apply relocate_within
  with_reducible exact sub_of hc (by decide)
  with_reducible assumption
  with_reducible apply State.bump_within
  with_reducible exact sub_of hc (by decide)
  with_reducible assumption
  with_reducible refine within_ite (fun _ => ?_) (fun _ => ?_)
  with_reducible apply noticeBank_within
  with_reducible exact sub_of hc (by decide)
  with_reducible apply listWeak_within
  with_reducible exact sub_of hc (by decide)
  with_reducible assumption
  with_reducible refine within_ite (fun _ => ?_) (fun _ => ?_)
  dsimp only [a8]
  with_reducible apply retestEnds_within
  with_reducible exact sub_of hc (by decide)
  with_reducible assumption
  with_reducible refine within_some ?_
  with_reducible apply rebuildWord_within
  with_reducible exact sub_of hc (by decide)
  with_reducible apply onInteg_within
  with_reducible exact sub_of hc (by decide)
  with_reducible assumption
  with_reducible exact fun _ h => h
  dsimp only [a8]
  with_reducible apply retestEnds_within
  with_reducible exact sub_of hc (by decide)
  with_reducible assumption
  with_reducible refine within_some ?_
  with_reducible assumption

theorem retireUntested_within {cs : List Part} {r : State} (region : Nat) (word : Nat) (s : State) (hc : subParts [.live, .integ, .tcam, .chain, .out] cs = true) (h : Within cs r s) : Within cs r (retireUntested region word s) := by
  delta retireUntested
  with_reducible refine within_ite (fun _ => ?_) (fun _ => ?_)
  split
  with_reducible apply countRetired_within
  with_reducible exact sub_of hc (by decide)
  with_reducible apply listWeak_within
  with_reducible exact sub_of hc (by decide)
  with_reducible apply reinsertAt_within
  with_reducible exact sub_of hc (by decide)
  with_reducible refine within_of_some (by assumption) ?_
  with_reducible apply retireSlot_within
  with_reducible exact sub_of hc (by decide)
  with_reducible assumption
  with_reducible apply listWeak_within
  with_reducible exact sub_of hc (by decide)
  with_reducible assumption
  with_reducible apply countRetired_within
  with_reducible exact sub_of hc (by decide)
  with_reducible apply listWeak_within
  with_reducible exact sub_of hc (by decide)
  with_reducible assumption

theorem execWeakWordRetest_within {cs : List Part} {r : State} (region : Nat) (word : Nat) (hard : Bool) (s : State)
    (hc : subParts [.live, .vault, .tally, .endpoint, .integ, .coh, .buckets, .tcam, .furrow, .chain, .fresh, .out] cs = true) (h : Within cs r s) : ResultWithin cs r (execWeakWordRetest region word hard s) := by
  delta execWeakWordRetest
  with_reducible apply within_onUnit
  with_reducible refine within_ite (fun _ => ?_) (fun _ => ?_)
  with_reducible refine within_ite (fun _ => ?_) (fun _ => ?_)
  with_reducible apply retireUntested_within
  with_reducible exact sub_of hc (by decide)
  with_reducible assumption
  extract_lets a10 a11
  have e_a10 : Within cs r a10 := by
    unfold a10
    with_reducible apply flushUnit_within
    with_reducible exact sub_of hc (by decide)
    with_reducible assumption
  clear_value a10
  have e_a11 : Within cs r a11 := by
    unfold a11
    with_reducible refine within_ite (fun _ => ?_) (fun _ => ?_)
    split
    with_reducible apply State.bumpBy_within
    with_reducible exact sub_of hc (by decide)
    with_reducible refine within_of_pair (by assumption) ?_
    with_reducible apply drawFresh_within
    with_reducible exact sub_of hc (by decide)
    with_reducible assumption
    with_reducible assumption
  clear_value a11
  with_reducible refine within_ite (fun _ => ?_) (fun _ => ?_)
  with_reducible apply retestHard_within
  with_reducible exact sub_of hc (by decide)
  with_reducible assumption
  with_reducible apply retestPassed_within
  with_reducible exact sub_of hc (by decide)
  with_reducible assumption
  with_reducible assumption

theorem execLpddrTrained_within {cs : List Part} {r : State} (density : Nat) (s : State) (hc : subParts [.live] cs = true) (h : Within cs r s) : ResultWithin cs r (execLpddrTrained density s) := by
  delta execLpddrTrained
  with_reducible refine within_next ?_
  split
  with_reducible refine within_ite (fun _ => ?_) (fun _ => ?_)
  with_reducible apply State.put_within
  with_reducible exact sub_of hc (by decide)
  with_reducible apply State.put_within
  with_reducible exact sub_of hc (by decide)
  with_reducible assumption
  with_reducible assumption
  with_reducible assumption

theorem trainingFailed_within {cs : List Part} {r : State} (s : State) (hc : subParts [.faults, .live, .endpoint, .out] cs = true) (h : Within cs r s) : Within cs r (trainingFailed s) := by
  delta trainingFailed
  with_reducible refine within_ite (fun _ => ?_) (fun _ => ?_)
  with_reducible apply raiseFault_within
  with_reducible exact sub_of hc (by decide)
  with_reducible apply State.put_within
  with_reducible exact sub_of hc (by decide)
  with_reducible assumption
  with_reducible assumption

theorem shadowFilled_within {cs : List Part} {r : State} (s : State) (hc : subParts [.live, .coh, .results] cs = true) (h : Within cs r s) : Within cs r (shadowFilled s) := by
  delta shadowFilled
  with_reducible refine within_ite (fun _ => ?_) (fun _ => ?_)
  extract_lets a6 a7 a8 a9 a10
  have e_a8 : Within cs r a8 := by
    unfold a8
    with_reducible apply onCoh_within
    with_reducible exact sub_of hc (by decide)
    with_reducible assumption
    with_reducible exact fun _ h => h
  clear_value a8
  have e_a10 : Within cs r a10 := by
    unfold a10
    with_reducible refine within_set_results (sub_of hc (by decide)) ?_
    with_reducible assumption
  clear_value a10
  with_reducible apply State.put_within
  with_reducible exact sub_of hc (by decide)
  with_reducible assumption
  with_reducible assumption

theorem extFilled_within {cs : List Part} {r : State} (s : State) (hc : subParts [.modes, .busy, .live] cs = true) (h : Within cs r s) : Within cs r (extFilled s) := by
  delta extFilled
  with_reducible refine within_ite (fun _ => ?_) (fun _ => ?_)
  extract_lets a6 a7
  have e_a7 : Within cs r a7 := by
    unfold a7
    with_reducible apply drowseBusy_within
    with_reducible exact sub_of hc (by decide)
    with_reducible refine within_set_modes_classReady (sub_of hc (by decide)) ?_
    with_reducible assumption
  clear_value a7
  with_reducible apply State.put_within
  with_reducible exact sub_of hc (by decide)
  with_reducible apply State.put_within
  with_reducible exact sub_of hc (by decide)
  with_reducible assumption
  with_reducible assumption

theorem execLpddrFillDone_within {cs : List Part} {r : State} (s : State) (hc : subParts [.live] cs = true) (h : Within cs r s) : ResultWithin cs r (execLpddrFillDone s) := by
  delta execLpddrFillDone
  with_reducible refine within_next ?_
  with_reducible refine within_ite (fun _ => ?_) (fun _ => ?_)
  with_reducible apply State.put_within
  with_reducible exact sub_of hc (by decide)
  with_reducible assumption
  with_reducible assumption

theorem repairGranule_within {cs : List Part} {r : State} (word : Nat) (s : State) (hc : subParts [.live, .coh, .results, .headgate] cs = true) (h : Within cs r s) : Within cs r (repairGranule word s) := by
  delta repairGranule
  extract_lets a6 a7 a8 a9 a10 a11 a12
  have e_a8 : Within cs r a8 := by
    unfold a8
    with_reducible apply writeTurn_within
    with_reducible exact sub_of hc (by decide)
    with_reducible assumption
  clear_value a8
  have e_a9 : Within cs r a9 := by
    unfold a9
    with_reducible apply onCoh_within
    with_reducible exact sub_of hc (by decide)
    with_reducible assumption
    with_reducible exact fun _ h => h
  clear_value a9
  have e_a11 : Within cs r a11 := by
    unfold a11
    with_reducible refine within_ite (fun _ => ?_) (fun _ => ?_)
    with_reducible apply storeFresh_within
    with_reducible exact sub_of hc (by decide)
    with_reducible assumption
    with_reducible apply storeGranule_within
    with_reducible exact sub_of hc (by decide)
    with_reducible assumption
  clear_value a11
  have e_a12 : Within cs r a12 := by
    unfold a12
    with_reducible refine within_ite (fun _ => ?_) (fun _ => ?_)
    with_reducible apply State.put_within
    with_reducible exact sub_of hc (by decide)
    with_reducible assumption
    with_reducible assumption
  clear_value a12
  with_reducible refine within_ite (fun _ => ?_) (fun _ => ?_)
  with_reducible assumption
  with_reducible apply State.bump_within
  with_reducible exact sub_of hc (by decide)
  with_reducible assumption

theorem repairShadowed_within {cs : List Part} {r : State} (store : Nat) (i : Nat) (s : State) (hc : subParts [.results] cs = true) (h : Within cs r s) : Within cs r (repairShadowed store i s) := by
  delta repairShadowed
  with_reducible refine within_ite (fun _ => ?_) (fun _ => ?_)
  with_reducible assumption
  with_reducible refine within_ite (fun _ => ?_) (fun _ => ?_)
  with_reducible refine within_set_results (sub_of hc (by decide)) ?_
  with_reducible assumption
  extract_lets a9 a10
  with_reducible refine within_set_results (sub_of hc (by decide)) ?_
  with_reducible assumption

theorem execPoisonRepair_within {cs : List Part} {r : State} (store : Nat) (granule : Nat) (s : State)
    (hc : subParts [.live, .integ, .coh, .results, .buckets, .tcam, .furrow, .headgate, .chain, .fresh, .out] cs = true) (h : Within cs r s) : ResultWithin cs r (execPoisonRepair store granule s) := by
  delta execPoisonRepair
  with_reducible apply within_onUnit
  with_reducible refine within_ite (fun _ => ?_) (fun _ => ?_)
  with_reducible assumption
  split
  with_reducible refine within_ite (fun _ => ?_) (fun _ => ?_)
  with_reducible assumption
  with_reducible apply repairGranule_within
  with_reducible exact sub_of hc (by decide)
  with_reducible assumption
  with_reducible refine within_ite (fun _ => ?_) (fun _ => ?_)
  with_reducible apply rebuildWord_within
  with_reducible exact sub_of hc (by decide)
  with_reducible assumption
  with_reducible assumption
  with_reducible apply reinsert_within
  with_reducible exact sub_of hc (by decide)
  with_reducible assumption
  with_reducible apply repairPlace_within
  with_reducible exact sub_of hc (by decide)
  with_reducible assumption
  with_reducible apply repairShadowed_within
  with_reducible exact sub_of hc (by decide)
  with_reducible assumption

theorem takeArming_within {cs : List Part} {r : State} (s : State) (hc : subParts [.tamper] cs = true) (h : Within cs r s) : Within cs r (takeArming s) := by
  delta takeArming
  with_reducible refine within_set_tamper (sub_of hc (by decide)) ?_
  with_reducible assumption

theorem seedMesh_within {cs : List Part} {r : State} (s : State) (hc : subParts [.tamper, .fresh] cs = true) (h : Within cs r s) : Within cs r (seedMesh s) := by
  delta seedMesh
  split
  with_reducible refine within_set_tamper (sub_of hc (by decide)) ?_
  with_reducible refine within_of_pair (by assumption) ?_
  with_reducible apply drawFresh_within
  with_reducible exact sub_of hc (by decide)
  with_reducible assumption

theorem zeroizeStores_within {cs : List Part} {r : State} (s : State) (hc : subParts [.keys, .vault] cs = true) (h : Within cs r s) : Within cs r (zeroizeStores s) := by
  delta zeroizeStores
  with_reducible refine within_update (ps := [.vault, .keys]) rfl (sub_of hc (by decide)) (fun p hp => by cases p <;> first | exact absurd (by decide) hp | with_unfolding_all rfl) rfl (Nat.le_refl _) (Nat.le_refl _) (List.suffix_refl _) id id id id id id id id id id ?_
  with_reducible assumption

theorem disposeRoot_within {cs : List Part} {r : State} (s : State) (hc : subParts [.keys] cs = true) (h : Within cs r s) : Within cs r (disposeRoot s) := by
  delta disposeRoot
  with_reducible refine within_update (ps := [.keys]) rfl (sub_of hc (by decide)) (fun p hp => by cases p <;> first | exact absurd (by decide) hp | with_unfolding_all rfl) rfl (Nat.le_refl _) (Nat.le_refl _) (List.suffix_refl _) id id id id id id id id id id ?_
  with_reducible assumption

theorem journalTamper_within {cs : List Part} {r : State} (s : State) (hc : subParts [.vault, .tally, .tamper, .endpoint, .out] cs = true) (h : Within cs r s) : Within cs r (journalTamper s) := by
  delta journalTamper
  with_reducible refine within_ite (fun _ => ?_) (fun _ => ?_)
  with_reducible assumption
  extract_lets a6 a7
  have e_a6 : Within cs r a6 := by
    unfold a6
    with_reducible apply journal_within
    with_reducible exact sub_of hc (by decide)
    with_reducible assumption
  clear_value a6
  with_reducible refine within_set_tamper (sub_of hc (by decide)) ?_
  with_reducible assumption

theorem latchCause_within {cs : List Part} {r : State} (source : Nat) (s : State) (hc : subParts [.tamper] cs = true) (h : Within cs r s) : Within cs r (latchCause source s) := by
  delta latchCause
  extract_lets a6
  with_reducible refine within_set_tamper (sub_of hc (by decide)) ?_
  with_reducible assumption

theorem respondPowered_within {cs : List Part} {r : State} (s : State) (hc : subParts [.wakes, .modes, .mode, .faults, .drowse, .busy, .live, .keys, .vault, .tally, .tamper, .endpoint, .out] cs = true) (h : Within cs r s) : Within cs r (respondPowered s) := by
  delta respondPowered
  extract_lets a5 a6 a7 a8 a9 a10
  have e_a5 : Within cs r a5 := by
    unfold a5
    with_reducible apply disposeRoot_within
    with_reducible exact sub_of hc (by decide)
    with_reducible apply zeroizeStores_within
    with_reducible exact sub_of hc (by decide)
    with_reducible apply State.bump_within
    with_reducible exact sub_of hc (by decide)
    with_reducible assumption
  clear_value a5
  have e_a9 : Within cs r a9 := by
    unfold a9
    with_reducible refine within_update (ps := [.wakes, .keys, .tamper]) rfl (sub_of hc (by decide)) (fun p hp => by cases p <;> first | exact absurd (by decide) hp | with_unfolding_all rfl) rfl (Nat.le_refl _) (Nat.le_refl _) (List.suffix_refl _) id id id id id id id id id id ?_
    with_reducible assumption
  clear_value a9
  have e_a10 : Within cs r a10 := by
    unfold a10
    with_reducible apply setLocked_within
    with_reducible exact sub_of hc (by decide)
    with_reducible apply drowseTrigger_within
    with_reducible exact sub_of hc (by decide)
    with_reducible assumption
  clear_value a10
  with_reducible apply journalTamper_within
  with_reducible exact sub_of hc (by decide)
  with_reducible apply raiseFault_within
  with_reducible exact sub_of hc (by decide)
  with_reducible assumption

theorem respondUnpowered_within {cs : List Part} {r : State} (s : State) (hc : subParts [.wakes, .keys, .vault, .sluice] cs = true) (h : Within cs r s) : Within cs r (respondUnpowered s) := by
  delta respondUnpowered
  extract_lets a5 a6 a7
  have e_a6 : Within cs r a6 := by
    unfold a6
    with_reducible refine within_update (ps := [.vault, .keys]) rfl (sub_of hc (by decide)) (fun p hp => by cases p <;> first | exact absurd (by decide) hp | with_unfolding_all rfl) rfl (Nat.le_refl _) (Nat.le_refl _) (List.suffix_refl _) id id id id id id id id id id ?_
    with_reducible assumption
  clear_value a6
  with_reducible refine within_ite (fun _ => ?_) (fun _ => ?_)
  with_reducible apply assertPwrHold_within
  with_reducible exact sub_of hc (by decide)
  with_reducible refine within_set_power_tamperWake (sub_of hc (by decide)) ?_
  with_reducible assumption
  with_reducible assumption

theorem execTamperAlarm_within {cs : List Part} {r : State} (source : Nat) (s : State)
    (hc : subParts [.wakes, .modes, .mode, .faults, .drowse, .busy, .live, .keys, .vault, .tally, .tamper, .sluice, .endpoint, .out] cs = true) (h : Within cs r s) : ResultWithin cs r (execTamperAlarm source s) := by
  delta execTamperAlarm
  with_reducible apply within_onUnit
  with_reducible refine within_ite (fun _ => ?_) (fun _ => ?_)
  extract_lets a7
  have e_a7 : Within cs r a7 := by
    unfold a7
    with_reducible apply latchCause_within
    with_reducible exact sub_of hc (by decide)
    with_reducible assumption
  clear_value a7
  with_reducible refine within_ite (fun _ => ?_) (fun _ => ?_)
  with_reducible apply respondPowered_within
  with_reducible exact sub_of hc (by decide)
  with_reducible assumption
  with_reducible apply respondUnpowered_within
  with_reducible exact sub_of hc (by decide)
  with_reducible assumption
  with_reducible refine within_set_tamper (sub_of hc (by decide)) ?_
  with_reducible assumption

theorem execTamperSourceCleared_within {cs : List Part} {r : State} (source : Nat) (s : State) (hc : subParts [.tamper] cs = true) (h : Within cs r s) : ResultWithin cs r (execTamperSourceCleared source s) := by
  delta execTamperSourceCleared
  with_reducible apply within_onUnit
  with_reducible refine within_set_tamper (sub_of hc (by decide)) ?_
  with_reducible assumption

theorem tamperClear_within {cs : List Part} {r : State} (s : State) (hc : subParts [.faults, .live, .tamper, .endpoint, .out] cs = true) (h : Within cs r s) : PairWithin cs r (tamperClear s) := by
  delta tamperClear
  with_reducible refine pairWithin_ite (fun _ => ?_) (fun _ => ?_)
  with_reducible refine within_mkP ?_
  with_reducible apply clearFault_within
  with_reducible exact sub_of hc (by decide)
  with_reducible refine within_set_tamper (sub_of hc (by decide)) ?_
  with_reducible assumption
  with_reducible refine within_mkP ?_
  with_reducible assumption

theorem drawNonce_within {cs : List Part} {r : State} (s : State) (hc : subParts [.jack, .fresh] cs = true) (h : Within cs r s) : Within cs r (drawNonce s) := by
  delta drawNonce
  split
  with_reducible refine within_set_jack (sub_of hc (by decide)) ?_
  with_reducible refine within_of_pair (by assumption) ?_
  with_reducible apply drbg16_within
  with_reducible exact sub_of hc (by decide)
  with_reducible assumption

theorem execJackNonceRedraw_within {cs : List Part} {r : State} (s : State) (hc : subParts [.jack, .fresh] cs = true) (h : Within cs r s) : ResultWithin cs r (execJackNonceRedraw s) := by
  delta execJackNonceRedraw
  with_reducible refine within_next ?_
  with_reducible refine within_ite (fun _ => ?_) (fun _ => ?_)
  with_reducible apply drawNonce_within
  with_reducible exact sub_of hc (by decide)
  with_reducible assumption
  with_reducible assumption

theorem jackBurn_within {cs : List Part} {r : State} (fuseOk : Bool) (s : State) (hc : subParts [.modes, .mode, .faults, .busy, .live, .keys, .vault, .tally, .jack, .endpoint, .out] cs = true) (h : Within cs r s) : Within cs r (jackBurn fuseOk s) := by
  delta jackBurn
  extract_lets a6 a7 a8 a9 a10
  have e_a6 : Within cs r a6 := by
    unfold a6
    with_reducible apply setLocked_within
    with_reducible exact sub_of hc (by decide)
    with_reducible apply zeroizeStores_within
    with_reducible exact sub_of hc (by decide)
    with_reducible assumption
  clear_value a6
  have e_a7 : Within cs r a7 := by
    unfold a7
    with_reducible apply disposeRoot_within
    with_reducible exact sub_of hc (by decide)
    with_reducible assumption
  clear_value a7
  with_reducible refine within_ite (fun _ => ?_) (fun _ => ?_)
  with_reducible apply settleMode_within
  with_reducible exact sub_of hc (by decide)
  with_reducible refine within_update (ps := [.keys, .jack]) rfl (sub_of hc (by decide)) (fun p hp => by cases p <;> first | exact absurd (by decide) hp | with_unfolding_all rfl) ?_ ?_ ?_ ?_ ?_ ?_ ?_ ?_ ?_ ?_ ?_ ?_ ?_ ?_ ?_
  with_reducible rfl
  with_reducible exact Nat.le_refl _
  with_reducible exact Nat.le_add_right _ _
  with_reducible exact List.suffix_refl _
  with_reducible exact id
  with_reducible exact id
  with_reducible exact id
  with_reducible exact id
  with_reducible exact id
  with_reducible exact id
  with_reducible exact id
  with_reducible exact id
  with_reducible exact id
  with_reducible exact id
  with_reducible assumption
  with_reducible apply raiseFault_within
  with_reducible exact sub_of hc (by decide)
  with_reducible apply State.put_within
  with_reducible exact sub_of hc (by decide)
  with_reducible assumption

theorem jackOpen_within {cs : List Part} {r : State} (b : Sys2Proof.Bytes) (fuseOk : Bool) (s : State)
    (hc : subParts [.modes, .mode, .faults, .drowse, .busy, .live, .keys, .vault, .flash, .tally, .jack, .endpoint, .scratch, .integ, .fresh, .out] cs = true) (h : Within cs r s) : Within cs r (jackOpen b fuseOk s) := by
  delta jackOpen
  extract_lets a7
  have e_a7 : Within cs r a7 := by
    unfold a7
    with_reducible apply journal_within
    with_reducible exact sub_of hc (by decide)
    with_reducible apply drowseTrigger_within
    with_reducible exact sub_of hc (by decide)
    with_reducible assumption
  clear_value a7
  split
  with_reducible apply jackBurn_within
  with_reducible exact sub_of hc (by decide)
  with_reducible refine within_of_pair (by assumption) ?_
  with_reducible apply commitAndSeal_within
  with_reducible exact sub_of hc (by decide)
  with_reducible assumption
  with_reducible refine within_of_pair (by assumption) ?_
  with_reducible apply commitAndSeal_within
  with_reducible exact sub_of hc (by decide)
  with_reducible assumption

theorem jackResponse_within {cs : List Part} {r : State} (b : Sys2Proof.Bytes) (fuseOk : Bool) (s : State)
    (hc : subParts [.modes, .mode, .faults, .drowse, .busy, .live, .keys, .vault, .flash, .tally, .jack, .endpoint, .scratch, .integ, .fresh, .out] cs = true) (h : Within cs r s) : PairWithin cs r (jackResponse b fuseOk s) := by
  delta jackResponse
  with_reducible refine pairWithin_ite (fun _ => ?_) (fun _ => ?_)
  with_reducible refine within_mkP ?_
  with_reducible assumption
  with_reducible refine pairWithin_ite (fun _ => ?_) (fun _ => ?_)
  with_reducible refine within_mkP ?_
  with_reducible apply jackOpen_within
  with_reducible exact sub_of hc (by decide)
  with_reducible assumption
  with_reducible refine within_mkP ?_
  with_reducible assumption

theorem sendCulvert_within {cs : List Part} {r : State} (type : Nat) (body : Sys2Proof.Bytes) (s : State) (hc : subParts [.pair, .out] cs = true) (h : Within cs r s) : Within cs r (sendCulvert type body s) := by
  delta sendCulvert
  with_reducible refine within_ite (fun _ => ?_) (fun _ => ?_)
  with_reducible apply emit_within
  with_reducible exact sub_of hc (by decide)
  with_reducible assumption
  with_reducible refine within_ite (fun _ => ?_) (fun _ => ?_)
  with_reducible assumption
  with_reducible apply onPair_within
  with_reducible exact sub_of hc (by decide)
  with_reducible assumption

theorem sendWaiting_within {cs : List Part} {r : State} (s : State) (hc : subParts [.pair, .out] cs = true) (h : Within cs r s) : Within cs r (sendWaiting s) := by
  delta sendWaiting
  extract_lets a5
  with_reducible refine within_foldl (fun _ _ _ => ?_) ?_
  with_reducible apply emit_within
  with_reducible exact sub_of hc (by decide)
  with_reducible assumption
  with_reducible apply onPair_within
  with_reducible exact sub_of hc (by decide)
  with_reducible assumption

theorem dropReservations_within {cs : List Part} {r : State} (s : State) (hc : subParts [.buckets, .tcam, .pair] cs = true) (h : Within cs r s) : Within cs r (dropReservations s) := by
  delta dropReservations
  with_reducible apply onBuckets_within
  with_reducible exact sub_of hc (by decide)
  with_reducible apply onTcam_within
  with_reducible exact sub_of hc (by decide)
  with_reducible apply onPair_within
  with_reducible exact sub_of hc (by decide)
  with_reducible assumption

theorem sendDomino_within {cs : List Part} {r : State} (type : Nat) (body : Sys2Proof.Bytes) (s : State) (hc : subParts [.out] cs = true) (h : Within cs r s) : Within cs r (sendDomino type body s) := by
  delta sendDomino
  with_reducible refine within_ite (fun _ => ?_) (fun _ => ?_)
  with_reducible apply emit_within
  with_reducible exact sub_of hc (by decide)
  with_reducible assumption
  with_reducible assumption

theorem setPairState_within {cs : List Part} {r : State} (new : Nat) (s : State) (hc : subParts [.mode, .faults, .drowse, .busy, .live, .vault, .tally, .endpoint, .buckets, .tcam, .links, .pair, .out] cs = true) (h : Within cs r s) : Within cs r (setPairState new s) := by
  delta setPairState
  extract_lets a6 a7 a8 a9 a10 a11 a12 a13 a14
  have e_a7 : Within cs r a7 := by
    unfold a7
    with_reducible refine within_ite (fun _ => ?_) (fun _ => ?_)
    with_reducible apply onPair_within
    with_reducible exact sub_of hc (by decide)
    with_reducible apply State.put_within
    with_reducible exact sub_of hc (by decide)
    with_reducible assumption
    with_reducible assumption
  clear_value a7
  have e_a8 : Within cs r a8 := by
    unfold a8
    with_reducible apply onPair_within
    with_reducible exact sub_of hc (by decide)
    with_reducible assumption
  clear_value a8
  have e_a9 : Within cs r a9 := by
    unfold a9
    with_reducible refine within_ite (fun _ => ?_) (fun _ => ?_)
    with_reducible apply dropReservations_within
    with_reducible exact sub_of hc (by decide)
    with_reducible assumption
    with_reducible assumption
  clear_value a9
  have e_a10 : Within cs r a10 := by
    unfold a10
    with_reducible apply State.put_within
    with_reducible exact sub_of hc (by decide)
    with_reducible assumption
  clear_value a10
  have e_a11 : Within cs r a11 := by
    unfold a11
    with_reducible refine within_ite (fun _ => ?_) (fun _ => ?_)
    with_reducible apply State.put_within
    with_reducible exact sub_of hc (by decide)
    with_reducible assumption
    with_reducible refine within_ite (fun _ => ?_) (fun _ => ?_)
    with_reducible apply State.put_within
    with_reducible exact sub_of hc (by decide)
    with_reducible assumption
    with_reducible assumption
  clear_value a11
  have e_a12 : Within cs r a12 := by
    unfold a12
    with_reducible refine within_ite (fun _ => ?_) (fun _ => ?_)
    with_reducible apply drowseTrigger_within
    with_reducible exact sub_of hc (by decide)
    with_reducible assumption
    with_reducible assumption
  clear_value a12
  have e_a13 : Within cs r a13 := by
    unfold a13
    with_reducible apply settleMode_within
    with_reducible exact sub_of hc (by decide)
    with_reducible assumption
  clear_value a13
  have e_a14 : Within cs r a14 := by
    unfold a14
    with_reducible refine within_ite (fun _ => ?_) (fun _ => ?_)
    with_reducible apply raiseFault_within
    with_reducible exact sub_of hc (by decide)
    with_reducible assumption
    with_reducible refine within_ite (fun _ => ?_) (fun _ => ?_)
    with_reducible apply clearFault_within
    with_reducible exact sub_of hc (by decide)
    with_reducible assumption
    with_reducible assumption
  clear_value a14
  with_reducible refine within_ite (fun _ => ?_) (fun _ => ?_)
  with_reducible assumption
  with_reducible apply settleGrants_within
  with_reducible exact sub_of hc (by decide)
  with_reducible apply vector_within
  with_reducible exact sub_of hc (by decide)
  with_reducible assumption

theorem trainCulvert_within {cs : List Part} {r : State} (fresh : Bool) (s : State) (hc : subParts [.pair, .out] cs = true) (h : Within cs r s) : Within cs r (trainCulvert fresh s) := by
  delta trainCulvert
  extract_lets a6 a7
  have e_a6 : Within cs r a6 := by
    unfold a6
    with_reducible refine within_ite (fun _ => ?_) (fun _ => ?_)
    with_reducible apply onPair_within
    with_reducible exact sub_of hc (by decide)
    with_reducible assumption
    with_reducible assumption
  clear_value a6
  with_reducible refine within_ite (fun _ => ?_) (fun _ => ?_)
  with_reducible assumption
  with_reducible apply emit_within
  with_reducible exact sub_of hc (by decide)
  with_reducible assumption

theorem enableCulvert_within {cs : List Part} {r : State} (s : State) (hc : subParts [.live, .pair, .out] cs = true) (h : Within cs r s) : Within cs r (enableCulvert s) := by
  delta enableCulvert
  with_reducible apply trainCulvert_within
  with_reducible exact sub_of hc (by decide)
  with_reducible apply State.put_within
  with_reducible exact sub_of hc (by decide)
  with_reducible assumption

theorem disableCulvert_within {cs : List Part} {r : State} (s : State) (hc : subParts [.live, .pair] cs = true) (h : Within cs r s) : Within cs r (disableCulvert s) := by
  delta disableCulvert
  with_reducible apply onPair_within
  with_reducible exact sub_of hc (by decide)
  with_reducible apply State.put_within
  with_reducible exact sub_of hc (by decide)
  with_reducible assumption

theorem enterPairing_within {cs : List Part} {r : State} (s : State) (hc : subParts [.mode, .faults, .drowse, .busy, .live, .vault, .tally, .endpoint, .buckets, .tcam, .links, .pair, .out] cs = true) (h : Within cs r s) : Within cs r (enterPairing s) := by
  delta enterPairing
  with_reducible apply setPairState_within
  with_reducible exact sub_of hc (by decide)
  with_reducible assumption

theorem pairAgain_within {cs : List Part} {r : State} (s : State) (hc : subParts [.mode, .faults, .drowse, .busy, .live, .vault, .tally, .endpoint, .buckets, .tcam, .links, .pair, .out] cs = true) (h : Within cs r s) : Within cs r (pairAgain s) := by
  delta pairAgain
  with_reducible apply enterPairing_within
  with_reducible exact sub_of hc (by decide)
  with_reducible apply enableCulvert_within
  with_reducible exact sub_of hc (by decide)
  with_reducible assumption

theorem splitPair_within {cs : List Part} {r : State} (kind : Nat) (s : State) (hc : subParts [.mode, .faults, .drowse, .busy, .live, .vault, .tally, .endpoint, .buckets, .tcam, .links, .pair, .out] cs = true) (h : Within cs r s) : Within cs r (splitPair kind s) := by
  delta splitPair
  with_reducible apply setPairState_within
  with_reducible exact sub_of hc (by decide)
  with_reducible apply pairDisagree_within
  with_reducible exact sub_of hc (by decide)
  with_reducible assumption

theorem startGrace_within {cs : List Part} {r : State} (s : State) (hc : subParts [.pair] cs = true) (h : Within cs r s) : Within cs r (startGrace s) := by
  delta startGrace
  with_reducible refine within_ite (fun _ => ?_) (fun _ => ?_)
  with_reducible assumption
  with_reducible apply onPair_within
  with_reducible exact sub_of hc (by decide)
  with_reducible assumption

theorem compareDigests_within {cs : List Part} {r : State} (s : State) (hc : subParts [.mode, .faults, .drowse, .busy, .live, .vault, .tally, .endpoint, .buckets, .tcam, .links, .pair, .out] cs = true) (h : Within cs r s) : Within cs r (compareDigests s) := by
  delta compareDigests
  split
  with_reducible assumption
  extract_lets a10 a11
  with_reducible refine within_ite (fun _ => ?_) (fun _ => ?_)
  with_reducible refine within_ite (fun _ => ?_) (fun _ => ?_)
  with_reducible apply onPair_within
  with_reducible exact sub_of hc (by decide)
  with_reducible assumption
  with_reducible apply startGrace_within
  with_reducible exact sub_of hc (by decide)
  with_reducible assumption
  with_reducible refine within_ite (fun _ => ?_) (fun _ => ?_)
  with_reducible apply pairAgain_within
  with_reducible exact sub_of hc (by decide)
  with_reducible assumption
  with_reducible assumption

theorem sendConfigDigest_within {cs : List Part} {r : State} (s : State) (hc : subParts [.pair, .out] cs = true) (h : Within cs r s) : Within cs r (sendConfigDigest s) := by
  delta sendConfigDigest
  with_reducible refine within_ite (fun _ => ?_) (fun _ => ?_)
  with_reducible assumption
  with_reducible apply sendCulvert_within
  with_reducible exact sub_of hc (by decide)
  with_reducible assumption

theorem pairCommit_within {cs : List Part} {r : State} (s : State) (hc : subParts [.mode, .faults, .drowse, .busy, .live, .vault, .tally, .endpoint, .buckets, .tcam, .links, .pair, .out] cs = true) (h : Within cs r s) : Within cs r (pairCommit s) := by
  delta pairCommit
  extract_lets a5
  with_reducible refine within_ite (fun _ => ?_) (fun _ => ?_)
  with_reducible refine within_ite (fun _ => ?_) (fun _ => ?_)
  with_reducible assumption
  with_reducible apply disableCulvert_within
  with_reducible exact sub_of hc (by decide)
  with_reducible apply setPairState_within
  with_reducible exact sub_of hc (by decide)
  with_reducible assumption
  with_reducible refine within_ite (fun _ => ?_) (fun _ => ?_)
  with_reducible apply sendConfigDigest_within
  with_reducible exact sub_of hc (by decide)
  with_reducible apply enterPairing_within
  with_reducible exact sub_of hc (by decide)
  with_reducible apply enableCulvert_within
  with_reducible exact sub_of hc (by decide)
  with_reducible assumption
  with_reducible apply compareDigests_within
  with_reducible exact sub_of hc (by decide)
  with_reducible apply sendConfigDigest_within
  with_reducible exact sub_of hc (by decide)
  with_reducible assumption

theorem setChainState_within {cs : List Part} {r : State} (new : Nat) (s : State) (hc : subParts [.faults, .live, .endpoint, .out] cs = true) (h : Within cs r s) : Within cs r (setChainState new s) := by
  delta setChainState
  with_reducible refine within_ite (fun _ => ?_) (fun _ => ?_)
  with_reducible assumption
  extract_lets a7
  have e_a7 : Within cs r a7 := by
    unfold a7
    with_reducible apply vector_within
    with_reducible exact sub_of hc (by decide)
    with_reducible apply State.put_within
    with_reducible exact sub_of hc (by decide)
    with_reducible assumption
  clear_value a7
  with_reducible refine within_ite (fun _ => ?_) (fun _ => ?_)
  with_reducible apply raiseFault_within
  with_reducible exact sub_of hc (by decide)
  with_reducible assumption
  with_reducible refine within_ite (fun _ => ?_) (fun _ => ?_)
  with_reducible apply clearFault_within
  with_reducible exact sub_of hc (by decide)
  with_reducible assumption
  with_reducible assumption

theorem sendChainDigest_within {cs : List Part} {r : State} (s : State) (hc : subParts [.out] cs = true) (h : Within cs r s) : Within cs r (sendChainDigest s) := by
  delta sendChainDigest
  with_reducible apply sendDomino_within
  with_reducible exact sub_of hc (by decide)
  with_reducible assumption

theorem judgeMembers_within {cs : List Part} {r : State} (s : State) (hc : subParts [.faults, .live, .vault, .tally, .endpoint, .out] cs = true) (h : Within cs r s) : Within cs r (judgeMembers s) := by
  delta judgeMembers
  extract_lets a5 a6 a7 a8 a9
  have e_a8 : Within cs r a8 := by
    unfold a8
    with_reducible refine within_foldl (fun _ _ _ => ?_) ?_
    with_reducible apply pairDisagree_within
    with_reducible exact sub_of hc (by decide)
    with_reducible assumption
    with_reducible apply State.put_within
    with_reducible exact sub_of hc (by decide)
    with_reducible assumption
  clear_value a8
  with_reducible refine within_ite (fun _ => ?_) (fun _ => ?_)
  with_reducible apply setChainState_within
  with_reducible exact sub_of hc (by decide)
  with_reducible assumption
  with_reducible refine within_ite (fun _ => ?_) (fun _ => ?_)
  with_reducible apply setChainState_within
  with_reducible exact sub_of hc (by decide)
  with_reducible assumption
  with_reducible assumption

theorem chainCommit_within {cs : List Part} {r : State} (s : State) (hc : subParts [.faults, .live, .vault, .tally, .endpoint, .out] cs = true) (h : Within cs r s) : Within cs r (chainCommit s) := by
  delta chainCommit
  with_reducible refine within_ite (fun _ => ?_) (fun _ => ?_)
  with_reducible assumption
  extract_lets a6
  have e_a6 : Within cs r a6 := by
    unfold a6
    with_reducible apply sendChainDigest_within
    with_reducible exact sub_of hc (by decide)
    with_reducible assumption
  clear_value a6
  with_reducible refine within_ite (fun _ => ?_) (fun _ => ?_)
  with_reducible apply judgeMembers_within
  with_reducible exact sub_of hc (by decide)
  with_reducible assumption
  with_reducible assumption

theorem canCommit_within {cs : List Part} {r : State} (old : SMap Nat) (s : State) (hc : subParts [.live, .can] cs = true) (h : Within cs r s) : Within cs r (canCommit old s) := by
  delta canCommit
  extract_lets a6 a7 a8 a9 a10
  have e_a10 : Within cs r a10 := by
    unfold a10
    with_reducible refine within_set_can (sub_of hc (by decide)) id ?_
    with_reducible assumption
  with_reducible refine within_ite (fun _ => ?_) (fun _ => ?_)
  with_reducible refine within_ite (fun _ => ?_) (fun _ => ?_)
  with_reducible apply State.put_within
  with_reducible exact sub_of hc (by decide)
  with_reducible assumption
  with_reducible assumption
  with_reducible refine within_ite (fun _ => ?_) (fun _ => ?_)
  with_reducible refine within_set_can (sub_of hc (by decide)) id ?_
  with_reducible assumption
  with_reducible refine within_ite (fun _ => ?_) (fun _ => ?_)
  with_reducible refine within_set_can (sub_of hc (by decide)) id ?_
  with_reducible assumption
  with_reducible assumption

theorem takeConfig_within {cs : List Part} {r : State} (old : SMap Nat) (s : State)
    (hc : subParts [.wakes, .drowse, .busy, .live, .can, .keys, .tamper, .sluice, .endpoint, .rings, .scratch, .integ, .coh, .results, .tcam, .links, .slots, .headgate, .out] cs = true) (h : Within cs r s) : Within cs r (takeConfig old s) := by
  delta takeConfig
  extract_lets a6 a7 a8 a9
  have e_a6 : Within cs r a6 := by
    unfold a6
    with_reducible apply freshCommit_within
    with_reducible exact sub_of hc (by decide)
    with_reducible apply bucketCommit_within
    with_reducible exact sub_of hc (by decide)
    with_reducible apply tcamCommit_within
    with_reducible exact sub_of hc (by decide)
    with_reducible assumption
  clear_value a6
  have e_a7 : Within cs r a7 := by
    unfold a7
    with_reducible apply headgateCommit_within
    with_reducible exact sub_of hc (by decide)
    with_reducible apply bankCommit_within
    with_reducible exact sub_of hc (by decide)
    with_reducible assumption
  clear_value a7
  have e_a8 : Within cs r a8 := by
    unfold a8
    with_reducible apply takeArming_within
    with_reducible exact sub_of hc (by decide)
    with_reducible apply canCommit_within
    with_reducible exact sub_of hc (by decide)
    with_reducible assumption
  clear_value a8
  have e_a9 : Within cs r a9 := by
    unfold a9
    with_reducible refine within_ite (fun _ => ?_) (fun _ => ?_)
    with_reducible assumption
    with_reducible apply askSluice_within
    with_reducible exact sub_of hc (by decide)
    with_reducible assumption
    with_reducible intro _ _
    with_reducible apply sluiceCommit_within
    with_reducible exact sub_of hc (by decide)
    with_reducible assumption
  clear_value a9
  with_reducible refine within_ite (fun _ => ?_) (fun _ => ?_)
  with_reducible assumption
  with_reducible refine within_ite (fun _ => ?_) (fun _ => ?_)
  with_reducible apply drowseTrigger_within
  with_reducible exact sub_of hc (by decide)
  with_reducible assumption
  with_reducible apply drowseBusy_within
  with_reducible exact sub_of hc (by decide)
  with_reducible assumption

theorem applyConfig_within {cs : List Part} {r : State} (snap : SMap Nat) (s : State)
    (hc : subParts [.wakes, .drowse, .busy, .live, .can, .keys, .tamper, .sluice, .endpoint, .rings, .scratch, .integ, .coh, .results, .tcam, .links, .slots, .headgate, .out] cs = true) (h : Within cs r s) : Within cs r (applyConfig snap s) := by
  delta applyConfig
  with_reducible apply takeConfig_within
  with_reducible exact sub_of hc (by decide)
  with_reducible refine within_set_dict_live (sub_of hc (by decide)) ?_
  with_reducible assumption

theorem presetCommit_within {cs : List Part} {r : State} (old : SMap Nat) (s : State) (hc : subParts [.live, .pair, .out] cs = true) (h : Within cs r s) : Within cs r (presetCommit old s) := by
  delta presetCommit
  extract_lets a6 a7
  have e_a7 : Within cs r a7 := by
    unfold a7
    with_reducible refine within_ite (fun _ => ?_) (fun _ => ?_)
    with_reducible apply trainCulvert_within
    with_reducible exact sub_of hc (by decide)
    with_reducible apply State.put_within
    with_reducible exact sub_of hc (by decide)
    with_reducible assumption
    with_reducible assumption
  clear_value a7
  with_reducible refine within_ite (fun _ => ?_) (fun _ => ?_)
  with_reducible apply emit_within
  with_reducible exact sub_of hc (by decide)
  with_reducible assumption
  with_reducible assumption

theorem commitNow_within {cs : List Part} {r : State} (s : State)
    (hc : subParts [.wakes, .mode, .faults, .drowse, .busy, .live, .dict, .can, .keys, .vault, .tally, .tamper, .sluice, .endpoint, .rings, .scratch, .integ, .coh, .results, .buckets, .tcam, .links, .slots, .headgate, .pair, .out] cs = true) (h : Within cs r s) : PairWithin cs r (commitNow s) := by
  delta commitNow
  extract_lets a5 a6 a7 a8 a9 a10 a11
  have e_a9 : Within cs r a9 := by
    unfold a9
    with_reducible apply applyConfig_within
    with_reducible exact sub_of hc (by decide)
    with_reducible refine within_set_dict_staging (sub_of hc (by decide)) ?_
    with_reducible assumption
  clear_value a9
  have e_a10 : Within cs r a10 := by
    unfold a10
    with_reducible refine within_ite (fun _ => ?_) (fun _ => ?_)
    with_reducible apply askSluice_within
    with_reducible exact sub_of hc (by decide)
    with_reducible assumption
    with_reducible intro _ _
    with_reducible apply sluiceCommit_within
    with_reducible exact sub_of hc (by decide)
    with_reducible assumption
    with_reducible assumption
  clear_value a10
  have e_a11 : Within cs r a11 := by
    unfold a11
    with_reducible apply State.bump_within
    with_reducible exact sub_of hc (by decide)
    with_reducible apply State.put_within
    with_reducible exact sub_of hc (by decide)
    with_reducible apply State.put_within
    with_reducible exact sub_of hc (by decide)
    with_reducible assumption
  clear_value a11
  split
  with_reducible refine within_mkP ?_
  with_reducible apply State.put_within
  with_reducible exact sub_of hc (by decide)
  with_reducible apply State.put_within
  with_reducible exact sub_of hc (by decide)
  with_reducible assumption
  with_reducible refine within_mkP ?_
  with_reducible apply chainCommit_within
  with_reducible exact sub_of hc (by decide)
  with_reducible apply pairCommit_within
  with_reducible exact sub_of hc (by decide)
  with_reducible apply presetCommit_within
  with_reducible exact sub_of hc (by decide)
  with_reducible assumption

theorem onKeys_within {cs : List Part} {r : State} (f : Keys → Keys) (s : State) (hc : subParts [.keys, .vault] cs = true) (h : Within cs r s) (hf : ∀ k, k.fuses ≤ (f k).fuses) : Within cs r (onKeys f s) := by
  delta onKeys
  with_reducible refine within_update (ps := [.keys, .vault]) rfl (sub_of hc (by decide)) (fun p hp => by cases p <;> first | exact absurd (by decide) hp | with_unfolding_all rfl) ?_ ?_ ?_ ?_ ?_ ?_ ?_ ?_ ?_ ?_ ?_ ?_ ?_ ?_ ?_
  with_reducible rfl
  with_reducible exact Nat.le_refl _
  with_reducible exact hf _
  with_reducible exact List.suffix_refl _
  with_reducible exact id
  with_reducible exact id
  with_reducible exact id
  with_reducible exact id
  with_reducible exact id
  with_reducible exact id
  with_reducible exact id
  with_reducible exact id
  with_reducible exact id
  with_reducible exact id
  with_reducible assumption

theorem setEntry_within {cs : List Part} {r : State} (h_ : Nat) (e : VaultEntry) (s : State) (hc : subParts [.keys, .vault] cs = true) (h : Within cs r s) : Within cs r (setEntry h_ e s) := by
  delta setEntry
  with_reducible apply onKeys_within
  with_reducible exact sub_of hc (by decide)
  with_reducible assumption
  with_reducible exact fun _ => Nat.le_refl _

theorem setKeySlot_within {cs : List Part} {r : State} (n : Nat) (v : KeySlot) (s : State) (hc : subParts [.keys, .vault] cs = true) (h : Within cs r s) : Within cs r (setKeySlot n v s) := by
  delta setKeySlot
  with_reducible apply onKeys_within
  with_reducible exact sub_of hc (by decide)
  with_reducible assumption
  with_reducible exact fun _ => Nat.le_refl _

theorem applyKeyLoad_within {cs : List Part} {r : State} (b : Sys2Proof.Bytes) (s : State) (hc : subParts [.keys, .vault] cs = true) (h : Within cs r s) : AppliedWithin cs r (applyKeyLoad b s) := by
  delta applyKeyLoad
  extract_lets a6
  split
  with_reducible exact within_abad
  split
  with_reducible exact within_abad
  with_reducible refine within_aok ?_
  with_reducible refine within_foldl (fun _ _ _ => ?_) ?_
  with_reducible apply setEntry_within
  with_reducible exact sub_of hc (by decide)
  with_reducible assumption
  with_reducible assumption

theorem applyWorking_within {cs : List Part} {r : State} (b : Sys2Proof.Bytes) (old : Option Sys2Proof.Bytes) (s : State) (hc : subParts [.keys, .vault] cs = true) (h : Within cs r s) : AppliedWithin cs r (applyWorking b old s) := by
  delta applyWorking
  split
  with_reducible exact within_abad
  split
  with_reducible exact within_abad
  extract_lets a13
  with_reducible refine within_aok ?_
  with_reducible refine within_foldl (fun _ _ _ => ?_) ?_
  with_reducible apply setKeySlot_within
  with_reducible exact sub_of hc (by decide)
  with_reducible assumption
  with_reducible refine within_foldl (fun _ _ _ => ?_) ?_
  with_reducible apply setKeySlot_within
  with_reducible exact sub_of hc (by decide)
  with_reducible assumption
  with_reducible assumption

theorem revokeSlot_within {cs : List Part} {r : State} (n : Nat) (s : State) (hc : subParts [.keys, .vault] cs = true) (h : Within cs r s) : Within cs r (revokeSlot n s) := by
  delta revokeSlot
  extract_lets a6
  with_reducible refine within_ite (fun _ => ?_) (fun _ => ?_)
  with_reducible assumption
  with_reducible apply setKeySlot_within
  with_reducible exact sub_of hc (by decide)
  with_reducible assumption

theorem revokeEntry_within {cs : List Part} {r : State} (h_ : Nat) (counter : Nat) (s : State) (hc : subParts [.keys, .vault] cs = true) (h : Within cs r s) : Within cs r (revokeEntry h_ counter s) := by
  delta revokeEntry
  extract_lets a7 a8
  have e_a8 : Within cs r a8 := by
    unfold a8
    with_reducible refine within_ite (fun _ => ?_) (fun _ => ?_)
    with_reducible assumption
    with_reducible apply setEntry_within
    with_reducible exact sub_of hc (by decide)
    with_reducible assumption
  clear_value a8
  with_reducible refine within_foldl (fun _ _ _ => ?_) ?_
  with_reducible apply revokeSlot_within
  with_reducible exact sub_of hc (by decide)
  with_reducible assumption
  with_reducible assumption

theorem revokeAgain_within {cs : List Part} {r : State} (h_ : Nat) (counter : Nat) (s : State) (hc : subParts [.keys, .vault] cs = true) (h : Within cs r s) : Within cs r (revokeAgain h_ counter s) := by
  delta revokeAgain
  with_reducible refine within_ite (fun _ => ?_) (fun _ => ?_)
  with_reducible apply revokeEntry_within
  with_reducible exact sub_of hc (by decide)
  with_reducible assumption
  with_reducible refine within_foldl (fun _ _ _ => ?_) ?_
  with_reducible apply revokeSlot_within
  with_reducible exact sub_of hc (by decide)
  with_reducible assumption
  with_reducible assumption

theorem applyRevoke_within {cs : List Part} {r : State} (start : Bool) (b : Sys2Proof.Bytes) (s : State) (hc : subParts [.keys, .vault] cs = true) (h : Within cs r s) : AppliedWithin cs r (applyRevoke start b s) := by
  delta applyRevoke
  extract_lets a7 a8 a9 a10 a11 a12
  have e_a10 : Within cs r a10 := by
    unfold a10
    with_reducible refine within_foldl (fun _ _ _ => ?_) ?_
    dsimp only [a9]
    with_reducible refine within_ite (fun _ => ?_) (fun _ => ?_)
    with_reducible apply revokeSlot_within
    with_reducible exact sub_of hc (by decide)
    with_reducible assumption
    with_reducible refine within_ite (fun _ => ?_) (fun _ => ?_)
    with_reducible apply revokeAgain_within
    with_reducible exact sub_of hc (by decide)
    with_reducible assumption
    with_reducible apply revokeEntry_within
    with_reducible exact sub_of hc (by decide)
    with_reducible assumption
    with_reducible assumption
  clear_value a10
  split
  with_reducible exact within_abad
  split
  with_reducible refine within_ajob ?_
  with_reducible assumption
  with_reducible refine within_aok ?_
  with_reducible assumption

theorem applyTable_within {cs : List Part} {r : State} (b : Sys2Proof.Bytes) (old : Option Sys2Proof.Bytes) (s : State) (hc : subParts [.live, .vault, .tally, .endpoint, .integ, .coh, .results, .buckets, .fresh, .out] cs = true) (h : Within cs r s) : AppliedWithin cs r (applyTable b old s) := by
  delta applyTable
  extract_lets a7 a8 a9 a10 a11 a12
  split
  with_reducible exact within_abad
  (clear_value a7; split)
  split
  with_reducible exact within_await
  split
  with_reducible refine within_ajob ?_
  with_reducible refine within_of_inrP (by assumption) ?_
  with_reducible apply sealTcam_within
  with_reducible exact sub_of hc (by decide)
  with_reducible assumption
  with_reducible exact within_abad
  split
  with_reducible exact within_await
  dsimp only [a10]
  split
  with_reducible refine within_aok ?_
  with_reducible refine within_of_inr (by assumption) ?_
  with_reducible apply sealBuckets_within
  with_reducible exact sub_of hc (by decide)
  with_reducible apply drainOps_within
  with_reducible exact sub_of hc (by decide)
  with_reducible assumption
  with_reducible exact within_abad
  split
  with_reducible exact within_aabsent
  split
  with_reducible exact within_await
  dsimp only [a10]
  split
  with_reducible refine within_aok ?_
  with_reducible refine within_of_inr (by assumption) ?_
  with_reducible apply sealBuckets_within
  with_reducible exact sub_of hc (by decide)
  with_reducible apply drainOps_within
  with_reducible exact sub_of hc (by decide)
  with_reducible assumption
  with_reducible exact within_abad
  split
  with_reducible exact within_await
  dsimp only [a11]
  split
  with_reducible refine within_aok ?_
  with_reducible refine within_of_some (by assumption) ?_
  with_reducible apply sealRecords_within
  with_reducible exact sub_of hc (by decide)
  with_reducible assumption
  with_reducible exact within_abad
  dsimp only [a11]
  split
  with_reducible refine within_aok ?_
  with_reducible refine within_of_some (by assumption) ?_
  with_reducible apply sealMeters_within
  with_reducible exact sub_of hc (by decide)
  with_reducible assumption
  with_reducible exact within_abad
  with_reducible exact within_abad

theorem applyConfigSet_within {cs : List Part} {r : State} (b : Sys2Proof.Bytes) (s : State)
    (hc : subParts [.wakes, .drowse, .busy, .live, .dict, .can, .keys, .tamper, .sluice, .endpoint, .rings, .scratch, .integ, .coh, .results, .tcam, .links, .slots, .headgate, .out] cs = true) (h : Within cs r s) : AppliedWithin cs r (applyConfigSet b s) := by
  delta applyConfigSet
  split
  with_reducible exact within_abad
  split
  with_reducible exact within_abad
  extract_lets a12 a13 a14 a15 a16 a17 a18 a19
  have e_a15 : Within cs r a15 := by
    unfold a15
    with_reducible refine within_set_dict_sealedBy (sub_of hc (by decide)) ?_
    with_reducible assumption
  clear_value a15
  have e_a17 : Within cs r a17 := by
    unfold a17
    with_reducible apply applyConfig_within
    with_reducible exact sub_of hc (by decide)
    with_reducible assumption
  clear_value a17
  have e_a19 : Within cs r a19 := by
    unfold a19
    with_reducible refine within_set_dict_sealedBy (sub_of hc (by decide)) ?_
    with_reducible assumption
  clear_value a19
  split
  with_reducible exact within_abad
  with_reducible refine within_aok ?_
  with_reducible refine within_foldl (fun _ _ _ => ?_) ?_
  with_reducible apply sealFresh_within
  with_reducible exact sub_of hc (by decide)
  with_reducible assumption
  with_reducible assumption

theorem applyFreshness_within {cs : List Part} {r : State} (b : Sys2Proof.Bytes) (s : State) (hc : subParts [.live, .coh, .results, .headgate] cs = true) (h : Within cs r s) : AppliedWithin cs r (applyFreshness b s) := by
  delta applyFreshness
  extract_lets a6 a7 a8
  split
  with_reducible exact within_abad
  with_reducible refine within_aok ?_
  with_reducible refine within_foldl (fun _ _ _ => ?_) ?_
  with_reducible apply setFresh_within
  with_reducible exact sub_of hc (by decide)
  with_reducible assumption
  with_reducible assumption

theorem applyCommission_within {cs : List Part} {r : State} (b : Sys2Proof.Bytes) (s : State) (hc : subParts [.keys, .vault] cs = true) (h : Within cs r s) : AppliedWithin cs r (applyCommission b s) := by
  delta applyCommission
  split
  with_reducible exact within_abad
  extract_lets a7
  have e_a7 : Within cs r a7 := by
    unfold a7
    with_reducible apply onKeys_within
    with_reducible exact sub_of hc (by decide)
    with_reducible assumption
    with_reducible exact fun _ => Nat.le_refl _
  clear_value a7
  with_reducible refine within_aok ?_
  with_reducible apply onVault_within
  with_reducible exact sub_of hc (by decide)
  with_reducible assumption

theorem applyRecover_within {cs : List Part} {r : State} (b : Sys2Proof.Bytes) (s : State) (hc : subParts [.vault] cs = true) (h : Within cs r s) : AppliedWithin cs r (applyRecover b s) := by
  delta applyRecover
  split
  with_reducible exact within_abad
  with_reducible refine within_aok ?_
  with_reducible apply onVault_within
  with_reducible exact sub_of hc (by decide)
  with_reducible assumption

theorem storeBundle_within {cs : List Part} {r : State} (b : Sys2Proof.Bytes) (counter : Nat) (s : State) (hc : subParts [.vault, .flash, .fresh] cs = true) (h : Within cs r s) : Within cs r (storeBundle b counter s) := by
  delta storeBundle
  extract_lets a7 a8 a9
  split
  extract_lets a16 a17 a18
  have e_a18 : Within cs r a18 := by
    unfold a18
    with_reducible refine within_set_flash (sub_of hc (by decide)) ?_
    with_reducible refine within_of_pair (by assumption) ?_
    with_reducible apply sign_within
    with_reducible exact sub_of hc (by decide)
    with_reducible assumption
  clear_value a18
  with_reducible apply onVault_within
  with_reducible exact sub_of hc (by decide)
  with_reducible assumption

theorem applyPayload_within {cs : List Part} {r : State} (start : Bool) (b : Sys2Proof.Bytes) (s : State)
    (hc : subParts [.wakes, .drowse, .busy, .live, .dict, .can, .keys, .vault, .tally, .tamper, .sluice, .endpoint, .rings, .scratch, .integ, .coh, .results, .buckets, .tcam, .links, .slots, .headgate, .fresh, .out] cs = true) (h : Within cs r s) : AppliedWithin cs r (applyPayload start b s) := by
  delta applyPayload
  extract_lets a7
  split
  with_reducible apply applyCommission_within
  with_reducible exact sub_of hc (by decide)
  with_reducible assumption
  with_reducible apply applyRecover_within
  with_reducible exact sub_of hc (by decide)
  with_reducible assumption
  with_reducible apply applyKeyLoad_within
  with_reducible exact sub_of hc (by decide)
  with_reducible assumption
  with_reducible apply applyWorking_within
  with_reducible exact sub_of hc (by decide)
  with_reducible assumption
  with_reducible apply applyRevoke_within
  with_reducible exact sub_of hc (by decide)
  with_reducible assumption
  with_reducible apply applyTable_within
  with_reducible exact sub_of hc (by decide)
  with_reducible assumption
  with_reducible apply applyConfigSet_within
  with_reducible exact sub_of hc (by decide)
  with_reducible assumption
  with_reducible apply applyFreshness_within
  with_reducible exact sub_of hc (by decide)
  with_reducible assumption

theorem receiptOf_within {cs : List Part} {r : State} (b : Sys2Proof.Bytes) (tally : Nat) (time : Nat) (s : State) (hc : subParts [.fresh] cs = true) (h : Within cs r s) : PairWithin cs r (receiptOf b tally time s) := by
  delta receiptOf
  extract_lets a8
  split
  with_reducible refine within_mkP ?_
  with_reducible refine within_of_pair (by assumption) ?_
  with_reducible apply sign_within
  with_reducible exact sub_of hc (by decide)
  with_reducible assumption

theorem keyEvent_within {cs : List Part} {r : State} (s : State) (hc : subParts [.keys, .vault] cs = true) (h : Within cs r s) : Within cs r (keyEvent s) := by
  delta keyEvent
  with_reducible apply onKeys_within
  with_reducible exact sub_of hc (by decide)
  with_reducible assumption
  with_reducible exact fun _ => Nat.le_refl _

theorem rejectBundle_within {cs : List Part} {r : State} (b : Sys2Proof.Bytes) (detail : Nat) (s : State) (hc : subParts [.live, .keys, .vault, .tally, .endpoint, .out] cs = true) (h : Within cs r s) : BundleWithin cs r (rejectBundle b detail s) := by
  delta rejectBundle
  extract_lets a7
  have e_a7 : Within cs r a7 := by
    unfold a7
    with_reducible apply State.put_within
    with_reducible exact sub_of hc (by decide)
    with_reducible apply State.bump_within
    with_reducible exact sub_of hc (by decide)
    with_reducible assumption
  clear_value a7
  with_reducible refine within_brej ?_
  with_reducible apply keyEvent_within
  with_reducible exact sub_of hc (by decide)
  with_reducible apply journal_within
  with_reducible exact sub_of hc (by decide)
  with_reducible assumption

theorem acceptBundle_within {cs : List Part} {r : State} (b : Sys2Proof.Bytes) (s : State) (hc : subParts [.modes, .mode, .faults, .busy, .live, .keys, .vault, .flash, .tally, .endpoint, .fresh, .out] cs = true) (h : Within cs r s) : PairWithin cs r (acceptBundle b s) := by
  delta acceptBundle
  extract_lets a6 a7 a8 a9 a10
  have e_a7 : Within cs r a7 := by
    unfold a7
    with_reducible apply storeBundle_within
    with_reducible exact sub_of hc (by decide)
    with_reducible assumption
  clear_value a7
  have e_a10 : Within cs r a10 := by
    unfold a10
    with_reducible apply journal_within
    with_reducible exact sub_of hc (by decide)
    with_reducible assumption
  clear_value a10
  split
  extract_lets a19 a20 a21
  have e_a19 : Within cs r a19 := by
    unfold a19
    with_reducible apply onKeys_within
    with_reducible exact sub_of hc (by decide)
    with_reducible refine within_of_pair (by assumption) ?_
    with_reducible apply receiptOf_within
    with_reducible exact sub_of hc (by decide)
    with_reducible assumption
    with_reducible exact fun _ => Nat.le_refl _
  clear_value a19
  have e_a20 : Within cs r a20 := by
    unfold a20
    with_reducible apply State.put_within
    with_reducible exact sub_of hc (by decide)
    with_reducible apply State.bump_within
    with_reducible exact sub_of hc (by decide)
    with_reducible assumption
  clear_value a20
  have e_a21 : Within cs r a21 := by
    unfold a21
    with_reducible refine within_ite (fun _ => ?_) (fun _ => ?_)
    with_reducible apply setLocked_within
    with_reducible exact sub_of hc (by decide)
    with_reducible assumption
    with_reducible refine within_ite (fun _ => ?_) (fun _ => ?_)
    with_reducible apply settleMode_within
    with_reducible exact sub_of hc (by decide)
    with_reducible assumption
    with_reducible assumption
  clear_value a21
  with_reducible refine within_mkP ?_
  with_reducible apply keyEvent_within
  with_reducible exact sub_of hc (by decide)
  with_reducible assumption

theorem accepted_within {cs : List Part} {r : State} (b : Sys2Proof.Bytes) (s : State) (hc : subParts [.modes, .mode, .faults, .busy, .live, .keys, .vault, .flash, .tally, .endpoint, .fresh, .out] cs = true) (h : Within cs r s) : BundleWithin cs r (accepted b s) := by
  delta accepted
  split
  with_reducible refine within_bacc ?_
  with_reducible refine within_of_pair (by assumption) ?_
  with_reducible apply acceptBundle_within
  with_reducible exact sub_of hc (by decide)
  with_reducible assumption

theorem sealJob_within {cs : List Part} {r : State} (b : Sys2Proof.Bytes) (j : ChainJob) (s : State)
    (hc : subParts [.modes, .mode, .faults, .busy, .live, .keys, .vault, .flash, .tally, .endpoint, .tcam, .fresh, .out] cs = true) (h : Within cs r s) : BundleWithin cs r (sealJob b j s) := by
  delta sealJob
  split
  split
  with_reducible apply accepted_within
  with_reducible exact sub_of hc (by decide)
  with_reducible refine within_of_pair (by assumption) ?_
  with_reducible apply runJob_within
  with_reducible exact sub_of hc (by decide)
  with_reducible assumption
  with_reducible refine within_bjob ?_
  with_reducible refine within_of_pair (by assumption) ?_
  with_reducible apply runJob_within
  with_reducible exact sub_of hc (by decide)
  with_reducible assumption

theorem submitBundle_within {cs : List Part} {r : State} (b : Sys2Proof.Bytes) (s : State)
    (hc : subParts [.wakes, .modes, .mode, .faults, .drowse, .busy, .live, .dict, .can, .keys, .vault, .flash, .tally, .tamper, .sluice, .endpoint, .rings, .scratch, .integ, .coh, .results, .buckets, .tcam, .links, .slots, .headgate, .fresh, .out] cs = true) (h : Within cs r s) : BundleWithin cs r (submitBundle b s) := by
  delta submitBundle
  split
  with_reducible apply rejectBundle_within
  with_reducible exact sub_of hc (by decide)
  with_reducible assumption
  split
  with_reducible apply rejectBundle_within
  with_reducible exact sub_of hc (by decide)
  with_reducible assumption
  split
  with_reducible refine within_balr ?_
  with_reducible apply keyEvent_within
  with_reducible exact sub_of hc (by decide)
  with_reducible apply State.put_within
  with_reducible exact sub_of hc (by decide)
  with_reducible apply State.bump_within
  with_reducible exact sub_of hc (by decide)
  with_reducible assumption
  split
  with_reducible apply rejectBundle_within
  with_reducible exact sub_of hc (by decide)
  with_reducible assumption
  split
  with_reducible apply rejectBundle_within
  with_reducible exact sub_of hc (by decide)
  with_reducible assumption
  split
  with_reducible apply rejectBundle_within
  with_reducible exact sub_of hc (by decide)
  with_reducible assumption
  with_reducible exact within_bwait
  with_reducible exact within_babsent
  split
  with_reducible apply accepted_within
  with_reducible exact sub_of hc (by decide)
  with_reducible refine within_of_aok (by assumption) ?_
  with_reducible apply applyPayload_within
  with_reducible exact sub_of hc (by decide)
  with_reducible assumption
  with_reducible apply rejectBundle_within
  with_reducible exact sub_of hc (by decide)
  with_reducible assumption
  split
  with_reducible apply sealJob_within
  with_reducible exact sub_of hc (by decide)
  with_reducible refine within_of_ajob (by assumption) ?_
  with_reducible apply applyPayload_within
  with_reducible exact sub_of hc (by decide)
  with_reducible assumption
  with_reducible apply rejectBundle_within
  with_reducible exact sub_of hc (by decide)
  with_reducible assumption

theorem writeReceipt_within {cs : List Part} {r : State} (d : Sys2Proof.Bytes) (receipt : Sys2Proof.Bytes) (s : State) (hc : subParts [.live, .scratch, .integ] cs = true) (h : Within cs r s) : Within cs r (writeReceipt d receipt s) := by
  delta writeReceipt
  extract_lets a7 a8
  with_reducible refine within_foldl (fun _ _ _ => ?_) ?_
  with_reducible apply scratchWrite_within
  with_reducible exact sub_of hc (by decide)
  with_reducible assumption
  with_reducible assumption

theorem opBundleSubmit_within {cs : List Part} {r : State} (m : Nat) (d : Sys2Proof.Bytes) (s : State)
    (hc : subParts [.wakes, .modes, .mode, .faults, .drowse, .busy, .live, .dict, .can, .keys, .vault, .flash, .tally, .tamper, .sluice, .endpoint, .rings, .scratch, .integ, .coh, .results, .buckets, .tcam, .links, .slots, .headgate, .fresh, .out] cs = true) (h : Within cs r s) : OpWithin cs r (opBundleSubmit m d s) := by
  delta opBundleSubmit
  extract_lets a7 a8 a9 a10
  have e_a10 : Within cs r a10 := by
    unfold a10
    with_reducible apply contend_within
    with_reducible exact sub_of hc (by decide)
    with_reducible assumption
  clear_value a10
  split
  with_reducible refine within_ofail ?_
  with_reducible assumption
  split
  with_reducible refine within_ofail ?_
  with_reducible apply countRefusals_within
  with_reducible exact sub_of hc (by decide)
  with_reducible assumption
  split
  with_reducible refine within_ofail ?_
  with_reducible assumption
  split
  with_reducible apply failUnreadable_within
  with_reducible exact sub_of hc (by decide)
  with_reducible assumption
  extract_lets a20
  split
  with_reducible exact within_owait
  split
  with_reducible refine within_ofail ?_
  with_reducible refine within_of_brej (by assumption) ?_
  with_reducible apply submitBundle_within
  with_reducible exact sub_of hc (by decide)
  with_reducible assumption
  with_reducible refine within_odone ?_
  with_reducible apply writeReceipt_within
  with_reducible exact sub_of hc (by decide)
  with_reducible refine within_of_balr (by assumption) ?_
  with_reducible apply submitBundle_within
  with_reducible exact sub_of hc (by decide)
  with_reducible assumption
  with_reducible refine within_odone ?_
  with_reducible apply writeReceipt_within
  with_reducible exact sub_of hc (by decide)
  with_reducible refine within_of_bacc (by assumption) ?_
  with_reducible apply submitBundle_within
  with_reducible exact sub_of hc (by decide)
  with_reducible assumption
  with_reducible refine within_ochain ?_
  with_reducible refine within_of_bjob (by assumption) ?_
  with_reducible apply submitBundle_within
  with_reducible exact sub_of hc (by decide)
  with_reducible assumption
  with_reducible exact within_owait
  with_reducible refine within_ofail ?_
  with_reducible assumption

theorem sealedMissing_within {cs : List Part} {r : State} (type : Nat) (scope : Nat) (counter : Nat) (s : State) (hc : subParts [.vault, .tally, .endpoint, .out] cs = true) (h : Within cs r s) : Within cs r (sealedMissing type scope counter s) := by
  delta sealedMissing
  with_reducible apply journal_within
  with_reducible exact sub_of hc (by decide)
  with_reducible assumption

theorem startBundle_within {cs : List Part} {r : State} (e : ManifestEntry) (s : State)
    (hc : subParts [.wakes, .drowse, .busy, .live, .dict, .can, .keys, .vault, .tally, .tamper, .sluice, .endpoint, .rings, .scratch, .integ, .coh, .results, .buckets, .tcam, .links, .slots, .headgate, .chain, .fresh, .out] cs = true) (h : Within cs r s) : Within cs r (startBundle e s) := by
  delta startBundle
  split
  with_reducible apply sealedMissing_within
  with_reducible exact sub_of hc (by decide)
  with_reducible assumption
  with_reducible refine within_ite (fun _ => ?_) (fun _ => ?_)
  with_reducible apply sealedMissing_within
  with_reducible exact sub_of hc (by decide)
  with_reducible assumption
  with_reducible refine within_ite (fun _ => ?_) (fun _ => ?_)
  with_reducible apply sealedMissing_within
  with_reducible exact sub_of hc (by decide)
  with_reducible assumption
  with_reducible refine within_ite (fun _ => ?_) (fun _ => ?_)
  with_reducible assumption
  with_reducible refine within_ite (fun _ => ?_) (fun _ => ?_)
  with_reducible apply onKeys_within
  with_reducible exact sub_of hc (by decide)
  with_reducible assumption
  with_reducible exact fun _ => Nat.le_refl _
  split
  with_reducible refine within_of_aok (by assumption) ?_
  with_reducible apply applyPayload_within
  with_reducible exact sub_of hc (by decide)
  with_reducible assumption
  with_reducible apply queueJob_within
  with_reducible exact sub_of hc (by decide)
  with_reducible refine within_of_ajob (by assumption) ?_
  with_reducible apply applyPayload_within
  with_reducible exact sub_of hc (by decide)
  with_reducible assumption
  with_reducible apply sealedMissing_within
  with_reducible exact sub_of hc (by decide)
  with_reducible assumption

theorem unanchored_within {cs : List Part} {r : State} (seq : Nat) (s : State) (hc : subParts [.vault, .tally, .endpoint, .out] cs = true) (h : Within cs r s) : Within cs r (unanchored seq s) := by
  delta unanchored
  with_reducible apply journal_within
  with_reducible exact sub_of hc (by decide)
  with_reducible assumption

theorem applyManifest_within {cs : List Part} {r : State} (s : State)
    (hc : subParts [.wakes, .drowse, .busy, .live, .dict, .can, .keys, .vault, .tally, .tamper, .sluice, .endpoint, .rings, .scratch, .integ, .coh, .results, .buckets, .tcam, .links, .slots, .headgate, .chain, .fresh, .out] cs = true) (h : Within cs r s) : Within cs r (applyManifest s) := by
  delta applyManifest
  extract_lets a5
  with_reducible refine within_ite (fun _ => ?_) (fun _ => ?_)
  dsimp only [a5]
  with_reducible refine within_foldl (fun _ _ _ => ?_) ?_
  with_reducible apply startBundle_within
  with_reducible exact sub_of hc (by decide)
  with_reducible assumption
  with_reducible apply unanchored_within
  with_reducible exact sub_of hc (by decide)
  with_reducible assumption
  with_reducible refine within_ite (fun _ => ?_) (fun _ => ?_)
  split
  with_reducible refine within_ite (fun _ => ?_) (fun _ => ?_)
  with_reducible assumption
  with_reducible apply sealedMissing_within
  with_reducible exact sub_of hc (by decide)
  with_reducible assumption
  extract_lets a14 a15
  have e_a15 : Within cs r a15 := by
    unfold a15
    with_reducible apply onVault_within
    with_reducible exact sub_of hc (by decide)
    with_reducible assumption
  clear_value a15
  dsimp only [a5]
  with_reducible refine within_foldl (fun _ _ _ => ?_) ?_
  with_reducible apply startBundle_within
  with_reducible exact sub_of hc (by decide)
  with_reducible assumption
  with_reducible apply unanchored_within
  with_reducible exact sub_of hc (by decide)
  with_reducible assumption
  split
  with_reducible refine within_ite (fun _ => ?_) (fun _ => ?_)
  dsimp only [a5]
  with_reducible refine within_foldl (fun _ _ _ => ?_) ?_
  with_reducible apply startBundle_within
  with_reducible exact sub_of hc (by decide)
  with_reducible assumption
  with_reducible assumption
  with_reducible apply sealedMissing_within
  with_reducible exact sub_of hc (by decide)
  with_reducible assumption
  with_reducible apply sealedMissing_within
  with_reducible exact sub_of hc (by decide)
  with_reducible assumption

theorem placeDeferred_within {cs : List Part} {r : State} (s : State) (hc : subParts [.live, .keys, .vault, .tally, .endpoint, .integ, .coh, .results, .buckets, .fresh, .out] cs = true) (h : Within cs r s) : Within cs r (placeDeferred s) := by
  delta placeDeferred
  extract_lets a5
  with_reducible refine within_foldl (fun _ _ _ => ?_) ?_
  extract_lets a9 a10
  split
  dsimp only [a10]
  with_reducible apply onKeys_within
  with_reducible exact sub_of hc (by decide)
  dsimp only [a9]
  with_reducible apply sealedMissing_within
  with_reducible exact sub_of hc (by decide)
  with_reducible assumption
  with_reducible exact fun _ => Nat.le_refl _
  split
  dsimp only [a10]
  with_reducible apply onKeys_within
  with_reducible exact sub_of hc (by decide)
  with_reducible refine within_of_aok (by assumption) ?_
  with_reducible apply applyTable_within
  with_reducible exact sub_of hc (by decide)
  with_reducible assumption
  with_reducible exact fun _ => Nat.le_refl _
  dsimp only [a10]
  with_reducible apply onKeys_within
  with_reducible exact sub_of hc (by decide)
  dsimp only [a9]
  with_reducible apply sealedMissing_within
  with_reducible exact sub_of hc (by decide)
  with_reducible assumption
  with_reducible exact fun _ => Nat.le_refl _
  with_reducible assumption
  with_reducible assumption

theorem attest_within {cs : List Part} {r : State} (b : Sys2Proof.Bytes) (s : State) (hc : subParts [.live, .fresh] cs = true) (h : Within cs r s) : PairWithin cs r (attest b s) := by
  delta attest
  split
  with_reducible refine within_mkP ?_
  with_reducible assumption
  extract_lets a14
  split
  with_reducible refine within_mkP ?_
  with_reducible apply State.put_within
  with_reducible exact sub_of hc (by decide)
  with_reducible refine within_of_pair (by assumption) ?_
  with_reducible apply sign_within
  with_reducible exact sub_of hc (by decide)
  with_reducible assumption

end Sys2Proof.Machine
end

