-- ==== Sys2Proof/Laws/WithinRings.lean ====
section
/-! SUPPORT. What each operation of bulk work and the rings may change, once for each (`<operation>_within`); callers cite these and do not unfold. -/

set_option linter.unusedVariables false
set_option linter.unusedSimpArgs false
namespace Sys2Proof.Machine

theorem bulkFail_within {cs : List Part} {r : State} (m : Nat) (d : Sys2Proof.Bytes) (f : Nat × Nat) (s : State) (hc : subParts [.live] cs = true) (h : Within cs r s) : OpWithin cs r (bulkFail m d f s) := by
  delta bulkFail
  with_reducible refine within_ofail ?_
  with_reducible refine within_ite (fun _ => ?_) (fun _ => ?_)
  with_reducible apply countRefusals_within
  with_reducible exact sub_of hc (by decide)
  with_reducible assumption
  with_reducible assumption

theorem loadImage_within {cs : List Part} {r : State} (kind : Nat) (tid : Nat) (img : Sys2Proof.Bytes) (s : State)
    (hc : subParts [.live, .vault, .tally, .endpoint, .integ, .coh, .results, .buckets, .tcam, .furrow, .fresh, .out] cs = true) (h : Within cs r s) : OpWithin cs r (loadImage kind tid img s) := by
  delta loadImage
  split
  with_reducible apply loadTcam_within
  with_reducible exact sub_of hc (by decide)
  with_reducible assumption
  with_reducible apply loadTrie_within
  with_reducible exact sub_of hc (by decide)
  with_reducible assumption
  with_reducible apply opLoadBuckets_within
  with_reducible exact sub_of hc (by decide)
  with_reducible assumption
  with_reducible apply opLoadBuckets_within
  with_reducible exact sub_of hc (by decide)
  with_reducible assumption
  with_reducible apply loadRecords_within
  with_reducible exact sub_of hc (by decide)
  with_reducible assumption
  with_reducible apply loadMeters_within
  with_reducible exact sub_of hc (by decide)
  with_reducible assumption

theorem dumpImage_within {cs : List Part} {r : State} (kind : Nat) (tid : Nat) (s : State) (hc : subParts [] cs = true) (h : Within cs r s) : SumOpWithin cs r (dumpImage kind tid s) := by
  delta dumpImage
  extract_lets a7 a8
  split
  split
  with_reducible exact within_soinl
  with_reducible refine within_soinr ?_
  with_reducible refine within_ofail ?_
  with_reducible assumption
  split
  with_reducible refine within_soinr ?_
  with_reducible refine within_ofail ?_
  with_reducible assumption
  with_reducible exact within_soinl
  dsimp only [a8]
  split
  with_reducible refine within_soinr ?_
  with_reducible refine within_ofail ?_
  with_reducible assumption
  split
  with_reducible refine within_soinr ?_
  with_reducible refine within_of_mo (by assumption) ?_
  with_reducible apply extGate_within
  with_reducible exact sub_of hc (by decide)
  with_reducible assumption
  with_reducible exact within_soinl
  dsimp only [a8]
  split
  with_reducible refine within_soinr ?_
  with_reducible refine within_ofail ?_
  with_reducible assumption
  split
  with_reducible refine within_soinr ?_
  with_reducible refine within_of_mo (by assumption) ?_
  with_reducible apply extGate_within
  with_reducible exact sub_of hc (by decide)
  with_reducible assumption
  with_reducible exact within_soinl
  split
  with_reducible refine within_soinr ?_
  with_reducible refine within_ofail ?_
  with_reducible assumption
  with_reducible exact within_soinl
  split
  with_reducible refine within_soinr ?_
  with_reducible refine within_ofail ?_
  with_reducible assumption
  with_reducible exact within_soinl

theorem dumpReads_within {cs : List Part} {r : State} (kind : Nat) (tid : Nat) (s : State) (hc : subParts [.live, .coh] cs = true) (h : Within cs r s) : Within cs r (dumpReads kind tid s) := by
  delta dumpReads
  with_reducible refine within_ite (fun _ => ?_) (fun _ => ?_)
  with_reducible assumption
  split
  with_reducible apply readLines_within
  with_reducible exact sub_of hc (by decide)
  with_reducible assumption
  with_reducible apply readLines_within
  with_reducible exact sub_of hc (by decide)
  with_reducible assumption
  with_reducible assumption

theorem bulkGate_within {cs : List Part} {r : State} (d : Sys2Proof.Bytes) (s : State) (hc : subParts [] cs = true) (h : Within cs r s) : OptOpWithin cs r (bulkGate d s) := by
  delta bulkGate
  split
  with_reducible refine within_mosome ?_
  with_reducible refine within_ofail ?_
  with_reducible assumption
  split
  with_reducible apply trieGate_within
  with_reducible exact sub_of hc (by decide)
  with_reducible assumption
  with_reducible exact within_monone

theorem bulkContend_within {cs : List Part} {r : State} (m : Nat) (d : Sys2Proof.Bytes) (write : Bool) (s : State) (hc : subParts [.live, .scratch, .fresh] cs = true) (h : Within cs r s) : Within cs r (bulkContend m d write s) := by
  delta bulkContend
  with_reducible apply contend_within
  with_reducible exact sub_of hc (by decide)
  with_reducible assumption

theorem opBulkLoad_within {cs : List Part} {r : State} (m : Nat) (d : Sys2Proof.Bytes) (s : State)
    (hc : subParts [.live, .vault, .tally, .endpoint, .scratch, .integ, .coh, .results, .buckets, .tcam, .furrow, .fresh, .out] cs = true) (h : Within cs r s) : OpWithin cs r (opBulkLoad m d s) := by
  delta opBulkLoad
  split
  with_reducible refine within_of_mo (by assumption) ?_
  with_reducible apply bulkGate_within
  with_reducible exact sub_of hc (by decide)
  with_reducible assumption
  split
  with_reducible apply bulkFail_within
  with_reducible exact sub_of hc (by decide)
  with_reducible assumption
  split
  with_reducible apply failUnreadable_within
  with_reducible exact sub_of hc (by decide)
  with_reducible assumption
  with_reducible apply loadImage_within
  with_reducible exact sub_of hc (by decide)
  with_reducible apply bulkContend_within
  with_reducible exact sub_of hc (by decide)
  with_reducible assumption

theorem opTableDump_within {cs : List Part} {r : State} (m : Nat) (d : Sys2Proof.Bytes) (s : State) (hc : subParts [.live, .scratch, .integ, .coh, .fresh] cs = true) (h : Within cs r s) : OpWithin cs r (opTableDump m d s) := by
  delta opTableDump
  split
  with_reducible refine within_of_mo (by assumption) ?_
  with_reducible apply bulkGate_within
  with_reducible exact sub_of hc (by decide)
  with_reducible assumption
  split
  with_reducible apply bulkFail_within
  with_reducible exact sub_of hc (by decide)
  with_reducible assumption
  extract_lets a15
  have e_a15 : Within cs r a15 := by
    unfold a15
    with_reducible apply dumpReads_within
    with_reducible exact sub_of hc (by decide)
    with_reducible assumption
  clear_value a15
  split
  with_reducible refine within_of_so (by assumption) ?_
  with_reducible apply dumpImage_within
  with_reducible exact sub_of hc (by decide)
  with_reducible assumption
  split
  with_reducible refine within_ofail ?_
  with_reducible assumption
  with_reducible refine within_odone ?_
  with_reducible apply writeImage_within
  with_reducible exact sub_of hc (by decide)
  with_reducible apply bulkContend_within
  with_reducible exact sub_of hc (by decide)
  with_reducible assumption

theorem ringOp_within {cs : List Part} {r : State} (m : Nat) (ok : Bool) (d : Sys2Proof.Bytes) (block : Sys2Proof.Bytes) (s : State)
    (hc : subParts [.wakes, .modes, .mode, .faults, .drowse, .busy, .live, .dict, .can, .keys, .vault, .flash, .tally, .tamper, .sluice, .endpoint, .rings, .scratch, .integ, .coh, .results, .buckets, .tcam, .furrow, .links, .slots, .headgate, .fresh, .out] cs = true) (h : Within cs r s) : OpWithin cs r (ringOp m ok d block s) := by
  delta ringOp
  split
  with_reducible apply opTcamInsert_within
  with_reducible exact sub_of hc (by decide)
  with_reducible assumption
  with_reducible apply opTcamDelete_within
  with_reducible exact sub_of hc (by decide)
  with_reducible assumption
  with_reducible apply opTcamModify_within
  with_reducible exact sub_of hc (by decide)
  with_reducible assumption
  with_reducible apply opTrieAdd_within
  with_reducible exact sub_of hc (by decide)
  with_reducible assumption
  with_reducible apply opTrieDelete_within
  with_reducible exact sub_of hc (by decide)
  with_reducible assumption
  with_reducible apply opBucket_within
  with_reducible exact sub_of hc (by decide)
  with_reducible assumption
  with_reducible intro _ _ _
  with_reducible apply insertBlock_within
  with_reducible exact sub_of hc (by decide)
  with_reducible assumption
  with_reducible apply opBucket_within
  with_reducible exact sub_of hc (by decide)
  with_reducible assumption
  with_reducible intro _ _ _
  with_reducible apply deleteBlock_within
  with_reducible exact sub_of hc (by decide)
  with_reducible assumption
  with_reducible apply opBucket_within
  with_reducible exact sub_of hc (by decide)
  with_reducible assumption
  with_reducible intro _ _ _
  with_reducible apply updateBlock_within
  with_reducible exact sub_of hc (by decide)
  with_reducible assumption
  with_reducible apply opResultWrite_within
  with_reducible exact sub_of hc (by decide)
  with_reducible assumption
  with_reducible apply opMeterConfigure_within
  with_reducible exact sub_of hc (by decide)
  with_reducible assumption
  with_reducible apply opCounterReadClear_within
  with_reducible exact sub_of hc (by decide)
  with_reducible assumption
  with_reducible apply opFlush_within
  with_reducible exact sub_of hc (by decide)
  with_reducible assumption
  with_reducible apply opBulkLoad_within
  with_reducible exact sub_of hc (by decide)
  with_reducible assumption
  with_reducible apply opTableDump_within
  with_reducible exact sub_of hc (by decide)
  with_reducible assumption
  with_reducible apply opBundleSubmit_within
  with_reducible exact sub_of hc (by decide)
  with_reducible assumption

theorem reserve_within {cs : List Part} {r : State} (places : List Nat) (s : State) (hc : subParts [.buckets, .tcam] cs = true) (h : Within cs r s) : Within cs r (reserve places s) := by
  delta reserve
  extract_lets a6 a7
  with_reducible apply onBuckets_within
  with_reducible exact sub_of hc (by decide)
  with_reducible apply onTcam_within
  with_reducible exact sub_of hc (by decide)
  with_reducible assumption

theorem release_within {cs : List Part} {r : State} (places : List Nat) (s : State) (hc : subParts [.buckets, .tcam] cs = true) (h : Within cs r s) : Within cs r (release places s) := by
  delta release
  with_reducible apply onBuckets_within
  with_reducible exact sub_of hc (by decide)
  with_reducible apply onTcam_within
  with_reducible exact sub_of hc (by decide)
  with_reducible assumption

theorem hold_within {cs : List Part} {r : State} (p : Prepared) (s : State) (hc : subParts [.buckets, .tcam, .pair] cs = true) (h : Within cs r s) : Within cs r (hold p s) := by
  delta hold
  with_reducible apply reserve_within
  with_reducible exact sub_of hc (by decide)
  with_reducible apply onPair_within
  with_reducible exact sub_of hc (by decide)
  with_reducible assumption

theorem freeHeld_within {cs : List Part} {r : State} (p : Prepared) (s : State) (hc : subParts [.buckets, .tcam, .pair] cs = true) (h : Within cs r s) : Within cs r (freeHeld p s) := by
  delta freeHeld
  with_reducible apply release_within
  with_reducible exact sub_of hc (by decide)
  with_reducible apply onPair_within
  with_reducible exact sub_of hc (by decide)
  with_reducible assumption

theorem unhold_within {cs : List Part} {r : State} (seq : Nat) (s : State) (hc : subParts [.buckets, .tcam, .pair] cs = true) (h : Within cs r s) : Within cs r (unhold seq s) := by
  delta unhold
  split
  with_reducible assumption
  with_reducible apply release_within
  with_reducible exact sub_of hc (by decide)
  with_reducible apply onPair_within
  with_reducible exact sub_of hc (by decide)
  with_reducible assumption

theorem holdCommand_within {cs : List Part} {r : State} (r_ : Nat) (dataOk : Bool) (recordOk : Bool) (s : State) (hc : subParts [.rings] cs = true) (h : Within cs r s) : Within cs r (holdCommand r_ dataOk recordOk s) := by
  delta holdCommand
  with_reducible apply onRing_within
  with_reducible exact sub_of hc (by decide)
  with_reducible assumption

theorem setDesc_within {cs : List Part} {r : State} (r_ : Nat) (d : Sys2Proof.Bytes) (block : Sys2Proof.Bytes) (s : State) (hc : subParts [.rings] cs = true) (h : Within cs r s) : Within cs r (setDesc r_ d block s) := by
  delta setDesc
  with_reducible apply onRing_within
  with_reducible exact sub_of hc (by decide)
  with_reducible assumption

theorem failCommand_within {cs : List Part} {r : State} (r_ : Nat) (status : Nat) (detail : Nat) (s : State) (hc : subParts [.live, .keys, .endpoint, .rings, .out] cs = true) (h : Within cs r s) : Within cs r (failCommand r_ status detail s) := by
  delta failCommand
  with_reducible apply haltRing_within
  with_reducible exact sub_of hc (by decide)
  with_reducible refine within_ite (fun _ => ?_) (fun _ => ?_)
  with_reducible apply State.bump_within
  with_reducible exact sub_of hc (by decide)
  with_reducible assumption
  with_reducible assumption

theorem endOp_within {cs : List Part} {r : State} (r_ : Nat) (dataOk : Bool) (ok : Bool) (marked : Bool) (res : OpRes) (s : State)
    (hc : subParts [.live, .keys, .endpoint, .rings, .out] cs = true) (ho : OpWithin cs r res) (h1 : Within cs r s) : Within cs r (endOp r_ dataOk ok marked res s) := by
  delta endOp
  split
  with_reducible apply holdCommand_within
  with_reducible exact sub_of hc (by decide)
  with_reducible assumption
  with_reducible apply failCommand_within
  with_reducible exact sub_of hc (by decide)
  exact ho
  with_reducible refine within_ite (fun _ => ?_) (fun _ => ?_)
  with_reducible apply holdCommand_within
  with_reducible exact sub_of hc (by decide)
  with_reducible assumption
  with_reducible apply settleFences_within
  with_reducible exact sub_of hc (by decide)
  with_reducible apply completeCommand_within
  with_reducible exact sub_of hc (by decide)
  exact ho
  with_reducible refine within_ite (fun _ => ?_) (fun _ => ?_)
  with_reducible apply holdCommand_within
  with_reducible exact sub_of hc (by decide)
  with_reducible assumption
  with_reducible apply onRing_within
  with_reducible exact sub_of hc (by decide)
  exact ho

theorem sendImage_within {cs : List Part} {r : State} (seq : Nat) (a1 : Nat) (a2 : List Sys2Proof.Bytes) (a3 : State) (hc : subParts [.pair, .out] cs = true) (h : Within cs r a3) : Within cs r (sendImage seq a1 a2 a3) := by
  induction a2 generalizing a1 a3 with
| nil => ?_
| cons x l ih => ?_
  all_goals rw [sendImage]
  with_reducible assumption
  with_reducible apply ih
  with_reducible apply sendCulvert_within
  with_reducible exact sub_of hc (by decide)
  with_reducible assumption

theorem sendPrepare_within {cs : List Part} {r : State} (r_ : Nat) (places : List Nat) (d : Sys2Proof.Bytes) (block : Sys2Proof.Bytes) (s : State)
    (hc : subParts [.live, .rings, .buckets, .tcam, .pair, .out] cs = true) (h : Within cs r s) : Within cs r (sendPrepare r_ places d block s) := by
  delta sendPrepare
  extract_lets a9 a10 a11 a12 a13
  have e_a10 : Within cs r a10 := by
    unfold a10
    with_reducible apply State.bump_within
    with_reducible exact sub_of hc (by decide)
    with_reducible apply onPair_within
    with_reducible exact sub_of hc (by decide)
    with_reducible assumption
  clear_value a10
  have e_a11 : Within cs r a11 := by
    unfold a11
    with_reducible apply sendCulvert_within
    with_reducible exact sub_of hc (by decide)
    with_reducible assumption
  clear_value a11
  have e_a12 : Within cs r a12 := by
    unfold a12
    with_reducible refine within_ite (fun _ => ?_) (fun _ => ?_)
    split
    with_reducible apply sendImage_within
    with_reducible exact sub_of hc (by decide)
    with_reducible assumption
    with_reducible assumption
    with_reducible assumption
  clear_value a12
  have e_a13 : Within cs r a13 := by
    unfold a13
    with_reducible apply hold_within
    with_reducible exact sub_of hc (by decide)
    with_reducible assumption
  clear_value a13
  with_reducible apply onRing_within
  with_reducible exact sub_of hc (by decide)
  with_reducible assumption

theorem forward_within {cs : List Part} {r : State} (r_ : Nat) (m : Nat) (dataOk : Bool) (ok : Bool) (d : Sys2Proof.Bytes) (block : Sys2Proof.Bytes) (s : State)
    (hc : subParts [.wakes, .modes, .mode, .faults, .drowse, .busy, .live, .dict, .can, .keys, .vault, .flash, .tally, .tamper, .sluice, .endpoint, .rings, .scratch, .integ, .coh, .results, .buckets, .tcam, .furrow, .links, .slots, .headgate, .pair, .fresh, .out] cs = true) (h : Within cs r s) : Within cs r (forward r_ m dataOk ok d block s) := by
  delta forward
  with_reducible refine within_ite (fun _ => ?_) (fun _ => ?_)
  with_reducible apply holdCommand_within
  with_reducible exact sub_of hc (by decide)
  with_reducible assumption
  split
  with_reducible apply holdCommand_within
  with_reducible exact sub_of hc (by decide)
  with_reducible assumption
  with_reducible apply failCommand_within
  with_reducible exact sub_of hc (by decide)
  with_reducible refine within_of_fail (by assumption) ?_
  with_reducible apply ringOp_within
  with_reducible exact sub_of hc (by decide)
  with_reducible assumption
  with_reducible apply sendPrepare_within
  with_reducible exact sub_of hc (by decide)
  with_reducible assumption
  with_reducible apply sendPrepare_within
  with_reducible exact sub_of hc (by decide)
  with_reducible assumption

theorem startFence_within {cs : List Part} {r : State} (r_ : Nat) (d : Sys2Proof.Bytes) (s : State) (hc : subParts [.live, .keys, .endpoint, .rings, .out] cs = true) (h : Within cs r s) : Within cs r (startFence r_ d s) := by
  delta startFence
  with_reducible refine within_ite (fun _ => ?_) (fun _ => ?_)
  with_reducible apply failCommand_within
  with_reducible exact sub_of hc (by decide)
  with_reducible assumption
  extract_lets a8 a9 a10
  with_reducible apply settleFences_within
  with_reducible exact sub_of hc (by decide)
  with_reducible apply onRing_within
  with_reducible exact sub_of hc (by decide)
  with_reducible assumption

theorem runCommand_within {cs : List Part} {r : State} (r_ : Nat) (dataOk : Bool) (ok : Bool) (d : Sys2Proof.Bytes) (block : Sys2Proof.Bytes) (s : State)
    (hc : subParts [.wakes, .modes, .mode, .faults, .drowse, .busy, .live, .dict, .can, .keys, .vault, .flash, .tally, .tamper, .sluice, .endpoint, .rings, .scratch, .integ, .coh, .results, .buckets, .tcam, .furrow, .links, .slots, .headgate, .pair, .fresh, .out] cs = true) (h : Within cs r s) : Within cs r (runCommand r_ dataOk ok d block s) := by
  delta runCommand
  extract_lets a10 a11
  have e_a11 : Within cs r a11 := by
    unfold a11
    with_reducible refine within_ite (fun _ => ?_) (fun _ => ?_)
    with_reducible apply drowseTrigger_within
    with_reducible exact sub_of hc (by decide)
    with_reducible assumption
    with_reducible assumption
  clear_value a11
  with_reducible refine within_ite (fun _ => ?_) (fun _ => ?_)
  with_reducible apply holdCommand_within
  with_reducible exact sub_of hc (by decide)
  with_reducible assumption
  with_reducible refine within_ite (fun _ => ?_) (fun _ => ?_)
  with_reducible apply startFence_within
  with_reducible exact sub_of hc (by decide)
  with_reducible assumption
  with_reducible refine within_ite (fun _ => ?_) (fun _ => ?_)
  with_reducible apply forward_within
  with_reducible exact sub_of hc (by decide)
  with_reducible assumption
  with_reducible apply endOp_within
  with_reducible exact sub_of hc (by decide)
  with_reducible apply ringOp_within
  with_reducible exact sub_of hc (by decide)
  with_reducible assumption
  with_reducible assumption

theorem retryHeld_within {cs : List Part} {r : State} (s : State) (r_ : Nat)
    (hc : subParts [.wakes, .modes, .mode, .faults, .drowse, .busy, .live, .dict, .can, .keys, .vault, .flash, .tally, .tamper, .sluice, .endpoint, .rings, .scratch, .integ, .coh, .results, .buckets, .tcam, .furrow, .links, .slots, .headgate, .pair, .fresh, .out] cs = true) (h : Within cs r s) : Within cs r (retryHeld s r_) := by
  delta retryHeld
  split
  with_reducible refine within_ite (fun _ => ?_) (fun _ => ?_)
  with_reducible assumption
  with_reducible refine within_ite (fun _ => ?_) (fun _ => ?_)
  with_reducible apply failCommand_within
  with_reducible exact sub_of hc (by decide)
  with_reducible apply keyEvent_within
  with_reducible exact sub_of hc (by decide)
  with_reducible apply onRing_within
  with_reducible exact sub_of hc (by decide)
  with_reducible assumption
  with_reducible apply runCommand_within
  with_reducible exact sub_of hc (by decide)
  with_reducible apply onRing_within
  with_reducible exact sub_of hc (by decide)
  with_reducible assumption
  with_reducible assumption

theorem resumeRings_within {cs : List Part} {r : State} (s : State)
    (hc : subParts [.wakes, .modes, .mode, .faults, .drowse, .busy, .live, .dict, .can, .keys, .vault, .flash, .tally, .tamper, .sluice, .endpoint, .rings, .scratch, .integ, .coh, .results, .buckets, .tcam, .furrow, .links, .slots, .headgate, .pair, .fresh, .out] cs = true) (h : Within cs r s) : Within cs r (resumeRings s) := by
  delta resumeRings
  with_reducible refine within_foldl (fun _ _ _ => ?_) ?_
  with_reducible apply retryHeld_within
  with_reducible exact sub_of hc (by decide)
  with_reducible assumption
  with_reducible assumption

theorem checkedCommand_within {cs : List Part} {r : State} (r_ : Nat) (f : Sys2Proof.Fetch) (d : Sys2Proof.Bytes) (block : Sys2Proof.Bytes) (s : State)
    (hc : subParts [.wakes, .modes, .mode, .faults, .drowse, .busy, .live, .dict, .can, .keys, .vault, .flash, .tally, .tamper, .sluice, .endpoint, .rings, .scratch, .integ, .coh, .results, .buckets, .tcam, .furrow, .links, .slots, .headgate, .pair, .fresh, .out] cs = true) (h : Within cs r s) : Within cs r (checkedCommand r_ f d block s) := by
  delta checkedCommand
  extract_lets a9 a10
  have e_a10 : Within cs r a10 := by
    unfold a10
    with_reducible apply setDesc_within
    with_reducible exact sub_of hc (by decide)
    with_reducible assumption
  clear_value a10
  split
  with_reducible refine within_ite (fun _ => ?_) (fun _ => ?_)
  extract_lets a18
  have e_a18 : Within cs r a18 := by
    unfold a18
    with_reducible apply writeCompletion_within
    with_reducible exact sub_of hc (by decide)
    with_reducible apply State.bump_within
    with_reducible exact sub_of hc (by decide)
    with_reducible assumption
  clear_value a18
  with_reducible apply settleFences_within
  with_reducible exact sub_of hc (by decide)
  with_reducible assumption
  with_reducible apply failCommand_within
  with_reducible exact sub_of hc (by decide)
  with_reducible assumption
  split
  with_reducible apply failCommand_within
  with_reducible exact sub_of hc (by decide)
  with_reducible apply setDesc_within
  with_reducible exact sub_of hc (by decide)
  with_reducible assumption
  with_reducible apply runCommand_within
  with_reducible exact sub_of hc (by decide)
  with_reducible apply setDesc_within
  with_reducible exact sub_of hc (by decide)
  with_reducible assumption

theorem execute_within {cs : List Part} {r : State} (r_ : Nat) (want : Nat) (f : Sys2Proof.Fetch) (s : State)
    (hc : subParts [.wakes, .modes, .mode, .faults, .drowse, .busy, .live, .dict, .can, .keys, .vault, .flash, .tally, .tamper, .sluice, .endpoint, .rings, .scratch, .integ, .coh, .results, .buckets, .tcam, .furrow, .links, .slots, .headgate, .pair, .fresh, .out] cs = true) (h : Within cs r s) : Within cs r (execute r_ want f s) := by
  delta execute
  with_reducible refine within_ite (fun _ => ?_) (fun _ => ?_)
  with_reducible apply retryHeld_within
  with_reducible exact sub_of hc (by decide)
  with_reducible assumption
  split
  with_reducible apply failCommand_within
  with_reducible exact sub_of hc (by decide)
  with_reducible apply setDesc_within
  with_reducible exact sub_of hc (by decide)
  with_reducible assumption
  extract_lets a14
  with_reducible refine within_ite (fun _ => ?_) (fun _ => ?_)
  with_reducible apply failCommand_within
  with_reducible exact sub_of hc (by decide)
  with_reducible apply setDesc_within
  with_reducible exact sub_of hc (by decide)
  with_reducible assumption
  with_reducible refine within_ite (fun _ => ?_) (fun _ => ?_)
  with_reducible assumption
  with_reducible refine within_ite (fun _ => ?_) (fun _ => ?_)
  with_reducible apply failCommand_within
  with_reducible exact sub_of hc (by decide)
  with_reducible apply setDesc_within
  with_reducible exact sub_of hc (by decide)
  with_reducible assumption
  with_reducible refine within_ite (fun _ => ?_) (fun _ => ?_)
  with_reducible apply checkedCommand_within
  with_reducible exact sub_of hc (by decide)
  with_reducible assumption
  split
  with_reducible apply failCommand_within
  with_reducible exact sub_of hc (by decide)
  with_reducible apply setDesc_within
  with_reducible exact sub_of hc (by decide)
  with_reducible assumption
  with_reducible apply checkedCommand_within
  with_reducible exact sub_of hc (by decide)
  with_reducible assumption

theorem execTcamInsert_within {cs : List Part} {r : State} (ring : Nat) (f : Sys2Proof.Fetch) (s : State)
    (hc : subParts [.wakes, .modes, .mode, .faults, .drowse, .busy, .live, .dict, .can, .keys, .vault, .flash, .tally, .tamper, .sluice, .endpoint, .rings, .scratch, .integ, .coh, .results, .buckets, .tcam, .furrow, .links, .slots, .headgate, .pair, .fresh, .out] cs = true) (h : Within cs r s) : ResultWithin cs r (execTcamInsert ring f s) := by
  delta execTcamInsert
  with_reducible apply within_onUnit
  with_reducible apply execute_within
  with_reducible exact sub_of hc (by decide)
  with_reducible assumption

theorem execTcamDelete_within {cs : List Part} {r : State} (ring : Nat) (f : Sys2Proof.Fetch) (s : State)
    (hc : subParts [.wakes, .modes, .mode, .faults, .drowse, .busy, .live, .dict, .can, .keys, .vault, .flash, .tally, .tamper, .sluice, .endpoint, .rings, .scratch, .integ, .coh, .results, .buckets, .tcam, .furrow, .links, .slots, .headgate, .pair, .fresh, .out] cs = true) (h : Within cs r s) : ResultWithin cs r (execTcamDelete ring f s) := by
  delta execTcamDelete
  with_reducible apply within_onUnit
  with_reducible apply execute_within
  with_reducible exact sub_of hc (by decide)
  with_reducible assumption

theorem execTcamModifyResult_within {cs : List Part} {r : State} (ring : Nat) (f : Sys2Proof.Fetch) (s : State)
    (hc : subParts [.wakes, .modes, .mode, .faults, .drowse, .busy, .live, .dict, .can, .keys, .vault, .flash, .tally, .tamper, .sluice, .endpoint, .rings, .scratch, .integ, .coh, .results, .buckets, .tcam, .furrow, .links, .slots, .headgate, .pair, .fresh, .out] cs = true) (h : Within cs r s) : ResultWithin cs r (execTcamModifyResult ring f s) := by
  delta execTcamModifyResult
  with_reducible apply within_onUnit
  with_reducible apply execute_within
  with_reducible exact sub_of hc (by decide)
  with_reducible assumption

theorem execTrieAdd_within {cs : List Part} {r : State} (ring : Nat) (f : Sys2Proof.Fetch) (s : State)
    (hc : subParts [.wakes, .modes, .mode, .faults, .drowse, .busy, .live, .dict, .can, .keys, .vault, .flash, .tally, .tamper, .sluice, .endpoint, .rings, .scratch, .integ, .coh, .results, .buckets, .tcam, .furrow, .links, .slots, .headgate, .pair, .fresh, .out] cs = true) (h : Within cs r s) : ResultWithin cs r (execTrieAdd ring f s) := by
  delta execTrieAdd
  with_reducible apply within_onUnit
  with_reducible apply execute_within
  with_reducible exact sub_of hc (by decide)
  with_reducible assumption

theorem execTrieDelete_within {cs : List Part} {r : State} (ring : Nat) (f : Sys2Proof.Fetch) (s : State)
    (hc : subParts [.wakes, .modes, .mode, .faults, .drowse, .busy, .live, .dict, .can, .keys, .vault, .flash, .tally, .tamper, .sluice, .endpoint, .rings, .scratch, .integ, .coh, .results, .buckets, .tcam, .furrow, .links, .slots, .headgate, .pair, .fresh, .out] cs = true) (h : Within cs r s) : ResultWithin cs r (execTrieDelete ring f s) := by
  delta execTrieDelete
  with_reducible apply within_onUnit
  with_reducible apply execute_within
  with_reducible exact sub_of hc (by decide)
  with_reducible assumption

theorem execBucketInsert_within {cs : List Part} {r : State} (ring : Nat) (f : Sys2Proof.Fetch) (s : State)
    (hc : subParts [.wakes, .modes, .mode, .faults, .drowse, .busy, .live, .dict, .can, .keys, .vault, .flash, .tally, .tamper, .sluice, .endpoint, .rings, .scratch, .integ, .coh, .results, .buckets, .tcam, .furrow, .links, .slots, .headgate, .pair, .fresh, .out] cs = true) (h : Within cs r s) : ResultWithin cs r (execBucketInsert ring f s) := by
  delta execBucketInsert
  with_reducible apply within_onUnit
  with_reducible apply execute_within
  with_reducible exact sub_of hc (by decide)
  with_reducible assumption

theorem execBucketDelete_within {cs : List Part} {r : State} (ring : Nat) (f : Sys2Proof.Fetch) (s : State)
    (hc : subParts [.wakes, .modes, .mode, .faults, .drowse, .busy, .live, .dict, .can, .keys, .vault, .flash, .tally, .tamper, .sluice, .endpoint, .rings, .scratch, .integ, .coh, .results, .buckets, .tcam, .furrow, .links, .slots, .headgate, .pair, .fresh, .out] cs = true) (h : Within cs r s) : ResultWithin cs r (execBucketDelete ring f s) := by
  delta execBucketDelete
  with_reducible apply within_onUnit
  with_reducible apply execute_within
  with_reducible exact sub_of hc (by decide)
  with_reducible assumption

theorem execBucketUpdate_within {cs : List Part} {r : State} (ring : Nat) (f : Sys2Proof.Fetch) (s : State)
    (hc : subParts [.wakes, .modes, .mode, .faults, .drowse, .busy, .live, .dict, .can, .keys, .vault, .flash, .tally, .tamper, .sluice, .endpoint, .rings, .scratch, .integ, .coh, .results, .buckets, .tcam, .furrow, .links, .slots, .headgate, .pair, .fresh, .out] cs = true) (h : Within cs r s) : ResultWithin cs r (execBucketUpdate ring f s) := by
  delta execBucketUpdate
  with_reducible apply within_onUnit
  with_reducible apply execute_within
  with_reducible exact sub_of hc (by decide)
  with_reducible assumption

theorem execResultWrite_within {cs : List Part} {r : State} (ring : Nat) (f : Sys2Proof.Fetch) (s : State)
    (hc : subParts [.wakes, .modes, .mode, .faults, .drowse, .busy, .live, .dict, .can, .keys, .vault, .flash, .tally, .tamper, .sluice, .endpoint, .rings, .scratch, .integ, .coh, .results, .buckets, .tcam, .furrow, .links, .slots, .headgate, .pair, .fresh, .out] cs = true) (h : Within cs r s) : ResultWithin cs r (execResultWrite ring f s) := by
  delta execResultWrite
  with_reducible apply within_onUnit
  with_reducible apply execute_within
  with_reducible exact sub_of hc (by decide)
  with_reducible assumption

theorem execMeterConfigure_within {cs : List Part} {r : State} (ring : Nat) (f : Sys2Proof.Fetch) (s : State)
    (hc : subParts [.wakes, .modes, .mode, .faults, .drowse, .busy, .live, .dict, .can, .keys, .vault, .flash, .tally, .tamper, .sluice, .endpoint, .rings, .scratch, .integ, .coh, .results, .buckets, .tcam, .furrow, .links, .slots, .headgate, .pair, .fresh, .out] cs = true) (h : Within cs r s) : ResultWithin cs r (execMeterConfigure ring f s) := by
  delta execMeterConfigure
  with_reducible apply within_onUnit
  with_reducible apply execute_within
  with_reducible exact sub_of hc (by decide)
  with_reducible assumption

theorem execCounterReadClear_within {cs : List Part} {r : State} (ring : Nat) (f : Sys2Proof.Fetch) (s : State)
    (hc : subParts [.wakes, .modes, .mode, .faults, .drowse, .busy, .live, .dict, .can, .keys, .vault, .flash, .tally, .tamper, .sluice, .endpoint, .rings, .scratch, .integ, .coh, .results, .buckets, .tcam, .furrow, .links, .slots, .headgate, .pair, .fresh, .out] cs = true) (h : Within cs r s) : ResultWithin cs r (execCounterReadClear ring f s) := by
  delta execCounterReadClear
  with_reducible apply within_onUnit
  with_reducible apply execute_within
  with_reducible exact sub_of hc (by decide)
  with_reducible assumption

theorem execFlowFlush_within {cs : List Part} {r : State} (ring : Nat) (f : Sys2Proof.Fetch) (s : State)
    (hc : subParts [.wakes, .modes, .mode, .faults, .drowse, .busy, .live, .dict, .can, .keys, .vault, .flash, .tally, .tamper, .sluice, .endpoint, .rings, .scratch, .integ, .coh, .results, .buckets, .tcam, .furrow, .links, .slots, .headgate, .pair, .fresh, .out] cs = true) (h : Within cs r s) : ResultWithin cs r (execFlowFlush ring f s) := by
  delta execFlowFlush
  with_reducible apply within_onUnit
  with_reducible apply execute_within
  with_reducible exact sub_of hc (by decide)
  with_reducible assumption

theorem execFence_within {cs : List Part} {r : State} (ring : Nat) (f : Sys2Proof.Fetch) (s : State)
    (hc : subParts [.wakes, .modes, .mode, .faults, .drowse, .busy, .live, .dict, .can, .keys, .vault, .flash, .tally, .tamper, .sluice, .endpoint, .rings, .scratch, .integ, .coh, .results, .buckets, .tcam, .furrow, .links, .slots, .headgate, .pair, .fresh, .out] cs = true) (h : Within cs r s) : ResultWithin cs r (execFence ring f s) := by
  delta execFence
  with_reducible apply within_onUnit
  with_reducible apply execute_within
  with_reducible exact sub_of hc (by decide)
  with_reducible assumption

theorem execBulkLoad_within {cs : List Part} {r : State} (ring : Nat) (f : Sys2Proof.Fetch) (s : State)
    (hc : subParts [.wakes, .modes, .mode, .faults, .drowse, .busy, .live, .dict, .can, .keys, .vault, .flash, .tally, .tamper, .sluice, .endpoint, .rings, .scratch, .integ, .coh, .results, .buckets, .tcam, .furrow, .links, .slots, .headgate, .pair, .fresh, .out] cs = true) (h : Within cs r s) : ResultWithin cs r (execBulkLoad ring f s) := by
  delta execBulkLoad
  with_reducible apply within_onUnit
  with_reducible apply execute_within
  with_reducible exact sub_of hc (by decide)
  with_reducible assumption

theorem execTableDump_within {cs : List Part} {r : State} (ring : Nat) (f : Sys2Proof.Fetch) (s : State)
    (hc : subParts [.wakes, .modes, .mode, .faults, .drowse, .busy, .live, .dict, .can, .keys, .vault, .flash, .tally, .tamper, .sluice, .endpoint, .rings, .scratch, .integ, .coh, .results, .buckets, .tcam, .furrow, .links, .slots, .headgate, .pair, .fresh, .out] cs = true) (h : Within cs r s) : ResultWithin cs r (execTableDump ring f s) := by
  delta execTableDump
  with_reducible apply within_onUnit
  with_reducible apply execute_within
  with_reducible exact sub_of hc (by decide)
  with_reducible assumption

theorem execBundleSubmit_within {cs : List Part} {r : State} (ring : Nat) (f : Sys2Proof.Fetch) (s : State)
    (hc : subParts [.wakes, .modes, .mode, .faults, .drowse, .busy, .live, .dict, .can, .keys, .vault, .flash, .tally, .tamper, .sluice, .endpoint, .rings, .scratch, .integ, .coh, .results, .buckets, .tcam, .furrow, .links, .slots, .headgate, .pair, .fresh, .out] cs = true) (h : Within cs r s) : ResultWithin cs r (execBundleSubmit ring f s) := by
  delta execBundleSubmit
  with_reducible apply within_onUnit
  with_reducible apply execute_within
  with_reducible exact sub_of hc (by decide)
  with_reducible assumption

theorem execFenceTimeout_within {cs : List Part} {r : State} (ring : Nat) (s : State) (hc : subParts [.live, .keys, .endpoint, .rings, .out] cs = true) (h : Within cs r s) : ResultWithin cs r (execFenceTimeout ring s) := by
  delta execFenceTimeout
  with_reducible apply within_onUnit
  split
  with_reducible refine within_ite (fun _ => ?_) (fun _ => ?_)
  with_reducible assumption
  with_reducible apply failCommand_within
  with_reducible exact sub_of hc (by decide)
  with_reducible assumption
  with_reducible assumption

theorem enableRing_within {cs : List Part} {r : State} (r_ : Nat) (s : State) (hc : subParts [.rings] cs = true) (h : Within cs r s) : Within cs r (enableRing r_ s) := by
  delta enableRing
  with_reducible refine within_ite (fun _ => ?_) (fun _ => ?_)
  with_reducible apply onRing_within
  with_reducible exact sub_of hc (by decide)
  with_reducible assumption
  with_reducible assumption

theorem clearEnable_within {cs : List Part} {r : State} (r_ : Nat) (reset : Bool) (s : State) (hc : subParts [.rings] cs = true) (h : Within cs r s) : Within cs r (clearEnable r_ reset s) := by
  delta clearEnable
  extract_lets a7
  with_reducible refine within_ite (fun _ => ?_) (fun _ => ?_)
  with_reducible apply onRing_within
  with_reducible exact sub_of hc (by decide)
  with_reducible assumption
  with_reducible refine within_ite (fun _ => ?_) (fun _ => ?_)
  with_reducible apply disableRing_within
  with_reducible exact sub_of hc (by decide)
  with_reducible assumption
  with_reducible assumption

theorem execRingEnable_within {cs : List Part} {r : State} (ring : Nat) (s : State) (hc : subParts [.rings] cs = true) (h : Within cs r s) : ResultWithin cs r (execRingEnable ring s) := by
  delta execRingEnable
  with_reducible apply within_onUnit
  with_reducible apply enableRing_within
  with_reducible exact sub_of hc (by decide)
  with_reducible assumption

theorem execRingDisable_within {cs : List Part} {r : State} (ring : Nat) (s : State) (hc : subParts [.rings] cs = true) (h : Within cs r s) : ResultWithin cs r (execRingDisable ring s) := by
  delta execRingDisable
  with_reducible apply within_onUnit
  with_reducible apply clearEnable_within
  with_reducible exact sub_of hc (by decide)
  with_reducible assumption

theorem postDescriptors_within {cs : List Part} {r : State} (r_ : Nat) (value : Nat) (s : State) (hc : subParts [.endpoint, .rings, .out] cs = true) (h : Within cs r s) : Within cs r (postDescriptors r_ value s) := by
  delta postDescriptors
  extract_lets a7 a8 a9
  with_reducible refine within_ite (fun _ => ?_) (fun _ => ?_)
  with_reducible assumption
  with_reducible refine within_ite (fun _ => ?_) (fun _ => ?_)
  with_reducible apply onRing_within
  with_reducible exact sub_of hc (by decide)
  with_reducible assumption
  with_reducible apply vector_within
  with_reducible exact sub_of hc (by decide)
  with_reducible apply onRing_within
  with_reducible exact sub_of hc (by decide)
  with_reducible assumption

theorem execProducerIndex_within {cs : List Part} {r : State} (ring : Nat) (value : Nat) (s : State) (hc : subParts [.endpoint, .rings, .out] cs = true) (h : Within cs r s) : ResultWithin cs r (execProducerIndex ring value s) := by
  delta execProducerIndex
  with_reducible apply within_onUnit
  with_reducible apply postDescriptors_within
  with_reducible exact sub_of hc (by decide)
  with_reducible assumption

theorem clearHalt_within {cs : List Part} {r : State} (r_ : Nat) (s : State) (hc : subParts [.rings] cs = true) (h : Within cs r s) : Within cs r (clearHalt r_ s) := by
  delta clearHalt
  with_reducible refine within_ite (fun _ => ?_) (fun _ => ?_)
  with_reducible apply onRing_within
  with_reducible exact sub_of hc (by decide)
  with_reducible assumption
  with_reducible assumption

theorem skipHalted_within {cs : List Part} {r : State} (r_ : Nat) (s : State) (hc : subParts [.live, .keys, .endpoint, .rings, .out] cs = true) (h : Within cs r s) : Within cs r (skipHalted r_ s) := by
  delta skipHalted
  extract_lets a6 a7
  with_reducible refine within_ite (fun _ => ?_) (fun _ => ?_)
  with_reducible assumption
  with_reducible refine within_ite (fun _ => ?_) (fun _ => ?_)
  with_reducible apply onRing_within
  with_reducible exact sub_of hc (by decide)
  with_reducible assumption
  with_reducible apply settleFences_within
  with_reducible exact sub_of hc (by decide)
  with_reducible apply writeCompletion_within
  with_reducible exact sub_of hc (by decide)
  with_reducible apply onRing_within
  with_reducible exact sub_of hc (by decide)
  with_reducible assumption

theorem skipWaiting_within {cs : List Part} {r : State} (s : State) (r_ : Nat) (hc : subParts [.live, .keys, .endpoint, .rings, .out] cs = true) (h : Within cs r s) : Within cs r (skipWaiting s r_) := by
  delta skipWaiting
  with_reducible refine within_ite (fun _ => ?_) (fun _ => ?_)
  with_reducible apply skipHalted_within
  with_reducible exact sub_of hc (by decide)
  with_reducible assumption
  with_reducible assumption

theorem execHaltRetry_within {cs : List Part} {r : State} (ring : Nat) (f : Sys2Proof.Fetch) (s : State)
    (hc : subParts [.wakes, .modes, .mode, .faults, .drowse, .busy, .live, .dict, .can, .keys, .vault, .flash, .tally, .tamper, .sluice, .endpoint, .rings, .scratch, .integ, .coh, .results, .buckets, .tcam, .furrow, .links, .slots, .headgate, .pair, .fresh, .out] cs = true) (h : Within cs r s) : ResultWithin cs r (execHaltRetry ring f s) := by
  delta execHaltRetry
  with_reducible apply within_onUnit
  with_reducible refine within_ite (fun _ => ?_) (fun _ => ?_)
  with_reducible apply execute_within
  with_reducible exact sub_of hc (by decide)
  with_reducible apply clearHalt_within
  with_reducible exact sub_of hc (by decide)
  with_reducible assumption
  with_reducible assumption

theorem execHaltSkip_within {cs : List Part} {r : State} (ring : Nat) (s : State) (hc : subParts [.live, .keys, .endpoint, .rings, .out] cs = true) (h : Within cs r s) : ResultWithin cs r (execHaltSkip ring s) := by
  delta execHaltSkip
  with_reducible apply within_onUnit
  with_reducible apply skipHalted_within
  with_reducible exact sub_of hc (by decide)
  with_reducible assumption

theorem resetEndpoint_within {cs : List Part} {r : State} (s : State) (hc : subParts [.mailbox, .endpoint, .rings] cs = true) (h : Within cs r s) : Within cs r (resetEndpoint s) := by
  delta resetEndpoint
  extract_lets a5 a6 a7
  have e_a5 : Within cs r a5 := by
    unfold a5
    with_reducible refine within_foldl (fun _ _ _ => ?_) ?_
    with_reducible apply clearEnable_within
    with_reducible exact sub_of hc (by decide)
    with_reducible assumption
    with_reducible assumption
  clear_value a5
  with_reducible refine within_update (ps := [.mailbox, .endpoint]) rfl (sub_of hc (by decide)) (fun p hp => by cases p <;> first | exact absurd (by decide) hp | with_unfolding_all rfl) ?_ ?_ ?_ ?_ ?_ ?_ ?_ ?_ ?_ ?_ ?_ ?_ ?_ ?_ ?_
  with_reducible rfl
  with_reducible exact Nat.le_refl _
  with_reducible exact Nat.le_refl _
  with_reducible exact List.suffix_refl _
  with_reducible exact id
  with_reducible intro _
  rfl
  with_reducible exact id
  with_reducible exact id
  with_reducible exact id
  with_reducible exact id
  with_reducible exact id
  with_reducible exact id
  with_reducible intro _
  rfl
  with_reducible intro _
  rfl
  with_reducible assumption

theorem execPcieConventionalReset_within {cs : List Part} {r : State} (s : State) (hc : subParts [.live, .mailbox, .endpoint, .rings] cs = true) (h : Within cs r s) : ResultWithin cs r (execPcieConventionalReset s) := by
  delta execPcieConventionalReset
  with_reducible refine within_next ?_
  with_reducible refine within_ite (fun _ => ?_) (fun _ => ?_)
  with_reducible assumption
  with_reducible apply State.bump_within
  with_reducible exact sub_of hc (by decide)
  with_reducible apply State.put_within
  with_reducible exact sub_of hc (by decide)
  with_reducible apply State.put_within
  with_reducible exact sub_of hc (by decide)
  with_reducible apply resetEndpoint_within
  with_reducible exact sub_of hc (by decide)
  with_reducible assumption

theorem sendHeld_within {cs : List Part} {r : State} (s : State) (hc : subParts [.endpoint, .out] cs = true) (h : Within cs r s) : Within cs r (sendHeld s) := by
  delta sendHeld
  with_reducible refine within_foldl (fun _ _ _ => ?_) ?_
  with_reducible apply vector_within
  with_reducible exact sub_of hc (by decide)
  with_reducible assumption
  with_reducible refine within_set_host_held (sub_of hc (by decide)) ?_
  with_reducible assumption

theorem execPcieLinkUp_within {cs : List Part} {r : State} (speed : Nat) (trained : Sys2Proof.HostLink) (s : State) (hc : subParts [.live, .endpoint, .out] cs = true) (h : Within cs r s) : ResultWithin cs r (execPcieLinkUp speed trained s) := by
  delta execPcieLinkUp
  with_reducible apply within_onUnit
  with_reducible refine within_ite (fun _ => ?_) (fun _ => ?_)
  extract_lets a8 a9
  have e_a8 : Within cs r a8 := by
    unfold a8
    with_reducible apply State.put_within
    with_reducible exact sub_of hc (by decide)
    with_reducible apply State.put_within
    with_reducible exact sub_of hc (by decide)
    with_reducible assumption
  clear_value a8
  with_reducible apply sendHeld_within
  with_reducible exact sub_of hc (by decide)
  with_reducible refine within_update (ps := [.endpoint]) rfl (sub_of hc (by decide)) (fun p hp => by cases p <;> first | exact absurd (by decide) hp | with_unfolding_all rfl) rfl (Nat.le_refl _) (Nat.le_refl _) (List.suffix_refl _) id id id id id id id id id id ?_
  with_reducible assumption
  with_reducible assumption

end Sys2Proof.Machine
end

