-- ==== Sys2Proof/Laws/WithinPair.lean ====
section
/-! SUPPORT. What each operation of the pair, the chain and resumption may change, once for each (`<operation>_within`); callers cite these and do not unfold. -/

set_option linter.unusedVariables false
set_option linter.unusedSimpArgs false
namespace Sys2Proof.Machine

theorem recordDigests_within {cs : List Part} {r : State} (seq : Nat) (s : State) (hc : subParts [.pair] cs = true) (h : Within cs r s) : Within cs r (recordDigests seq s) := by
  delta recordDigests
  extract_lets a6
  with_reducible apply onPair_within
  with_reducible exact sub_of hc (by decide)
  with_reducible assumption

theorem renewDigest_within {cs : List Part} {r : State} (region : Nat) (seq : Nat) (s : State) (hc : subParts [.pair] cs = true) (h : Within cs r s) : Within cs r (renewDigest region seq s) := by
  delta renewDigest
  extract_lets a7
  with_reducible apply onPair_within
  with_reducible exact sub_of hc (by decide)
  with_reducible assumption

theorem execHelloTimer_within {cs : List Part} {r : State} (s : State) (hc : subParts [.pair, .out] cs = true) (h : Within cs r s) : ResultWithin cs r (execHelloTimer s) := by
  delta execHelloTimer
  with_reducible refine within_next ?_
  with_reducible refine within_ite (fun _ => ?_) (fun _ => ?_)
  with_reducible assumption
  with_reducible apply sendCulvert_within
  with_reducible exact sub_of hc (by decide)
  with_reducible assumption

theorem requestResync_within {cs : List Part} {r : State} (r_ : Nat) (s : State) (hc : subParts [.drowse, .busy, .pair, .out] cs = true) (h : Within cs r s) : Within cs r (requestResync r_ s) := by
  delta requestResync
  with_reducible refine within_ite (fun _ => ?_) (fun _ => ?_)
  with_reducible assumption
  with_reducible apply drowseTrigger_within
  with_reducible exact sub_of hc (by decide)
  with_reducible apply sendCulvert_within
  with_reducible exact sub_of hc (by decide)
  with_reducible apply onPair_within
  with_reducible exact sub_of hc (by decide)
  with_reducible assumption

theorem dropHeld_within {cs : List Part} {r : State} (s : State) (hc : subParts [.buckets, .tcam, .pair] cs = true) (h : Within cs r s) : Within cs r (dropHeld s) := by
  delta dropHeld
  with_reducible refine within_foldl (fun _ _ _ => ?_) ?_
  with_reducible apply unhold_within
  with_reducible exact sub_of hc (by decide)
  with_reducible assumption
  with_reducible assumption

theorem enterPaired_within {cs : List Part} {r : State} (s : State) (hc : subParts [.mode, .faults, .drowse, .busy, .live, .vault, .tally, .endpoint, .buckets, .tcam, .links, .pair, .chain, .out] cs = true) (h : Within cs r s) : Within cs r (enterPaired s) := by
  delta enterPaired
  extract_lets a5 a6 a7 a8
  have e_a5 : Within cs r a5 := by
    unfold a5
    with_reducible apply setPairState_within
    with_reducible exact sub_of hc (by decide)
    with_reducible apply dropHeld_within
    with_reducible exact sub_of hc (by decide)
    with_reducible assumption
  clear_value a5
  have e_a7 : Within cs r a7 := by
    unfold a7
    with_reducible refine within_set_chain (sub_of hc (by decide)) ?_
    with_reducible assumption
  clear_value a7
  have e_a8 : Within cs r a8 := by
    unfold a8
    with_reducible apply onPair_within
    with_reducible exact sub_of hc (by decide)
    with_reducible assumption
  clear_value a8
  with_reducible refine within_ite (fun _ => ?_) (fun _ => ?_)
  with_reducible refine within_foldl (fun _ _ _ => ?_) ?_
  with_reducible apply requestResync_within
  with_reducible exact sub_of hc (by decide)
  with_reducible assumption
  with_reducible assumption
  with_reducible assumption

theorem execHello_within {cs : List Part} {r : State} (m : Sys2Proof.Hello) (s : State) (hc : subParts [.mode, .faults, .drowse, .busy, .live, .vault, .tally, .endpoint, .buckets, .tcam, .links, .pair, .chain, .out] cs = true) (h : Within cs r s) : ResultWithin cs r (execHello m s) := by
  delta execHello
  with_reducible refine within_next ?_
  with_reducible refine within_ite (fun _ => ?_) (fun _ => ?_)
  with_reducible assumption
  with_reducible refine within_ite (fun _ => ?_) (fun _ => ?_)
  with_reducible apply State.bump_within
  with_reducible exact sub_of hc (by decide)
  with_reducible assumption
  with_reducible refine within_ite (fun _ => ?_) (fun _ => ?_)
  with_reducible assumption
  extract_lets a9 a10 a11
  have e_a9 : Within cs r a9 := by
    unfold a9
    with_reducible apply State.put_within
    with_reducible exact sub_of hc (by decide)
    with_reducible assumption
  clear_value a9
  have e_a10 : Within cs r a10 := by
    unfold a10
    with_reducible apply onPair_within
    with_reducible exact sub_of hc (by decide)
    with_reducible assumption
  clear_value a10
  with_reducible refine within_ite (fun _ => ?_) (fun _ => ?_)
  with_reducible apply splitPair_within
  with_reducible exact sub_of hc (by decide)
  with_reducible apply State.put_within
  with_reducible exact sub_of hc (by decide)
  with_reducible assumption
  with_reducible refine within_ite (fun _ => ?_) (fun _ => ?_)
  with_reducible apply startGrace_within
  with_reducible exact sub_of hc (by decide)
  with_reducible apply State.put_within
  with_reducible exact sub_of hc (by decide)
  with_reducible assumption
  with_reducible apply enterPaired_within
  with_reducible exact sub_of hc (by decide)
  with_reducible apply State.put_within
  with_reducible exact sub_of hc (by decide)
  with_reducible assumption

theorem execConfigDigest_within {cs : List Part} {r : State} (a0 : Nat) (digest : Nat) (s : State)
    (hc : subParts [.mode, .faults, .drowse, .busy, .live, .vault, .tally, .endpoint, .buckets, .tcam, .links, .pair, .out] cs = true) (h : Within cs r s) : ResultWithin cs r (execConfigDigest a0 digest s) := by
  delta execConfigDigest
  with_reducible refine within_next ?_
  with_reducible refine within_ite (fun _ => ?_) (fun _ => ?_)
  with_reducible assumption
  with_reducible apply compareDigests_within
  with_reducible exact sub_of hc (by decide)
  with_reducible apply onPair_within
  with_reducible exact sub_of hc (by decide)
  with_reducible assumption

theorem execConfigGraceExpired_within {cs : List Part} {r : State} (s : State) (hc : subParts [.mode, .faults, .drowse, .busy, .live, .vault, .tally, .endpoint, .buckets, .tcam, .links, .pair, .out] cs = true) (h : Within cs r s) : ResultWithin cs r (execConfigGraceExpired s) := by
  delta execConfigGraceExpired
  with_reducible refine within_next ?_
  with_reducible refine within_ite (fun _ => ?_) (fun _ => ?_)
  with_reducible assumption
  split
  with_reducible assumption
  with_reducible refine within_ite (fun _ => ?_) (fun _ => ?_)
  with_reducible apply onPair_within
  with_reducible exact sub_of hc (by decide)
  with_reducible assumption
  with_reducible apply splitPair_within
  with_reducible exact sub_of hc (by decide)
  with_reducible assumption

theorem sendCommit_within {cs : List Part} {r : State} (r_ : Nat) (seq : Nat) (status : Nat) (result : Nat) (s : State) (hc : subParts [.rings, .pair, .out] cs = true) (h : Within cs r s) : Within cs r (sendCommit r_ seq status result s) := by
  delta sendCommit
  with_reducible apply sendCulvert_within
  with_reducible exact sub_of hc (by decide)
  with_reducible apply onRing_within
  with_reducible exact sub_of hc (by decide)
  with_reducible apply recordDigests_within
  with_reducible exact sub_of hc (by decide)
  with_reducible assumption

theorem sendAbort_within {cs : List Part} {r : State} (seq : Nat) (s : State) (hc : subParts [.pair, .out] cs = true) (h : Within cs r s) : Within cs r (sendAbort seq s) := by
  delta sendAbort
  with_reducible apply sendCulvert_within
  with_reducible exact sub_of hc (by decide)
  with_reducible assumption

theorem commitForwarded_within {cs : List Part} {r : State} (r_ : Nat) (seq : Nat) (s : State)
    (hc : subParts [.wakes, .modes, .mode, .faults, .drowse, .busy, .live, .dict, .can, .keys, .vault, .flash, .tally, .tamper, .sluice, .endpoint, .rings, .scratch, .integ, .coh, .results, .buckets, .tcam, .furrow, .links, .slots, .headgate, .pair, .fresh, .out] cs = true) (h : Within cs r s) : Within cs r (commitForwarded r_ seq s) := by
  delta commitForwarded
  extract_lets a7 a8
  have e_a8 : Within cs r a8 := by
    unfold a8
    with_reducible apply sendAbort_within
    with_reducible exact sub_of hc (by decide)
    with_reducible apply holdCommand_within
    with_reducible exact sub_of hc (by decide)
    with_reducible assumption
  clear_value a8
  with_reducible refine within_ite (fun _ => ?_) (fun _ => ?_)
  with_reducible assumption
  split
  with_reducible assumption
  with_reducible apply failCommand_within
  with_reducible exact sub_of hc (by decide)
  with_reducible apply sendAbort_within
  with_reducible exact sub_of hc (by decide)
  with_reducible refine within_of_fail (by assumption) ?_
  with_reducible apply ringOp_within
  with_reducible exact sub_of hc (by decide)
  with_reducible assumption
  with_reducible apply sendCommit_within
  with_reducible exact sub_of hc (by decide)
  with_reducible refine within_of_done (by assumption) ?_
  with_reducible apply ringOp_within
  with_reducible exact sub_of hc (by decide)
  with_reducible assumption
  with_reducible apply onRing_within
  with_reducible exact sub_of hc (by decide)
  with_reducible refine within_of_chain (by assumption) ?_
  with_reducible apply ringOp_within
  with_reducible exact sub_of hc (by decide)
  with_reducible assumption

theorem execCmdVote_within {cs : List Part} {r : State} (status : Nat) (detail : Nat) (pairSeq : Nat) (s : State)
    (hc : subParts [.wakes, .modes, .mode, .faults, .drowse, .busy, .live, .dict, .can, .keys, .vault, .flash, .tally, .tamper, .sluice, .endpoint, .rings, .scratch, .integ, .coh, .results, .buckets, .tcam, .furrow, .links, .slots, .headgate, .pair, .fresh, .out] cs = true) (h : Within cs r s) : ResultWithin cs r (execCmdVote status detail pairSeq s) := by
  delta execCmdVote
  with_reducible refine within_next ?_
  split
  with_reducible assumption
  extract_lets a13
  have e_a13 : Within cs r a13 := by
    unfold a13
    with_reducible apply unhold_within
    with_reducible exact sub_of hc (by decide)
    with_reducible assumption
  clear_value a13
  with_reducible refine within_ite (fun _ => ?_) (fun _ => ?_)
  with_reducible apply failCommand_within
  with_reducible exact sub_of hc (by decide)
  with_reducible apply State.put_within
  with_reducible exact sub_of hc (by decide)
  with_reducible assumption
  with_reducible apply commitForwarded_within
  with_reducible exact sub_of hc (by decide)
  with_reducible assumption

theorem finishForwarded_within {cs : List Part} {r : State} (r_ : Nat) (seq : Nat) (s : State) (hc : subParts [.live, .keys, .endpoint, .rings, .pair, .out] cs = true) (h : Within cs r s) : Within cs r (finishForwarded r_ seq s) := by
  delta finishForwarded
  split
  extract_lets a15
  have e_a15 : Within cs r a15 := by
    unfold a15
    with_reducible apply onPair_within
    with_reducible exact sub_of hc (by decide)
    with_reducible assumption
  clear_value a15
  with_reducible refine within_ite (fun _ => ?_) (fun _ => ?_)
  with_reducible apply onRing_within
  with_reducible exact sub_of hc (by decide)
  with_reducible assumption
  with_reducible apply settleFences_within
  with_reducible exact sub_of hc (by decide)
  with_reducible apply completeCommand_within
  with_reducible exact sub_of hc (by decide)
  with_reducible assumption
  with_reducible assumption

theorem execCmdDone_within {cs : List Part} {r : State} (pairSeq : Nat) (s : State) (hc : subParts [.live, .keys, .endpoint, .rings, .pair, .out] cs = true) (h : Within cs r s) : ResultWithin cs r (execCmdDone pairSeq s) := by
  delta execCmdDone
  with_reducible refine within_next ?_
  with_reducible refine within_ite (fun _ => ?_) (fun _ => ?_)
  with_reducible assumption
  split
  with_reducible assumption
  with_reducible apply finishForwarded_within
  with_reducible exact sub_of hc (by decide)
  with_reducible assumption

theorem voteTimeout_within {cs : List Part} {r : State} (seq : Nat) (s : State) (hc : subParts [.live, .keys, .endpoint, .rings, .buckets, .tcam, .pair, .out] cs = true) (h : Within cs r s) : Within cs r (voteTimeout seq s) := by
  delta voteTimeout
  split
  with_reducible assumption
  with_reducible apply failCommand_within
  with_reducible exact sub_of hc (by decide)
  with_reducible apply unhold_within
  with_reducible exact sub_of hc (by decide)
  with_reducible assumption

theorem execPeerVoteTimeout_within {cs : List Part} {r : State} (pairSeq : Nat) (s : State) (hc : subParts [.live, .keys, .endpoint, .rings, .buckets, .tcam, .pair, .out] cs = true) (h : Within cs r s) : ResultWithin cs r (execPeerVoteTimeout pairSeq s) := by
  delta execPeerVoteTimeout
  with_reducible refine within_next ?_
  with_reducible apply voteTimeout_within
  with_reducible exact sub_of hc (by decide)
  with_reducible assumption

theorem doneTimeout_within {cs : List Part} {r : State} (seq : Nat) (s : State) (hc : subParts [.live, .keys, .endpoint, .rings, .pair, .out] cs = true) (h : Within cs r s) : Within cs r (doneTimeout seq s) := by
  delta doneTimeout
  with_reducible refine within_ite (fun _ => ?_) (fun _ => ?_)
  with_reducible assumption
  split
  with_reducible assumption
  with_reducible apply finishForwarded_within
  with_reducible exact sub_of hc (by decide)
  with_reducible apply State.bump_within
  with_reducible exact sub_of hc (by decide)
  with_reducible assumption

theorem execPeerDoneTimeout_within {cs : List Part} {r : State} (pairSeq : Nat) (s : State) (hc : subParts [.live, .keys, .endpoint, .rings, .pair, .out] cs = true) (h : Within cs r s) : ResultWithin cs r (execPeerDoneTimeout pairSeq s) := by
  delta execPeerDoneTimeout
  with_reducible refine within_next ?_
  with_reducible apply doneTimeout_within
  with_reducible exact sub_of hc (by decide)
  with_reducible assumption

theorem resolveAwaiting_within {cs : List Part} {r : State} (s : State) (hc : subParts [.live, .keys, .endpoint, .rings, .buckets, .tcam, .pair, .out] cs = true) (h : Within cs r s) : Within cs r (resolveAwaiting s) := by
  delta resolveAwaiting
  with_reducible refine within_foldl (fun _ _ _ => ?_) ?_
  split
  with_reducible apply voteTimeout_within
  with_reducible exact sub_of hc (by decide)
  with_reducible assumption
  with_reducible apply doneTimeout_within
  with_reducible exact sub_of hc (by decide)
  with_reducible assumption
  with_reducible assumption
  with_reducible assumption

theorem peerOp_within {cs : List Part} {r : State} (p : Prepared) (s : State)
    (hc : subParts [.wakes, .modes, .mode, .faults, .drowse, .busy, .live, .dict, .can, .keys, .vault, .flash, .tally, .tamper, .sluice, .endpoint, .rings, .scratch, .integ, .coh, .results, .buckets, .tcam, .furrow, .links, .slots, .headgate, .fresh, .out] cs = true) (h : Within cs r s) : OpWithin cs r (peerOp p s) := by
  delta peerOp
  split
  extract_lets a7
  split
  with_reducible refine within_ofail ?_
  with_reducible assumption
  with_reducible apply loadImage_within
  with_reducible exact sub_of hc (by decide)
  with_reducible assumption
  split
  with_reducible refine within_ofail ?_
  with_reducible assumption
  with_reducible apply ringOp_within
  with_reducible exact sub_of hc (by decide)
  with_reducible assumption

theorem sendVote_within {cs : List Part} {r : State} (seq : Nat) (status : Nat) (detail : Nat) (s : State) (hc : subParts [.pair, .out] cs = true) (h : Within cs r s) : Within cs r (sendVote seq status detail s) := by
  delta sendVote
  with_reducible apply sendCulvert_within
  with_reducible exact sub_of hc (by decide)
  with_reducible assumption

theorem tryVote_within {cs : List Part} {r : State} (p : Prepared) (s : State)
    (hc : subParts [.wakes, .modes, .mode, .faults, .drowse, .busy, .live, .dict, .can, .keys, .vault, .flash, .tally, .tamper, .sluice, .endpoint, .rings, .scratch, .integ, .coh, .results, .buckets, .tcam, .furrow, .links, .slots, .headgate, .pair, .fresh, .out] cs = true) (h : Within cs r s) : Within cs r (tryVote p s) := by
  delta tryVote
  extract_lets a6 a7 a8 a9
  with_reducible refine within_ite (fun _ => ?_) (fun _ => ?_)
  with_reducible assumption
  with_reducible refine within_ite (fun _ => ?_) (fun _ => ?_)
  dsimp only [a8]
  with_reducible apply sendVote_within
  with_reducible exact sub_of hc (by decide)
  with_reducible apply unhold_within
  with_reducible exact sub_of hc (by decide)
  with_reducible assumption
  with_reducible refine within_ite (fun _ => ?_) (fun _ => ?_)
  with_reducible assumption
  with_reducible refine within_ite (fun _ => ?_) (fun _ => ?_)
  with_reducible assumption
  split
  with_reducible assumption
  dsimp only [a8]
  with_reducible apply sendVote_within
  with_reducible exact sub_of hc (by decide)
  with_reducible apply unhold_within
  with_reducible exact sub_of hc (by decide)
  with_reducible refine within_of_fail (by assumption) ?_
  with_reducible apply peerOp_within
  with_reducible exact sub_of hc (by decide)
  with_reducible assumption
  dsimp only [a9]
  with_reducible apply sendVote_within
  with_reducible exact sub_of hc (by decide)
  with_reducible apply hold_within
  with_reducible exact sub_of hc (by decide)
  with_reducible assumption
  dsimp only [a9]
  with_reducible apply sendVote_within
  with_reducible exact sub_of hc (by decide)
  with_reducible apply hold_within
  with_reducible exact sub_of hc (by decide)
  with_reducible assumption

theorem appliedPrepared_within {cs : List Part} {r : State} (seq : Nat) (s : State) (hc : subParts [.pair, .out] cs = true) (h : Within cs r s) : Within cs r (appliedPrepared seq s) := by
  delta appliedPrepared
  with_reducible apply sendCulvert_within
  with_reducible exact sub_of hc (by decide)
  with_reducible apply recordDigests_within
  with_reducible exact sub_of hc (by decide)
  with_reducible assumption

theorem applyPrepared_within {cs : List Part} {r : State} (p : Prepared) (s : State)
    (hc : subParts [.wakes, .modes, .mode, .faults, .drowse, .busy, .live, .dict, .can, .keys, .vault, .flash, .tally, .tamper, .sluice, .endpoint, .rings, .scratch, .integ, .coh, .results, .buckets, .tcam, .furrow, .links, .slots, .headgate, .pair, .fresh, .out] cs = true) (h : Within cs r s) : Within cs r (applyPrepared p s) := by
  delta applyPrepared
  with_reducible refine within_ite (fun _ => ?_) (fun _ => ?_)
  with_reducible assumption
  extract_lets a7
  have e_a7 : Within cs r a7 := by
    unfold a7
    with_reducible apply freeHeld_within
    with_reducible exact sub_of hc (by decide)
    with_reducible assumption
  clear_value a7
  split
  with_reducible assumption
  with_reducible apply unhold_within
  with_reducible exact sub_of hc (by decide)
  with_reducible assumption
  with_reducible apply appliedPrepared_within
  with_reducible exact sub_of hc (by decide)
  with_reducible apply unhold_within
  with_reducible exact sub_of hc (by decide)
  with_reducible refine within_of_done (by assumption) ?_
  with_reducible apply peerOp_within
  with_reducible exact sub_of hc (by decide)
  with_reducible assumption
  with_reducible apply unhold_within
  with_reducible exact sub_of hc (by decide)
  with_reducible apply onPair_within
  with_reducible exact sub_of hc (by decide)
  with_reducible refine within_of_chain (by assumption) ?_
  with_reducible apply peerOp_within
  with_reducible exact sub_of hc (by decide)
  with_reducible assumption

theorem execCmdPrepare_within {cs : List Part} {r : State} (pairSeq : Nat) (desc : Sys2Proof.Bytes) (block : Sys2Proof.Bytes) (s : State)
    (hc : subParts [.wakes, .modes, .mode, .faults, .drowse, .busy, .live, .dict, .can, .keys, .vault, .flash, .tally, .tamper, .sluice, .endpoint, .rings, .scratch, .integ, .coh, .results, .buckets, .tcam, .furrow, .links, .slots, .headgate, .pair, .fresh, .out] cs = true) (h : Within cs r s) : ResultWithin cs r (execCmdPrepare pairSeq desc block s) := by
  delta execCmdPrepare
  with_reducible refine within_next ?_
  with_reducible refine within_ite (fun _ => ?_) (fun _ => ?_)
  with_reducible assumption
  extract_lets a9 a10
  have e_a10 : Within cs r a10 := by
    unfold a10
    with_reducible apply onPair_within
    with_reducible exact sub_of hc (by decide)
    with_reducible apply hold_within
    with_reducible exact sub_of hc (by decide)
    with_reducible assumption
  clear_value a10
  with_reducible apply tryVote_within
  with_reducible exact sub_of hc (by decide)
  with_reducible refine within_ite (fun _ => ?_) (fun _ => ?_)
  with_reducible apply drowseTrigger_within
  with_reducible exact sub_of hc (by decide)
  with_reducible assumption
  with_reducible assumption

theorem execCmdCommit_within {cs : List Part} {r : State} (pairSeq : Nat) (s : State)
    (hc : subParts [.wakes, .modes, .mode, .faults, .drowse, .busy, .live, .dict, .can, .keys, .vault, .flash, .tally, .tamper, .sluice, .endpoint, .rings, .scratch, .integ, .coh, .results, .buckets, .tcam, .furrow, .links, .slots, .headgate, .pair, .fresh, .out] cs = true) (h : Within cs r s) : ResultWithin cs r (execCmdCommit pairSeq s) := by
  delta execCmdCommit
  with_reducible refine within_next ?_
  split
  with_reducible assumption
  with_reducible refine within_ite (fun _ => ?_) (fun _ => ?_)
  with_reducible assumption
  extract_lets a12
  with_reducible apply applyPrepared_within
  with_reducible exact sub_of hc (by decide)
  with_reducible apply onPair_within
  with_reducible exact sub_of hc (by decide)
  with_reducible assumption

theorem execCmdAbort_within {cs : List Part} {r : State} (pairSeq : Nat) (s : State) (hc : subParts [.buckets, .tcam, .pair] cs = true) (h : Within cs r s) : ResultWithin cs r (execCmdAbort pairSeq s) := by
  delta execCmdAbort
  with_reducible refine within_next ?_
  with_reducible refine within_ite (fun _ => ?_) (fun _ => ?_)
  with_reducible apply unhold_within
  with_reducible exact sub_of hc (by decide)
  with_reducible assumption
  with_reducible assumption

theorem execReservationTimeout_within {cs : List Part} {r : State} (pairSeq : Nat) (s : State) (hc : subParts [.buckets, .tcam, .pair] cs = true) (h : Within cs r s) : ResultWithin cs r (execReservationTimeout pairSeq s) := by
  delta execReservationTimeout
  with_reducible refine within_next ?_
  split
  with_reducible refine within_ite (fun _ => ?_) (fun _ => ?_)
  with_reducible apply unhold_within
  with_reducible exact sub_of hc (by decide)
  with_reducible assumption
  with_reducible assumption
  with_reducible assumption

theorem execImageData_within {cs : List Part} {r : State} (offset : Nat) (pairSeq : Nat) (data : Sys2Proof.Bytes) (s : State)
    (hc : subParts [.wakes, .modes, .mode, .faults, .drowse, .busy, .live, .dict, .can, .keys, .vault, .flash, .tally, .tamper, .sluice, .endpoint, .rings, .scratch, .integ, .coh, .results, .buckets, .tcam, .furrow, .links, .slots, .headgate, .pair, .fresh, .out] cs = true) (h : Within cs r s) : ResultWithin cs r (execImageData offset pairSeq data s) := by
  delta execImageData
  with_reducible refine within_next ?_
  split
  with_reducible refine within_ite (fun _ => ?_) (fun _ => ?_)
  with_reducible assumption
  extract_lets a14 a15
  have e_a14 : Within cs r a14 := by
    unfold a14
    with_reducible apply landCulvert_within
    with_reducible exact sub_of hc (by decide)
    with_reducible assumption
  clear_value a14
  with_reducible apply tryVote_within
  with_reducible exact sub_of hc (by decide)
  with_reducible apply onPair_within
  with_reducible exact sub_of hc (by decide)
  with_reducible assumption
  with_reducible assumption

theorem sendRegion_within {cs : List Part} {r : State} (r_ : Nat) (a1 : Nat) (a2 : List Sys2Proof.Bytes) (a3 : State) (hc : subParts [.pair, .out] cs = true) (h : Within cs r a3) : Within cs r (sendRegion r_ a1 a2 a3) := by
  induction a2 generalizing a1 a3 with
| nil => ?_
| cons x l ih => ?_
  all_goals rw [sendRegion]
  with_reducible assumption
  with_reducible apply ih
  with_reducible apply sendCulvert_within
  with_reducible exact sub_of hc (by decide)
  with_reducible assumption

theorem serveRegion_within {cs : List Part} {r : State} (r_ : Nat) (s : State) (hc : subParts [.pair, .out] cs = true) (h : Within cs r s) : Within cs r (serveRegion r_ s) := by
  delta serveRegion
  extract_lets a6 a7 a8 a9
  have e_a9 : Within cs r a9 := by
    unfold a9
    with_reducible apply sendRegion_within
    with_reducible exact sub_of hc (by decide)
    dsimp only [a6]
    with_reducible apply onPair_within
    with_reducible exact sub_of hc (by decide)
    with_reducible apply renewDigest_within
    with_reducible exact sub_of hc (by decide)
    with_reducible assumption
  clear_value a9
  with_reducible refine within_ite (fun _ => ?_) (fun _ => ?_)
  with_reducible assumption
  with_reducible refine within_ite (fun _ => ?_) (fun _ => ?_)
  with_reducible apply onPair_within
  with_reducible exact sub_of hc (by decide)
  dsimp only [a6]
  with_reducible apply onPair_within
  with_reducible exact sub_of hc (by decide)
  with_reducible assumption
  with_reducible refine within_ite (fun _ => ?_) (fun _ => ?_)
  with_reducible assumption
  with_reducible apply sendCulvert_within
  with_reducible exact sub_of hc (by decide)
  with_reducible assumption

theorem execResyncRequest_within {cs : List Part} {r : State} (region : Nat) (s : State) (hc : subParts [.drowse, .busy, .pair, .out] cs = true) (h : Within cs r s) : ResultWithin cs r (execResyncRequest region s) := by
  delta execResyncRequest
  with_reducible refine within_next ?_
  with_reducible refine within_ite (fun _ => ?_) (fun _ => ?_)
  with_reducible assumption
  with_reducible apply serveRegion_within
  with_reducible exact sub_of hc (by decide)
  with_reducible apply drowseTrigger_within
  with_reducible exact sub_of hc (by decide)
  with_reducible apply onPair_within
  with_reducible exact sub_of hc (by decide)
  with_reducible assumption

theorem execResyncData_within {cs : List Part} {r : State} (region : Nat) (offset : Nat) (data : Sys2Proof.Bytes) (s : State) (hc : subParts [.live, .scratch, .integ, .pair, .fresh] cs = true) (h : Within cs r s) : ResultWithin cs r (execResyncData region offset data s) := by
  delta execResyncData
  with_reducible refine within_next ?_
  with_reducible refine within_ite (fun _ => ?_) (fun _ => ?_)
  with_reducible assumption
  extract_lets a9 a10
  have e_a9 : Within cs r a9 := by
    unfold a9
    with_reducible apply landCulvert_within
    with_reducible exact sub_of hc (by decide)
    with_reducible assumption
  clear_value a9
  with_reducible apply onPair_within
  with_reducible exact sub_of hc (by decide)
  with_reducible assumption

theorem resyncRecords_within {cs : List Part} {r : State} (store : Nat) (mine : Nat → Bool) (img : Sys2Proof.Bytes) (s : State) (hc : subParts [.live, .coh, .results] cs = true) (h : Within cs r s) : Within cs r (resyncRecords store mine img s) := by
  delta resyncRecords
  extract_lets a8 a9 a10
  have e_a10 : Within cs r a10 := by
    unfold a10
    with_reducible refine within_foldl (fun _ _ _ => ?_) ?_
    with_reducible refine within_ite (fun _ => ?_) (fun _ => ?_)
    with_reducible assumption
    with_reducible apply writeRecord_within
    with_reducible exact sub_of hc (by decide)
    with_reducible assumption
    with_reducible assumption
  clear_value a10
  with_reducible refine within_foldl (fun _ _ _ => ?_) ?_
  with_reducible apply writeRecord_within
  with_reducible exact sub_of hc (by decide)
  with_reducible assumption
  with_reducible assumption

theorem resyncMeters_within {cs : List Part} {r : State} (store : Nat) (mine : Nat → Bool) (img : Sys2Proof.Bytes) (s : State) (hc : subParts [.live, .coh, .results] cs = true) (h : Within cs r s) : Within cs r (resyncMeters store mine img s) := by
  delta resyncMeters
  extract_lets a8 a9 a10
  have e_a10 : Within cs r a10 := by
    unfold a10
    with_reducible refine within_foldl (fun _ _ _ => ?_) ?_
    with_reducible refine within_ite (fun _ => ?_) (fun _ => ?_)
    with_reducible assumption
    with_reducible apply writeMeter_within
    with_reducible exact sub_of hc (by decide)
    with_reducible assumption
    with_reducible assumption
  clear_value a10
  with_reducible refine within_foldl (fun _ _ _ => ?_) ?_
  with_reducible apply writeMeter_within
  with_reducible exact sub_of hc (by decide)
  with_reducible assumption
  with_reducible assumption

theorem applyRegion_within {cs : List Part} {r : State} (r_ : Nat) (img : Sys2Proof.Bytes) (s : State) (hc : subParts [.live, .endpoint, .integ, .coh, .results, .buckets, .tcam, .furrow, .fresh, .out] cs = true) (h : Within cs r s) : OpWithin cs r (applyRegion r_ img s) := by
  delta applyRegion
  extract_lets a7 a8
  split
  with_reducible apply loadTcam_within
  with_reducible exact sub_of hc (by decide)
  with_reducible assumption
  with_reducible apply loadTrie_within
  with_reducible exact sub_of hc (by decide)
  with_reducible assumption
  with_reducible apply loadBuckets_within
  with_reducible exact sub_of hc (by decide)
  with_reducible assumption
  with_reducible refine within_odone ?_
  with_reducible apply resyncRecords_within
  with_reducible exact sub_of hc (by decide)
  with_reducible assumption
  with_reducible refine within_odone ?_
  with_reducible apply resyncRecords_within
  with_reducible exact sub_of hc (by decide)
  with_reducible assumption
  with_reducible refine within_odone ?_
  with_reducible apply resyncMeters_within
  with_reducible exact sub_of hc (by decide)
  with_reducible assumption
  with_reducible refine within_odone ?_
  with_reducible apply resyncMeters_within
  with_reducible exact sub_of hc (by decide)
  with_reducible assumption

theorem resyncApplied_within {cs : List Part} {r : State} (r_ : Nat) (seq : Nat) (s : State) (hc : subParts [.live, .pair, .out] cs = true) (h : Within cs r s) : Within cs r (resyncApplied r_ seq s) := by
  delta resyncApplied
  extract_lets a7
  have e_a7 : Within cs r a7 := by
    unfold a7
    with_reducible apply onPair_within
    with_reducible exact sub_of hc (by decide)
    with_reducible assumption
  clear_value a7
  with_reducible apply sendCulvert_within
  with_reducible exact sub_of hc (by decide)
  with_reducible apply State.bump_within
  with_reducible exact sub_of hc (by decide)
  with_reducible apply renewDigest_within
  with_reducible exact sub_of hc (by decide)
  with_reducible assumption

theorem endResync_within {cs : List Part} {r : State} (r_ : Nat) (s : State) (hc : subParts [.pair, .out] cs = true) (h : Within cs r s) : Within cs r (endResync r_ s) := by
  delta endResync
  with_reducible apply sendCulvert_within
  with_reducible exact sub_of hc (by decide)
  with_reducible apply onPair_within
  with_reducible exact sub_of hc (by decide)
  with_reducible assumption

theorem endResyncs_within {cs : List Part} {r : State} (s : State) (hc : subParts [.pair, .out] cs = true) (h : Within cs r s) : Within cs r (endResyncs s) := by
  delta endResyncs
  with_reducible refine within_ite (fun _ => ?_) (fun _ => ?_)
  with_reducible refine within_foldl (fun _ _ _ => ?_) ?_
  with_reducible apply endResync_within
  with_reducible exact sub_of hc (by decide)
  with_reducible assumption
  with_reducible assumption
  with_reducible assumption

theorem tryResync_within {cs : List Part} {r : State} (i : Incoming) (s : State) (hc : subParts [.live, .endpoint, .integ, .coh, .results, .buckets, .tcam, .furrow, .pair, .fresh, .out] cs = true) (h : Within cs r s) : Within cs r (tryResync i s) := by
  delta tryResync
  split
  with_reducible assumption
  with_reducible refine within_ite (fun _ => ?_) (fun _ => ?_)
  with_reducible assumption
  with_reducible refine within_ite (fun _ => ?_) (fun _ => ?_)
  with_reducible apply endResync_within
  with_reducible exact sub_of hc (by decide)
  with_reducible assumption
  with_reducible refine within_ite (fun _ => ?_) (fun _ => ?_)
  with_reducible assumption
  with_reducible refine within_ite (fun _ => ?_) (fun _ => ?_)
  with_reducible assumption
  with_reducible refine within_ite (fun _ => ?_) (fun _ => ?_)
  with_reducible apply resyncApplied_within
  with_reducible exact sub_of hc (by decide)
  with_reducible assumption
  split
  with_reducible assumption
  with_reducible apply resyncApplied_within
  with_reducible exact sub_of hc (by decide)
  with_reducible refine within_of_fail (by assumption) ?_
  with_reducible apply applyRegion_within
  with_reducible exact sub_of hc (by decide)
  with_reducible assumption
  with_reducible apply resyncApplied_within
  with_reducible exact sub_of hc (by decide)
  with_reducible refine within_of_done (by assumption) ?_
  with_reducible apply applyRegion_within
  with_reducible exact sub_of hc (by decide)
  with_reducible assumption
  with_reducible apply onPair_within
  with_reducible exact sub_of hc (by decide)
  with_reducible refine within_of_chain (by assumption) ?_
  with_reducible apply applyRegion_within
  with_reducible exact sub_of hc (by decide)
  with_reducible assumption

theorem execResyncEnd_within {cs : List Part} {r : State} (region : Nat) (length : Nat) (pairSeq : Nat) (digest : Nat) (s : State)
    (hc : subParts [.live, .endpoint, .integ, .coh, .results, .buckets, .tcam, .furrow, .pair, .fresh, .out] cs = true) (h : Within cs r s) : ResultWithin cs r (execResyncEnd region length pairSeq digest s) := by
  delta execResyncEnd
  with_reducible refine within_next ?_
  with_reducible refine within_ite (fun _ => ?_) (fun _ => ?_)
  with_reducible assumption
  extract_lets a10 a11
  with_reducible apply tryResync_within
  with_reducible exact sub_of hc (by decide)
  with_reducible apply onPair_within
  with_reducible exact sub_of hc (by decide)
  with_reducible assumption

theorem execResyncDone_within {cs : List Part} {r : State} (region : Nat) (s : State) (hc : subParts [.live, .pair] cs = true) (h : Within cs r s) : ResultWithin cs r (execResyncDone region s) := by
  delta execResyncDone
  with_reducible refine within_next ?_
  with_reducible refine within_ite (fun _ => ?_) (fun _ => ?_)
  with_reducible assumption
  with_reducible apply State.bump_within
  with_reducible exact sub_of hc (by decide)
  with_reducible apply onPair_within
  with_reducible exact sub_of hc (by decide)
  with_reducible assumption

theorem resumePair_within {cs : List Part} {r : State} (s : State)
    (hc : subParts [.wakes, .modes, .mode, .faults, .drowse, .busy, .live, .dict, .can, .keys, .vault, .flash, .tally, .tamper, .sluice, .endpoint, .rings, .scratch, .integ, .coh, .results, .buckets, .tcam, .furrow, .links, .slots, .headgate, .pair, .fresh, .out] cs = true) (h : Within cs r s) : Within cs r (resumePair s) := by
  delta resumePair
  extract_lets a5 a6 a7
  have e_a5 : Within cs r a5 := by
    unfold a5
    with_reducible refine within_foldl (fun _ _ _ => ?_) ?_
    with_reducible refine within_ite (fun _ => ?_) (fun _ => ?_)
    with_reducible apply applyPrepared_within
    with_reducible exact sub_of hc (by decide)
    with_reducible assumption
    with_reducible apply tryVote_within
    with_reducible exact sub_of hc (by decide)
    with_reducible assumption
    with_reducible apply endResyncs_within
    with_reducible exact sub_of hc (by decide)
    with_reducible assumption
  clear_value a5
  have e_a6 : Within cs r a6 := by
    unfold a6
    with_reducible refine within_foldl (fun _ _ _ => ?_) ?_
    with_reducible apply tryResync_within
    with_reducible exact sub_of hc (by decide)
    with_reducible assumption
    with_reducible assumption
  clear_value a6
  have e_a7 : Within cs r a7 := by
    unfold a7
    with_reducible refine within_foldl (fun _ _ _ => ?_) ?_
    with_reducible apply serveRegion_within
    with_reducible exact sub_of hc (by decide)
    with_reducible assumption
    with_reducible assumption
  clear_value a7
  with_reducible refine within_ite (fun _ => ?_) (fun _ => ?_)
  with_reducible assumption
  with_reducible refine within_foldl (fun _ _ _ => ?_) ?_
  split
  with_reducible apply settleFences_within
  with_reducible exact sub_of hc (by decide)
  with_reducible apply completeCommand_within
  with_reducible exact sub_of hc (by decide)
  with_reducible assumption
  with_reducible assumption
  with_reducible assumption

theorem execCulvertLost_within {cs : List Part} {r : State} (s : State) (hc : subParts [.mode, .faults, .drowse, .busy, .live, .keys, .vault, .tally, .endpoint, .rings, .buckets, .tcam, .links, .pair, .out] cs = true) (h : Within cs r s) : ResultWithin cs r (execCulvertLost s) := by
  delta execCulvertLost
  with_reducible refine within_next ?_
  with_reducible refine within_ite (fun _ => ?_) (fun _ => ?_)
  with_reducible assumption
  extract_lets a6 a7
  have e_a7 : Within cs r a7 := by
    unfold a7
    with_reducible apply trainCulvert_within
    with_reducible exact sub_of hc (by decide)
    with_reducible apply State.put_within
    with_reducible exact sub_of hc (by decide)
    with_reducible assumption
  clear_value a7
  with_reducible refine within_ite (fun _ => ?_) (fun _ => ?_)
  with_reducible apply setPairState_within
  with_reducible exact sub_of hc (by decide)
  with_reducible assumption
  with_reducible refine within_ite (fun _ => ?_) (fun _ => ?_)
  with_reducible apply setPairState_within
  with_reducible exact sub_of hc (by decide)
  with_reducible refine within_ite (fun _ => ?_) (fun _ => ?_)
  with_reducible apply dropHeld_within
  with_reducible exact sub_of hc (by decide)
  with_reducible assumption
  with_reducible apply resolveAwaiting_within
  with_reducible exact sub_of hc (by decide)
  with_reducible assumption
  with_reducible assumption

theorem execCulvertUp_within {cs : List Part} {r : State} (s : State) (hc : subParts [.mode, .faults, .drowse, .busy, .live, .vault, .tally, .endpoint, .buckets, .tcam, .links, .pair, .out] cs = true) (h : Within cs r s) : ResultWithin cs r (execCulvertUp s) := by
  delta execCulvertUp
  with_reducible refine within_next ?_
  with_reducible refine within_ite (fun _ => ?_) (fun _ => ?_)
  with_reducible assumption
  extract_lets a6
  have e_a6 : Within cs r a6 := by
    unfold a6
    with_reducible apply sendWaiting_within
    with_reducible exact sub_of hc (by decide)
    with_reducible apply State.put_within
    with_reducible exact sub_of hc (by decide)
    with_reducible assumption
  clear_value a6
  with_reducible refine within_ite (fun _ => ?_) (fun _ => ?_)
  with_reducible apply enterPairing_within
  with_reducible exact sub_of hc (by decide)
  with_reducible assumption
  with_reducible assumption

theorem promoteRole_within {cs : List Part} {r : State} (s : State) (hc : subParts [.live, .pair] cs = true) (h : Within cs r s) : PairWithin cs r (promoteRole s) := by
  delta promoteRole
  with_reducible refine pairWithin_ite (fun _ => ?_) (fun _ => ?_)
  with_reducible refine within_mkP ?_
  with_reducible apply State.put_within
  with_reducible exact sub_of hc (by decide)
  with_reducible apply onPair_within
  with_reducible exact sub_of hc (by decide)
  with_reducible assumption
  with_reducible refine within_mkP ?_
  with_reducible assumption

theorem pairRelease_within {cs : List Part} {r : State} (s : State) (hc : subParts [.mode, .faults, .drowse, .busy, .live, .vault, .tally, .endpoint, .buckets, .tcam, .links, .pair, .out] cs = true) (h : Within cs r s) : PairWithin cs r (pairRelease s) := by
  delta pairRelease
  with_reducible refine pairWithin_ite (fun _ => ?_) (fun _ => ?_)
  with_reducible refine within_mkP ?_
  with_reducible apply disableCulvert_within
  with_reducible exact sub_of hc (by decide)
  with_reducible apply setPairState_within
  with_reducible exact sub_of hc (by decide)
  with_reducible assumption
  with_reducible refine within_mkP ?_
  with_reducible assumption

theorem execTimeTimer_within {cs : List Part} {r : State} (s : State) (hc : subParts [.pair, .out] cs = true) (h : Within cs r s) : ResultWithin cs r (execTimeTimer s) := by
  delta execTimeTimer
  with_reducible refine within_next ?_
  with_reducible refine within_ite (fun _ => ?_) (fun _ => ?_)
  with_reducible apply sendCulvert_within
  with_reducible exact sub_of hc (by decide)
  with_reducible assumption
  with_reducible assumption

theorem takeOffset_within {cs : List Part} {r : State} (o : Int) (s : State) (hc : subParts [.clock, .live, .vault, .tally, .endpoint, .fresh, .out] cs = true) (h : Within cs r s) : Within cs r (takeOffset o s) := by
  delta takeOffset
  extract_lets a6
  split
  extract_lets a13 a14 a15
  have e_a14 : Within cs r a14 := by
    unfold a14
    with_reducible refine within_set_clock (sub_of hc (by decide)) rfl ?_
    with_reducible refine within_of_pair (by assumption) ?_
    with_reducible apply drawFresh_within
    with_reducible exact sub_of hc (by decide)
    with_reducible assumption
  clear_value a14
  have e_a15 : Within cs r a15 := by
    unfold a15
    with_reducible apply State.put_within
    with_reducible exact sub_of hc (by decide)
    with_reducible assumption
  clear_value a15
  with_reducible refine within_ite (fun _ => ?_) (fun _ => ?_)
  with_reducible refine within_ite (fun _ => ?_) (fun _ => ?_)
  with_reducible assumption
  with_reducible apply pairDisagree_within
  with_reducible exact sub_of hc (by decide)
  with_reducible apply State.put_within
  with_reducible exact sub_of hc (by decide)
  with_reducible assumption
  with_reducible refine within_ite (fun _ => ?_) (fun _ => ?_)
  with_reducible apply State.put_within
  with_reducible exact sub_of hc (by decide)
  with_reducible assumption
  with_reducible assumption

theorem execTime_within {cs : List Part} {r : State} (t1 : Nat) (t2 : Nat) (t3 : Nat) (t4 : Nat) (s : State) (hc : subParts [.clock, .live, .vault, .tally, .endpoint, .pair, .fresh, .out] cs = true) (h : Within cs r s) : ResultWithin cs r (execTime t1 t2 t3 t4 s) := by
  delta execTime
  with_reducible refine within_next ?_
  extract_lets a9 a10 a11
  have e_a11 : Within cs r a11 := by
    unfold a11
    with_reducible refine within_set_clock (sub_of hc (by decide)) rfl ?_
    with_reducible assumption
  clear_value a11
  with_reducible refine within_ite (fun _ => ?_) (fun _ => ?_)
  with_reducible refine within_ite (fun _ => ?_) (fun _ => ?_)
  dsimp only [a9]
  with_reducible apply sendCulvert_within
  with_reducible exact sub_of hc (by decide)
  with_reducible assumption
  with_reducible assumption
  with_reducible refine within_ite (fun _ => ?_) (fun _ => ?_)
  with_reducible refine within_ite (fun _ => ?_) (fun _ => ?_)
  with_reducible apply takeOffset_within
  with_reducible exact sub_of hc (by decide)
  with_reducible assumption
  with_reducible refine within_ite (fun _ => ?_) (fun _ => ?_)
  dsimp only [a9]
  with_reducible apply sendCulvert_within
  with_reducible exact sub_of hc (by decide)
  with_reducible assumption
  with_reducible assumption
  with_reducible assumption

theorem sendDigests_within {cs : List Part} {r : State} (seq : Nat) (m : SMap Nat) (a2 : Nat) (a3 : List Nat) (a4 : State) (hc : subParts [.pair, .out] cs = true) (h : Within cs r a4) : Within cs r (sendDigests seq m a2 a3 a4) := by
  induction a2 generalizing a3 a4 with
| zero => ?_
| succ n ih => ?_
  all_goals rw [sendDigests]
  with_reducible assumption
  with_reducible refine within_ite (fun _ => ?_) (fun _ => ?_)
  with_reducible assumption
  extract_lets a14 a15
  with_reducible apply ih
  with_reducible apply sendCulvert_within
  with_reducible exact sub_of hc (by decide)
  with_reducible assumption

theorem execStateDigestTimer_within {cs : List Part} {r : State} (s : State) (hc : subParts [.pair, .out] cs = true) (h : Within cs r s) : ResultWithin cs r (execStateDigestTimer s) := by
  delta execStateDigestTimer
  with_reducible refine within_next ?_
  with_reducible refine within_ite (fun _ => ?_) (fun _ => ?_)
  with_reducible assumption
  split
  with_reducible apply sendDigests_within
  with_reducible exact sub_of hc (by decide)
  with_reducible assumption
  with_reducible assumption

theorem regionDiffers_within {cs : List Part} {r : State} (r_ : Nat) (s : State) (hc : subParts [.drowse, .busy, .vault, .tally, .endpoint, .pair, .out] cs = true) (h : Within cs r s) : Within cs r (regionDiffers r_ s) := by
  delta regionDiffers
  with_reducible refine within_ite (fun _ => ?_) (fun _ => ?_)
  with_reducible refine within_ite (fun _ => ?_) (fun _ => ?_)
  with_reducible assumption
  with_reducible apply pairDisagree_within
  with_reducible exact sub_of hc (by decide)
  with_reducible apply onPair_within
  with_reducible exact sub_of hc (by decide)
  with_reducible assumption
  with_reducible refine within_ite (fun _ => ?_) (fun _ => ?_)
  with_reducible assumption
  with_reducible apply requestResync_within
  with_reducible exact sub_of hc (by decide)
  with_reducible apply pairDisagree_within
  with_reducible exact sub_of hc (by decide)
  with_reducible assumption

theorem execStateDigest_within {cs : List Part} {r : State} (pairSeq : Nat) (regions : List (Nat × Nat)) (a2 : Bool) (s : State)
    (hc : subParts [.drowse, .busy, .vault, .tally, .endpoint, .pair, .out] cs = true) (h : Within cs r s) : ResultWithin cs r (execStateDigest pairSeq regions a2 s) := by
  delta execStateDigest
  with_reducible refine within_next ?_
  with_reducible refine within_ite (fun _ => ?_) (fun _ => ?_)
  with_reducible assumption
  split
  with_reducible assumption
  with_reducible refine within_foldl (fun _ _ _ => ?_) ?_
  with_reducible refine within_ite (fun _ => ?_) (fun _ => ?_)
  with_reducible assumption
  with_reducible apply regionDiffers_within
  with_reducible exact sub_of hc (by decide)
  with_reducible assumption
  with_reducible assumption

theorem onChain_within {cs : List Part} {r : State} (f : Chain → Chain) (s : State) (hc : subParts [.chain] cs = true) (h : Within cs r s) : Within cs r (onChain f s) := by
  delta onChain
  with_reducible refine within_set_chain (sub_of hc (by decide)) ?_
  with_reducible assumption

theorem sendDiscover_within {cs : List Part} {r : State} (ps : List Nat) (s : State) (hc : subParts [.out] cs = true) (h : Within cs r s) : Within cs r (sendDiscover ps s) := by
  delta sendDiscover
  with_reducible apply sendDomino_within
  with_reducible exact sub_of hc (by decide)
  with_reducible assumption

theorem sendMemberId_within {cs : List Part} {r : State} (p : Nat) (uid : Nat) (s : State) (hc : subParts [.out] cs = true) (h : Within cs r s) : Within cs r (sendMemberId p uid s) := by
  delta sendMemberId
  with_reducible apply sendDomino_within
  with_reducible exact sub_of hc (by decide)
  with_reducible assumption

theorem execDominoLinkUp_within {cs : List Part} {r : State} (s : State) (hc : subParts [.faults, .live, .endpoint, .chain, .out] cs = true) (h : Within cs r s) : ResultWithin cs r (execDominoLinkUp s) := by
  delta execDominoLinkUp
  with_reducible refine within_next ?_
  with_reducible refine within_ite (fun _ => ?_) (fun _ => ?_)
  with_reducible assumption
  extract_lets a6 a7
  have e_a7 : Within cs r a7 := by
    unfold a7
    with_reducible apply setChainState_within
    with_reducible exact sub_of hc (by decide)
    with_reducible apply onChain_within
    with_reducible exact sub_of hc (by decide)
    with_reducible assumption
  clear_value a7
  with_reducible refine within_ite (fun _ => ?_) (fun _ => ?_)
  with_reducible apply sendChainDigest_within
  with_reducible exact sub_of hc (by decide)
  with_reducible apply sendDiscover_within
  with_reducible exact sub_of hc (by decide)
  with_reducible assumption
  with_reducible apply clearFault_within
  with_reducible exact sub_of hc (by decide)
  with_reducible assumption

theorem completeRing_within {cs : List Part} {r : State} (s : State) (hc : subParts [.faults, .live, .vault, .tally, .endpoint, .out] cs = true) (h : Within cs r s) : Within cs r (completeRing s) := by
  delta completeRing
  with_reducible apply judgeMembers_within
  with_reducible exact sub_of hc (by decide)
  with_reducible apply setChainState_within
  with_reducible exact sub_of hc (by decide)
  with_reducible assumption

theorem continueRewrite_within {cs : List Part} {r : State} (s : State) (hc : subParts [.faults, .live, .vault, .tally, .endpoint, .tcam, .chain, .out] cs = true) (h : Within cs r s) : Within cs r (continueRewrite s) := by
  delta continueRewrite
  split
  extract_lets a11
  have e_a11 : Within cs r a11 := by
    unfold a11
    with_reducible apply onChain_within
    with_reducible exact sub_of hc (by decide)
    with_reducible refine within_of_pair (by assumption) ?_
    with_reducible apply runJob_within
    with_reducible exact sub_of hc (by decide)
    with_reducible assumption
  clear_value a11
  with_reducible refine within_ite (fun _ => ?_) (fun _ => ?_)
  with_reducible apply completeRing_within
  with_reducible exact sub_of hc (by decide)
  with_reducible assumption
  with_reducible assumption

theorem judgeRing_within {cs : List Part} {r : State} (s : State) (hc : subParts [.faults, .live, .vault, .tally, .endpoint, .tcam, .chain, .out] cs = true) (h : Within cs r s) : Within cs r (judgeRing s) := by
  delta judgeRing
  with_reducible refine within_ite (fun _ => ?_) (fun _ => ?_)
  with_reducible assumption
  split
  with_reducible assumption
  with_reducible refine within_ite (fun _ => ?_) (fun _ => ?_)
  with_reducible apply setChainState_within
  with_reducible exact sub_of hc (by decide)
  with_reducible assumption
  with_reducible refine within_ite (fun _ => ?_) (fun _ => ?_)
  extract_lets a13 a14
  have e_a13 : Within cs r a13 := by
    unfold a13
    with_reducible apply onTcam_within
    with_reducible exact sub_of hc (by decide)
    with_reducible assumption
  clear_value a13
  with_reducible apply continueRewrite_within
  with_reducible exact sub_of hc (by decide)
  with_reducible apply onChain_within
  with_reducible exact sub_of hc (by decide)
  with_reducible assumption
  with_reducible assumption

theorem execDiscover_within {cs : List Part} {r : State} (positions : List Nat) (s : State) (hc : subParts [.faults, .live, .vault, .tally, .endpoint, .tcam, .chain, .out] cs = true) (h : Within cs r s) : ResultWithin cs r (execDiscover positions s) := by
  delta execDiscover
  with_reducible refine within_next ?_
  with_reducible refine within_ite (fun _ => ?_) (fun _ => ?_)
  with_reducible apply sendChainDigest_within
  with_reducible exact sub_of hc (by decide)
  with_reducible apply sendMemberId_within
  with_reducible exact sub_of hc (by decide)
  with_reducible apply sendDiscover_within
  with_reducible exact sub_of hc (by decide)
  with_reducible assumption
  with_reducible refine within_ite (fun _ => ?_) (fun _ => ?_)
  with_reducible apply judgeRing_within
  with_reducible exact sub_of hc (by decide)
  with_reducible apply onChain_within
  with_reducible exact sub_of hc (by decide)
  with_reducible assumption
  with_reducible assumption

theorem execMemberId_within {cs : List Part} {r : State} (position : Nat) (uid : Nat) (s : State) (hc : subParts [.faults, .live, .vault, .tally, .endpoint, .tcam, .chain, .out] cs = true) (h : Within cs r s) : ResultWithin cs r (execMemberId position uid s) := by
  delta execMemberId
  with_reducible refine within_next ?_
  with_reducible refine within_ite (fun _ => ?_) (fun _ => ?_)
  with_reducible apply sendMemberId_within
  with_reducible exact sub_of hc (by decide)
  with_reducible assumption
  with_reducible refine within_ite (fun _ => ?_) (fun _ => ?_)
  with_reducible apply judgeRing_within
  with_reducible exact sub_of hc (by decide)
  with_reducible apply onChain_within
  with_reducible exact sub_of hc (by decide)
  with_reducible assumption
  with_reducible assumption

theorem forwardLookup_within {cs : List Part} {r : State} (m : Sys2Proof.LookupMsg) (s : State) (hc : subParts [.out] cs = true) (h : Within cs r s) : Within cs r (forwardLookup m s) := by
  delta forwardLookup
  extract_lets a6
  with_reducible apply sendDomino_within
  with_reducible exact sub_of hc (by decide)
  with_reducible assumption

theorem memberSearch_within {cs : List Part} {r : State} (m : Sys2Proof.LookupMsg) (s : State) (hc : subParts [.modes, .mode, .faults, .busy, .live, .vault, .tally, .endpoint, .tcam, .out] cs = true) (h : Within cs r s) : PairWithin cs r (memberSearch m s) := by
  delta memberSearch
  extract_lets a6 a7
  split
  with_reducible refine within_mkP ?_
  with_reducible assumption
  extract_lets a13
  with_reducible refine pairWithin_ite (fun _ => ?_) (fun _ => ?_)
  with_reducible refine within_mkP ?_
  with_reducible assumption
  with_reducible refine pairWithin_ite (fun _ => ?_) (fun _ => ?_)
  with_reducible refine within_mkP ?_
  with_reducible assumption
  split
  with_reducible refine within_mkP ?_
  with_reducible refine within_of_pair (by assumption) ?_
  with_reducible apply tcamLookup_within
  with_reducible exact sub_of hc (by decide)
  with_reducible assumption
  with_reducible refine within_mkP ?_
  with_reducible refine within_of_pair (by assumption) ?_
  with_reducible apply tcamLookup_within
  with_reducible exact sub_of hc (by decide)
  with_reducible assumption
  with_reducible refine within_mkP ?_
  with_reducible refine within_of_pair (by assumption) ?_
  with_reducible apply tcamLookup_within
  with_reducible exact sub_of hc (by decide)
  with_reducible assumption

theorem execLookup_within {cs : List Part} {r : State} (m : Sys2Proof.LookupMsg) (s : State)
    (hc : subParts [.modes, .mode, .faults, .busy, .live, .vault, .tally, .sluice, .endpoint, .integ, .coh, .results, .buckets, .tcam, .links, .slots, .headgate, .out] cs = true) (h : Within cs r s) : ResultWithin cs r (execLookup m s) := by
  delta execLookup
  with_reducible refine within_next ?_
  with_reducible refine within_ite (fun _ => ?_) (fun _ => ?_)
  split
  with_reducible apply forwardLookup_within
  with_reducible exact sub_of hc (by decide)
  with_reducible refine within_of_pair (by assumption) ?_
  with_reducible apply memberSearch_within
  with_reducible exact sub_of hc (by decide)
  with_reducible assumption
  with_reducible refine within_ite (fun _ => ?_) (fun _ => ?_)
  with_reducible apply settleGrants_within
  with_reducible exact sub_of hc (by decide)
  with_reducible apply resolveLookup_within
  with_reducible exact sub_of hc (by decide)
  with_reducible assumption
  with_reducible assumption

theorem execChainTimeoutA_within {cs : List Part} {r : State} (slot : Nat) (s : State) (hc : subParts [.live, .endpoint, .buckets, .links, .slots, .headgate, .out] cs = true) (h : Within cs r s) : ResultWithin cs r (execChainTimeoutA slot s) := by
  delta execChainTimeoutA
  with_reducible apply within_onUnit
  with_reducible apply settleGrants_within
  with_reducible exact sub_of hc (by decide)
  with_reducible apply chainTimeout_within
  with_reducible exact sub_of hc (by decide)
  with_reducible assumption

theorem execChainTimeoutBc_within {cs : List Part} {r : State} (slot : Nat) (s : State) (hc : subParts [.live, .endpoint, .buckets, .links, .slots, .headgate, .out] cs = true) (h : Within cs r s) : ResultWithin cs r (execChainTimeoutBc slot s) := by
  delta execChainTimeoutBc
  with_reducible apply within_onUnit
  with_reducible apply settleGrants_within
  with_reducible exact sub_of hc (by decide)
  with_reducible apply chainTimeout_within
  with_reducible exact sub_of hc (by decide)
  with_reducible assumption

theorem execWrite_within {cs : List Part} {r : State} (pos : Nat) (quarter : Nat) (index : Nat) (shadow : Nat) (s : State) (hc : subParts [.tcam, .out] cs = true) (h : Within cs r s) : ResultWithin cs r (execWrite pos quarter index shadow s) := by
  delta execWrite
  with_reducible apply within_onUnit
  with_reducible refine within_ite (fun _ => ?_) (fun _ => ?_)
  with_reducible assumption
  with_reducible refine within_ite (fun _ => ?_) (fun _ => ?_)
  with_reducible apply sendDomino_within
  with_reducible exact sub_of hc (by decide)
  with_reducible assumption
  extract_lets a11 a12 a13
  have e_a12 : Within cs r a12 := by
    unfold a12
    with_reducible apply writeSlot_within
    with_reducible exact sub_of hc (by decide)
    with_reducible assumption
  clear_value a12
  have e_a13 : Within cs r a13 := by
    unfold a13
    with_reducible refine within_ite (fun _ => ?_) (fun _ => ?_)
    with_reducible apply onTcam_within
    with_reducible exact sub_of hc (by decide)
    with_reducible assumption
    with_reducible assumption
  clear_value a13
  with_reducible apply sendDomino_within
  with_reducible exact sub_of hc (by decide)
  with_reducible assumption

theorem finishBundle_within {cs : List Part} {r : State} (r_ : Nat) (b : Sys2Proof.Bytes) (result : Nat) (s : State)
    (hc : subParts [.modes, .mode, .faults, .busy, .live, .keys, .vault, .flash, .tally, .endpoint, .rings, .scratch, .integ, .fresh, .out] cs = true) (h : Within cs r s) : Within cs r (finishBundle r_ b result s) := by
  delta finishBundle
  split
  with_reducible apply settleFences_within
  with_reducible exact sub_of hc (by decide)
  with_reducible apply completeCommand_within
  with_reducible exact sub_of hc (by decide)
  with_reducible apply writeReceipt_within
  with_reducible exact sub_of hc (by decide)
  with_reducible refine within_of_pair (by assumption) ?_
  with_reducible apply acceptBundle_within
  with_reducible exact sub_of hc (by decide)
  with_reducible assumption

theorem recallJob_within {cs : List Part} {r : State} (j : ChainJob) (s : State) (hc : subParts [.tcam, .chain, .out] cs = true) (h : Within cs r s) : Within cs r (recallJob j s) := by
  delta recallJob
  extract_lets a6 a7 a8 a9 a10 a11 a12
  have e_a6 : Within cs r a6 := by
    unfold a6
    with_reducible apply abandonJob_within
    with_reducible exact sub_of hc (by decide)
    with_reducible assumption
  clear_value a6
  with_reducible refine within_ite (fun _ => ?_) (fun _ => ?_)
  with_reducible assumption
  with_reducible apply queueJob_within
  with_reducible exact sub_of hc (by decide)
  with_reducible assumption

theorem continueRing_within {cs : List Part} {r : State} (r_ : Nat) (j : ChainJob) (result : Nat) (seq : Nat) (s : State)
    (hc : subParts [.modes, .mode, .faults, .busy, .live, .keys, .vault, .flash, .tally, .endpoint, .rings, .scratch, .integ, .tcam, .pair, .chain, .fresh, .out] cs = true) (h : Within cs r s) : Within cs r (continueRing r_ j result seq s) := by
  delta continueRing
  with_reducible refine within_ite (fun _ => ?_) (fun _ => ?_)
  with_reducible apply failCommand_within
  with_reducible exact sub_of hc (by decide)
  with_reducible apply keyEvent_within
  with_reducible exact sub_of hc (by decide)
  with_reducible apply recallJob_within
  with_reducible exact sub_of hc (by decide)
  with_reducible assumption
  extract_lets a10
  split
  with_reducible refine within_ite (fun _ => ?_) (fun _ => ?_)
  with_reducible apply onRing_within
  with_reducible exact sub_of hc (by decide)
  with_reducible refine within_of_pair (by assumption) ?_
  with_reducible apply runJob_within
  with_reducible exact sub_of hc (by decide)
  with_reducible assumption
  with_reducible refine within_ite (fun _ => ?_) (fun _ => ?_)
  with_reducible apply finishBundle_within
  with_reducible exact sub_of hc (by decide)
  with_reducible refine within_of_pair (by assumption) ?_
  with_reducible apply runJob_within
  with_reducible exact sub_of hc (by decide)
  with_reducible assumption
  with_reducible refine within_ite (fun _ => ?_) (fun _ => ?_)
  with_reducible apply settleFences_within
  with_reducible exact sub_of hc (by decide)
  with_reducible apply completeCommand_within
  with_reducible exact sub_of hc (by decide)
  with_reducible refine within_ite (fun _ => ?_) (fun _ => ?_)
  with_reducible apply drowseBusy_within
  with_reducible exact sub_of hc (by decide)
  with_reducible refine within_of_pair (by assumption) ?_
  with_reducible apply runJob_within
  with_reducible exact sub_of hc (by decide)
  with_reducible assumption
  with_reducible refine within_of_pair (by assumption) ?_
  with_reducible apply runJob_within
  with_reducible exact sub_of hc (by decide)
  with_reducible assumption
  with_reducible apply sendCommit_within
  with_reducible exact sub_of hc (by decide)
  with_reducible refine within_of_pair (by assumption) ?_
  with_reducible apply runJob_within
  with_reducible exact sub_of hc (by decide)
  with_reducible assumption

theorem continuePair_within {cs : List Part} {r : State} (key : Nat) (j : ChainJob) (s : State) (hc : subParts [.live, .tcam, .pair, .out] cs = true) (h : Within cs r s) : Within cs r (continuePair key j s) := by
  delta continuePair
  split
  extract_lets a13
  have e_a13 : Within cs r a13 := by
    unfold a13
    with_reducible apply onPair_within
    with_reducible exact sub_of hc (by decide)
    with_reducible refine within_of_pair (by assumption) ?_
    with_reducible apply runJob_within
    with_reducible exact sub_of hc (by decide)
    with_reducible assumption
  clear_value a13
  with_reducible refine within_ite (fun _ => ?_) (fun _ => ?_)
  with_reducible apply onPair_within
  with_reducible exact sub_of hc (by decide)
  with_reducible assumption
  with_reducible refine within_ite (fun _ => ?_) (fun _ => ?_)
  with_reducible apply appliedPrepared_within
  with_reducible exact sub_of hc (by decide)
  with_reducible assumption
  with_reducible apply resyncApplied_within
  with_reducible exact sub_of hc (by decide)
  with_reducible assumption

theorem writeAcked_within {cs : List Part} {r : State} (p : Nat) (s : State)
    (hc : subParts [.modes, .mode, .faults, .busy, .live, .keys, .vault, .flash, .tally, .endpoint, .rings, .scratch, .integ, .tcam, .pair, .chain, .fresh, .out] cs = true) (h : Within cs r s) : Within cs r (writeAcked p s) := by
  delta writeAcked
  split
  split
  with_reducible refine within_ite (fun _ => ?_) (fun _ => ?_)
  with_reducible apply continueRing_within
  with_reducible exact sub_of hc (by decide)
  with_reducible refine within_of_pair (by assumption) ?_
  with_reducible apply ackJob_within
  with_reducible exact sub_of hc (by decide)
  with_reducible assumption
  with_reducible apply onRing_within
  with_reducible exact sub_of hc (by decide)
  with_reducible refine within_of_pair (by assumption) ?_
  with_reducible apply ackJob_within
  with_reducible exact sub_of hc (by decide)
  with_reducible assumption
  split
  split
  with_reducible refine within_ite (fun _ => ?_) (fun _ => ?_)
  with_reducible apply continuePair_within
  with_reducible exact sub_of hc (by decide)
  with_reducible refine within_of_pair (by assumption) ?_
  with_reducible apply ackJob_within
  with_reducible exact sub_of hc (by decide)
  with_reducible assumption
  with_reducible apply onPair_within
  with_reducible exact sub_of hc (by decide)
  with_reducible refine within_of_pair (by assumption) ?_
  with_reducible apply ackJob_within
  with_reducible exact sub_of hc (by decide)
  with_reducible assumption
  with_reducible refine within_ite (fun _ => ?_) (fun _ => ?_)
  split
  extract_lets a21
  have e_a21 : Within cs r a21 := by
    unfold a21
    with_reducible apply onChain_within
    with_reducible exact sub_of hc (by decide)
    with_reducible refine within_of_pair (by assumption) ?_
    with_reducible apply ackJob_within
    with_reducible exact sub_of hc (by decide)
    with_reducible assumption
  clear_value a21
  with_reducible refine within_ite (fun _ => ?_) (fun _ => ?_)
  with_reducible apply continueRewrite_within
  with_reducible exact sub_of hc (by decide)
  with_reducible assumption
  with_reducible assumption
  with_reducible assumption

theorem resumeChain_within {cs : List Part} {r : State} (s : State)
    (hc : subParts [.modes, .mode, .faults, .busy, .live, .keys, .vault, .flash, .tally, .endpoint, .rings, .scratch, .integ, .tcam, .pair, .chain, .fresh, .out] cs = true) (h : Within cs r s) : Within cs r (resumeChain s) := by
  delta resumeChain
  with_reducible refine within_ite (fun _ => ?_) (fun _ => ?_)
  with_reducible assumption
  extract_lets a6 a7
  have e_a6 : Within cs r a6 := by
    unfold a6
    with_reducible refine within_foldl (fun _ _ _ => ?_) ?_
    split
    with_reducible refine within_ite (fun _ => ?_) (fun _ => ?_)
    with_reducible apply continueRing_within
    with_reducible exact sub_of hc (by decide)
    with_reducible assumption
    with_reducible assumption
    with_reducible assumption
    with_reducible assumption
  clear_value a6
  have e_a7 : Within cs r a7 := by
    unfold a7
    with_reducible refine within_foldl (fun _ _ _ => ?_) ?_
    with_reducible refine within_ite (fun _ => ?_) (fun _ => ?_)
    with_reducible apply continuePair_within
    with_reducible exact sub_of hc (by decide)
    with_reducible assumption
    with_reducible assumption
    with_reducible assumption
  clear_value a7
  with_reducible refine within_ite (fun _ => ?_) (fun _ => ?_)
  with_reducible apply continueRewrite_within
  with_reducible exact sub_of hc (by decide)
  with_reducible assumption
  with_reducible apply judgeRing_within
  with_reducible exact sub_of hc (by decide)
  with_reducible assumption

theorem execWriteAck_within {cs : List Part} {r : State} (position : Nat) (quarter : Nat) (index : Nat) (s : State)
    (hc : subParts [.modes, .mode, .faults, .busy, .live, .keys, .vault, .flash, .tally, .endpoint, .rings, .scratch, .integ, .tcam, .pair, .chain, .fresh, .out] cs = true) (h : Within cs r s) : ResultWithin cs r (execWriteAck position quarter index s) := by
  delta execWriteAck
  with_reducible apply within_onUnit
  with_reducible refine within_ite (fun _ => ?_) (fun _ => ?_)
  with_reducible apply sendDomino_within
  with_reducible exact sub_of hc (by decide)
  with_reducible assumption
  with_reducible refine within_ite (fun _ => ?_) (fun _ => ?_)
  with_reducible apply writeAcked_within
  with_reducible exact sub_of hc (by decide)
  with_reducible assumption
  with_reducible assumption

theorem execChainDigest_within {cs : List Part} {r : State} (pos : Nat) (digest : Nat) (s : State) (hc : subParts [.faults, .live, .vault, .tally, .endpoint, .chain, .out] cs = true) (h : Within cs r s) : ResultWithin cs r (execChainDigest pos digest s) := by
  delta execChainDigest
  with_reducible refine within_next ?_
  with_reducible refine within_ite (fun _ => ?_) (fun _ => ?_)
  with_reducible refine within_ite (fun _ => ?_) (fun _ => ?_)
  with_reducible assumption
  with_reducible apply sendDomino_within
  with_reducible exact sub_of hc (by decide)
  with_reducible assumption
  with_reducible refine within_ite (fun _ => ?_) (fun _ => ?_)
  with_reducible apply judgeMembers_within
  with_reducible exact sub_of hc (by decide)
  with_reducible apply onChain_within
  with_reducible exact sub_of hc (by decide)
  with_reducible assumption
  with_reducible assumption

theorem mapRewrite_within {cs : List Part} {r : State} (j : ChainJob) (s : State) (hc : subParts [.tcam, .out] cs = true) (h : Within cs r s) : Within cs r (mapRewrite j s) := by
  delta mapRewrite
  extract_lets a6
  have e_a6 : Within cs r a6 := by
    unfold a6
    with_reducible refine within_foldl (fun _ _ _ => ?_) ?_
    split
    with_reducible apply setRemote_within
    with_reducible exact sub_of hc (by decide)
    with_reducible assumption
    with_reducible assumption
    with_reducible assumption
  clear_value a6
  with_reducible refine within_snd ?_
  with_reducible apply runJob_within
  with_reducible exact sub_of hc (by decide)
  with_reducible assumption

theorem breakRing_within {cs : List Part} {r : State} (s : State) (hc : subParts [.faults, .live, .keys, .endpoint, .rings, .buckets, .tcam, .links, .slots, .headgate, .pair, .chain, .out] cs = true) (h : Within cs r s) : Within cs r (breakRing s) := by
  delta breakRing
  extract_lets a5 a6 a7 a8 a9 a10 a11 a12 a13
  have e_a8 : Within cs r a8 := by
    unfold a8
    with_reducible apply setChainState_within
    with_reducible exact sub_of hc (by decide)
    with_reducible apply onChain_within
    with_reducible exact sub_of hc (by decide)
    with_reducible assumption
  clear_value a8
  have e_a9 : Within cs r a9 := by
    unfold a9
    with_reducible refine within_foldl (fun _ _ _ => ?_) ?_
    with_reducible apply abandonJob_within
    with_reducible exact sub_of hc (by decide)
    with_reducible assumption
    with_reducible apply mapRewrite_within
    with_reducible exact sub_of hc (by decide)
    with_reducible assumption
  clear_value a9
  have e_a10 : Within cs r a10 := by
    unfold a10
    with_reducible refine within_foldl (fun _ _ _ => ?_) ?_
    with_reducible apply chainTimeout_within
    with_reducible exact sub_of hc (by decide)
    with_reducible assumption
    with_reducible assumption
  clear_value a10
  have e_a11 : Within cs r a11 := by
    unfold a11
    with_reducible refine within_foldl (fun _ _ _ => ?_) ?_
    split
    with_reducible refine within_ite (fun _ => ?_) (fun _ => ?_)
    with_reducible apply failCommand_within
    with_reducible exact sub_of hc (by decide)
    with_reducible refine within_ite (fun _ => ?_) (fun _ => ?_)
    with_reducible assumption
    with_reducible apply sendAbort_within
    with_reducible exact sub_of hc (by decide)
    with_reducible assumption
    with_reducible assumption
    with_reducible assumption
    with_reducible assumption
  clear_value a11
  have e_a13 : Within cs r a13 := by
    unfold a13
    with_reducible apply onPair_within
    with_reducible exact sub_of hc (by decide)
    with_reducible assumption
  clear_value a13
  with_reducible apply settleGrants_within
  with_reducible exact sub_of hc (by decide)
  with_reducible refine within_foldl (fun _ _ _ => ?_) ?_
  with_reducible apply resyncApplied_within
  with_reducible exact sub_of hc (by decide)
  with_reducible assumption
  with_reducible assumption

theorem execDominoLinkLost_within {cs : List Part} {r : State} (s : State) (hc : subParts [.faults, .live, .keys, .endpoint, .rings, .buckets, .tcam, .links, .slots, .headgate, .pair, .chain, .out] cs = true) (h : Within cs r s) : ResultWithin cs r (execDominoLinkLost s) := by
  delta execDominoLinkLost
  with_reducible refine within_next ?_
  with_reducible refine within_ite (fun _ => ?_) (fun _ => ?_)
  with_reducible apply breakRing_within
  with_reducible exact sub_of hc (by decide)
  with_reducible assumption
  with_reducible assumption

theorem resumeAll_within {cs : List Part} {r : State} (s : State)
    (hc : subParts [.wakes, .modes, .mode, .faults, .drowse, .busy, .live, .dict, .can, .keys, .vault, .flash, .tally, .tamper, .sluice, .endpoint, .rings, .scratch, .integ, .coh, .results, .buckets, .tcam, .furrow, .links, .slots, .headgate, .pair, .chain, .fresh, .out] cs = true) (h : Within cs r s) : Within cs r (resumeAll s) := by
  delta resumeAll
  extract_lets a5
  have e_a5 : Within cs r a5 := by
    unfold a5
    with_reducible apply resumeRings_within
    with_reducible exact sub_of hc (by decide)
    with_reducible apply resumeChain_within
    with_reducible exact sub_of hc (by decide)
    with_reducible apply resumePair_within
    with_reducible exact sub_of hc (by decide)
    with_reducible assumption
  clear_value a5
  with_reducible apply settleFences_within
  with_reducible exact sub_of hc (by decide)
  with_reducible refine within_foldl (fun _ _ _ => ?_) ?_
  with_reducible apply skipWaiting_within
  with_reducible exact sub_of hc (by decide)
  with_reducible assumption
  with_reducible assumption

theorem execLpddrTrainingFailed_within {cs : List Part} {r : State} (s : State)
    (hc : subParts [.wakes, .modes, .mode, .faults, .drowse, .busy, .live, .dict, .can, .keys, .vault, .flash, .tally, .tamper, .sluice, .endpoint, .rings, .scratch, .integ, .coh, .results, .buckets, .tcam, .furrow, .links, .slots, .headgate, .pair, .chain, .fresh, .out] cs = true) (h : Within cs r s) : ResultWithin cs r (execLpddrTrainingFailed s) := by
  delta execLpddrTrainingFailed
  with_reducible refine within_next ?_
  with_reducible refine within_ite (fun _ => ?_) (fun _ => ?_)
  with_reducible apply resumeAll_within
  with_reducible exact sub_of hc (by decide)
  with_reducible apply trainingFailed_within
  with_reducible exact sub_of hc (by decide)
  with_reducible assumption
  with_reducible assumption

theorem execShadowReady_within {cs : List Part} {r : State} (s : State)
    (hc : subParts [.wakes, .modes, .mode, .faults, .drowse, .busy, .live, .dict, .can, .keys, .vault, .flash, .tally, .tamper, .sluice, .endpoint, .rings, .scratch, .integ, .coh, .results, .buckets, .tcam, .furrow, .links, .slots, .headgate, .pair, .chain, .fresh, .out] cs = true) (h : Within cs r s) : ResultWithin cs r (execShadowReady s) := by
  delta execShadowReady
  with_reducible refine within_next ?_
  with_reducible refine within_ite (fun _ => ?_) (fun _ => ?_)
  with_reducible apply resumeAll_within
  with_reducible exact sub_of hc (by decide)
  with_reducible apply shadowFilled_within
  with_reducible exact sub_of hc (by decide)
  with_reducible assumption
  with_reducible assumption

theorem execExtReady_within {cs : List Part} {r : State} (s : State)
    (hc : subParts [.wakes, .modes, .mode, .faults, .drowse, .busy, .live, .dict, .can, .keys, .vault, .flash, .tally, .tamper, .sluice, .endpoint, .rings, .scratch, .integ, .coh, .results, .buckets, .tcam, .furrow, .links, .slots, .headgate, .pair, .chain, .fresh, .out] cs = true) (h : Within cs r s) : ResultWithin cs r (execExtReady s) := by
  delta execExtReady
  with_reducible refine within_next ?_
  with_reducible refine within_ite (fun _ => ?_) (fun _ => ?_)
  with_reducible assumption
  extract_lets a6
  have e_a6 : Within cs r a6 := by
    unfold a6
    with_reducible apply extFilled_within
    with_reducible exact sub_of hc (by decide)
    with_reducible assumption
  clear_value a6
  with_reducible apply resumeAll_within
  with_reducible exact sub_of hc (by decide)
  with_reducible refine within_ite (fun _ => ?_) (fun _ => ?_)
  with_reducible apply placeDeferred_within
  with_reducible exact sub_of hc (by decide)
  with_reducible assumption
  with_reducible assumption

theorem sleepSeal_within {cs : List Part} {r : State} (s : State) (hc : subParts [.faults, .live, .flash, .tally, .sluice, .endpoint, .scratch, .integ, .fresh, .out] cs = true) (h : Within cs r s) : Within cs r (sleepSeal s) := by
  delta sleepSeal
  with_reducible refine within_ite (fun _ => ?_) (fun _ => ?_)
  extract_lets a6 a7
  have e_a6 : Within cs r a6 := by
    unfold a6
    with_reducible refine within_snd ?_
    with_reducible apply commitAndSeal_within
    with_reducible exact sub_of hc (by decide)
    with_reducible assumption
  clear_value a6
  with_reducible refine within_set_sluice (sub_of hc (by decide)) ?_
  with_reducible assumption
  with_reducible assumption

theorem execRestartComplete_within {cs : List Part} {r : State} (s : State)
    (hc : subParts [.wakes, .modes, .mode, .faults, .drowse, .busy, .live, .dict, .can, .keys, .vault, .flash, .tally, .tamper, .sluice, .endpoint, .rings, .scratch, .integ, .coh, .results, .buckets, .tcam, .furrow, .links, .slots, .headgate, .pair, .chain, .fresh, .out] cs = true) (h : Within cs r s) : ResultWithin cs r (execRestartComplete s) := by
  delta execRestartComplete
  with_reducible refine within_next ?_
  with_reducible refine within_ite (fun _ => ?_) (fun _ => ?_)
  with_reducible apply sleepSeal_within
  with_reducible exact sub_of hc (by decide)
  with_reducible apply resumeAll_within
  with_reducible exact sub_of hc (by decide)
  with_reducible apply endRestart_within
  with_reducible exact sub_of hc (by decide)
  with_reducible assumption
  with_reducible assumption

theorem resumeWaiting_within {cs : List Part} {r : State} (s : State)
    (hc : subParts [.wakes, .modes, .mode, .faults, .drowse, .busy, .live, .dict, .can, .keys, .vault, .flash, .tally, .tamper, .sluice, .endpoint, .rings, .scratch, .integ, .coh, .results, .buckets, .tcam, .furrow, .links, .slots, .headgate, .pair, .chain, .fresh, .out] cs = true) (h : Within cs r s) : Within cs r (resumeWaiting s) := by
  delta resumeWaiting
  extract_lets a5
  have e_a5 : Within cs r a5 := by
    unfold a5
    with_reducible refine within_foldl (fun _ _ _ => ?_) ?_
    with_reducible refine within_ite (fun _ => ?_) (fun _ => ?_)
    with_reducible apply applyPrepared_within
    with_reducible exact sub_of hc (by decide)
    with_reducible assumption
    with_reducible assumption
    with_reducible assumption
  clear_value a5
  with_reducible refine within_foldl (fun _ _ _ => ?_) ?_
  with_reducible apply skipWaiting_within
  with_reducible exact sub_of hc (by decide)
  with_reducible assumption
  with_reducible apply resumeRings_within
  with_reducible exact sub_of hc (by decide)
  with_reducible apply resumeChain_within
  with_reducible exact sub_of hc (by decide)
  with_reducible assumption

end Sys2Proof.Machine
end

