-- ==== Sys2Proof/Laws/WithinPower.lean ====
section
/-! SUPPORT. What each operation of power and modes may change, once for each (`<operation>_within`); callers cite these and do not unfold. -/

set_option linter.unusedVariables false
set_option linter.unusedSimpArgs false
namespace Sys2Proof.Machine

theorem coreOff_within {cs : List Part} {r : State} (s : State)
    (hc : subParts [.clock, .power, .wakes, .modes, .mode, .faults, .drowse, .busy, .live, .dict, .mailbox, .can, .keys, .tally, .tamper, .jack, .sluice, .endpoint, .rings, .scratch, .integ, .coh, .results, .buckets, .tcam, .furrow, .links, .slots, .headgate, .pair, .chain] cs = true) (h : Within cs r s) : Within cs r (coreOff s) := by
  delta coreOff
  refine within_update (ps := [.clock, .power, .wakes, .modes, .mode, .faults, .drowse, .busy, .live, .dict, .mailbox, .can, .keys, .tally, .tamper, .jack, .sluice, .endpoint, .rings, .scratch, .integ, .coh, .results, .buckets, .tcam, .furrow, .links, .slots, .headgate, .pair, .chain]) rfl (sub_of hc (by decide)) (fun p hp => by cases p <;> first | exact absurd (by decide) hp | with_unfolding_all rfl) (restartRtc_wall _ _) (Nat.le_refl _) (Nat.le_refl _) (List.suffix_refl _) (fun _ => rfl) (fun _ => rfl) (fun _ => rfl) (fun _ => rfl) (fun _ => rfl) id (fun _ => .inr (.inr rfl)) (fun _ => rfl) (fun _ => rfl) (fun _ => rfl) h

theorem losePower_within {cs : List Part} {r : State} (mode : Nat) (s : State)
    (hc : subParts [.clock, .power, .wakes, .modes, .mode, .faults, .drowse, .busy, .live, .dict, .mailbox, .can, .keys, .vault, .tally, .tamper, .jack, .sluice, .endpoint, .rings, .scratch, .integ, .coh, .results, .buckets, .tcam, .furrow, .links, .slots, .headgate, .pair, .chain, .fresh, .out] cs = true) (h : Within cs r s) (hm : legalMode mode) : Within cs r (losePower mode s) := by
  delta losePower
  extract_lets a7 a8
  have e_a7 : Within cs r a7 := by
    unfold a7
    with_reducible apply coreOff_within
    with_reducible exact sub_of hc (by decide)
    with_reducible assumption
  clear_value a7
  with_reducible apply seedMesh_within
  with_reducible exact sub_of hc (by decide)
  with_reducible apply changeMode_within
  with_reducible exact sub_of hc (by decide)
  with_reducible refine within_set_power_unplanned (sub_of hc (by decide)) ?_
  with_reducible assumption
  with_reducible assumption

theorem execVauxRise_within {cs : List Part} {r : State} (slew : Nat) (s : State) (hc : subParts [.clock, .power, .mode, .busy, .vault, .tally, .tamper, .sluice, .endpoint, .fresh, .out] cs = true) (h : Within cs r s) : ResultWithin cs r (execVauxRise slew s) := by
  unfold execVauxRise
  refine within_onUnit ?_
  split
  exact h
  refine seedMesh_within _ (sub_of hc (by decide)) ?_
  refine changeMode_within _ _ _ (sub_of hc (by decide)) ?_ ⟨by decide, by decide⟩
  refine within_update (ps := [.clock, .power, .sluice]) rfl (sub_of hc (by decide)) (fun p hp => by cases p <;> first | exact absurd (by decide) hp | rfl) ?_ (Nat.le_refl _) (Nat.le_refl _) (List.suffix_refl _) id id id id id id id id id id h
  by_cases hr : s.clock.rtcOn = true
  all_goals simp [hr]

theorem islandOff_within {cs : List Part} {r : State} (s : State) (hc : subParts [.power, .wakes, .live, .sluice, .pair] cs = true) (h : Within cs r s) : Within cs r (islandOff s) := by
  delta islandOff
  with_reducible refine within_update (ps := [.power, .wakes, .live, .sluice, .pair]) rfl (sub_of hc (by decide)) (fun p hp => by cases p <;> first | exact absurd (by decide) hp | with_unfolding_all rfl) rfl (Nat.le_refl _) (Nat.le_refl _) (List.suffix_refl _) id id id id id id id id id id ?_
  with_reducible assumption

theorem execVauxLoss_within {cs : List Part} {r : State} (s : State)
    (hc : subParts [.clock, .power, .wakes, .modes, .mode, .faults, .drowse, .busy, .live, .dict, .mailbox, .can, .keys, .vault, .tally, .tamper, .jack, .sluice, .endpoint, .rings, .scratch, .integ, .coh, .results, .buckets, .tcam, .furrow, .links, .slots, .headgate, .pair, .chain, .fresh, .out] cs = true) (h : Within cs r s) : ResultWithin cs r (execVauxLoss s) := by
  delta execVauxLoss
  with_reducible refine within_next ?_
  with_reducible refine within_ite (fun _ => ?_) (fun _ => ?_)
  with_reducible assumption
  with_reducible refine within_ite (fun _ => ?_) (fun _ => ?_)
  with_reducible apply islandOff_within
  with_reducible exact sub_of hc (by decide)
  with_reducible apply losePower_within
  with_reducible exact sub_of hc (by decide)
  with_reducible assumption
  exact (by unfold legalMode; decide)
  with_reducible apply seedMesh_within
  with_reducible exact sub_of hc (by decide)
  with_reducible apply changeMode_within
  with_reducible exact sub_of hc (by decide)
  with_reducible apply islandOff_within
  with_reducible exact sub_of hc (by decide)
  with_reducible assumption
  exact (by unfold legalMode; decide)

theorem execVbatLost_within {cs : List Part} {r : State} (s : State) (hc : subParts [.clock, .power, .vault, .tamper] cs = true) (h : Within cs r s) : ResultWithin cs r (execVbatLost s) := by
  delta execVbatLost
  with_reducible refine within_next ?_
  with_reducible refine within_ite (fun _ => ?_) (fun _ => ?_)
  with_reducible assumption
  with_reducible refine within_update (ps := [.clock, .power, .vault, .tamper]) rfl (sub_of hc (by decide)) (fun p hp => by cases p <;> first | exact absurd (by decide) hp | with_unfolding_all rfl) rfl (Nat.le_refl _) (Nat.le_refl _) (List.suffix_refl _) id id id id id id id id id id ?_
  with_reducible assumption

theorem execPwrGoodAssert_within {cs : List Part} {r : State} (nodeId : Nat) (secondary : Bool) (chainPos : Nat) (s : State)
    (hc : subParts [.clock, .power, .wakes, .modes, .mode, .busy, .can, .vault, .tally, .tamper, .sluice, .endpoint, .integ, .fresh, .out] cs = true) (h : Within cs r s) : ResultWithin cs r (execPwrGoodAssert nodeId secondary chainPos s) := by
  delta execPwrGoodAssert
  with_reducible apply within_onUnit
  with_reducible refine within_ite (fun _ => ?_) (fun _ => ?_)
  with_reducible assumption
  extract_lets a9 a10 a11 a12 a13 a14 a15 a16 a17
  have e_a17 : Within cs r a17 := by
    unfold a17
    with_reducible apply changeMode_within
    with_reducible exact sub_of hc (by decide)
    with_reducible refine within_update (ps := [.clock, .power, .wakes, .modes, .can, .tamper, .sluice, .integ]) rfl (sub_of hc (by decide)) (fun p hp => by cases p <;> first | exact absurd (by decide) hp | with_unfolding_all rfl) rfl (Nat.le_refl _) (Nat.le_refl _) (List.suffix_refl _) id id id id id id id id id id ?_
    with_reducible assumption
    exact (by unfold legalMode; decide)
  clear_value a17
  with_reducible apply seedMesh_within
  with_reducible exact sub_of hc (by decide)
  with_reducible assumption

theorem takePuf_within {cs : List Part} {r : State} (s : State) (hc : subParts [.integ] cs = true) (h : Within cs r s) : Within cs r (takePuf s) := by
  delta takePuf
  with_reducible apply onInteg_within
  with_reducible exact sub_of hc (by decide)
  with_reducible assumption
  with_reducible exact fun _ h => h

theorem execRootReconstructed_within {cs : List Part} {r : State} (ok : Bool) (s : State) (hc : subParts [.modes, .mode, .faults, .busy, .live, .keys, .vault, .tally, .endpoint, .integ, .fresh, .out] cs = true) (h : Within cs r s) : ResultWithin cs r (execRootReconstructed ok s) := by
  delta execRootReconstructed
  with_reducible refine within_next ?_
  with_reducible refine within_ite (fun _ => ?_) (fun _ => ?_)
  with_reducible assumption
  extract_lets a7 a8 a9 a10 a11 a12
  have e_a8 : Within cs r a8 := by
    unfold a8
    with_reducible apply takePuf_within
    with_reducible exact sub_of hc (by decide)
    with_reducible refine within_set_modes_rootDone (sub_of hc (by decide)) ?_
    with_reducible assumption
  clear_value a8
  have e_a12 : Within cs r a12 := by
    unfold a12
    with_reducible refine within_update (ps := [.keys]) rfl (sub_of hc (by decide)) (fun p hp => by cases p <;> first | exact absurd (by decide) hp | with_unfolding_all rfl) rfl (Nat.le_refl _) (Nat.le_refl _) (List.suffix_refl _) id id id id id id id id id id ?_
    with_reducible assumption
  clear_value a12
  with_reducible refine within_ite (fun _ => ?_) (fun _ => ?_)
  with_reducible apply raiseFault_within
  with_reducible exact sub_of hc (by decide)
  with_reducible apply setLocked_within
  with_reducible exact sub_of hc (by decide)
  with_reducible refine within_update (ps := [.keys]) rfl (sub_of hc (by decide)) (fun p hp => by cases p <;> first | exact absurd (by decide) hp | with_unfolding_all rfl) rfl (Nat.le_refl _) (Nat.le_refl _) (List.suffix_refl _) id id id id id id id id id id ?_
  with_reducible assumption
  with_reducible refine within_ite (fun _ => ?_) (fun _ => ?_)
  with_reducible apply raiseFault_within
  with_reducible exact sub_of hc (by decide)
  with_reducible apply setLocked_within
  with_reducible exact sub_of hc (by decide)
  with_reducible refine within_update (ps := [.keys]) rfl (sub_of hc (by decide)) (fun p hp => by cases p <;> first | exact absurd (by decide) hp | with_unfolding_all rfl) rfl (Nat.le_refl _) (Nat.le_refl _) (List.suffix_refl _) id id id id id id id id id id ?_
  with_reducible assumption
  with_reducible refine within_ite (fun _ => ?_) (fun _ => ?_)
  with_reducible assumption
  split
  with_reducible apply raiseFault_within
  with_reducible exact sub_of hc (by decide)
  with_reducible apply journal_within
  with_reducible exact sub_of hc (by decide)
  with_reducible refine within_of_pair (by assumption) ?_
  with_reducible apply drawFresh_within
  with_reducible exact sub_of hc (by decide)
  with_reducible assumption

theorem execOnChipFillDone_within {cs : List Part} {r : State} (s : State) (hc : subParts [.modes, .live, .integ] cs = true) (h : Within cs r s) : ResultWithin cs r (execOnChipFillDone s) := by
  delta execOnChipFillDone
  with_reducible refine within_next ?_
  with_reducible refine within_ite (fun _ => ?_) (fun _ => ?_)
  with_reducible assumption
  with_reducible apply State.put_within
  with_reducible exact sub_of hc (by decide)
  with_reducible apply onInteg_within
  with_reducible exact sub_of hc (by decide)
  with_reducible apply takePuf_within
  with_reducible exact sub_of hc (by decide)
  with_reducible refine within_set_modes_fillDone (sub_of hc (by decide)) ?_
  with_reducible assumption
  with_reducible exact fun _ h => h

theorem checkVault_within {cs : List Part} {r : State} (s : State) (hc : subParts [.modes, .mode, .faults, .busy, .live, .keys, .vault, .tally, .endpoint, .fresh, .out] cs = true) (h : Within cs r s) : Within cs r (checkVault s) := by
  delta checkVault
  extract_lets a5 a6 a7 a8 a9 a10
  have e_a8 : Within cs r a8 := by
    unfold a8
    with_reducible refine within_set_keys_lost (sub_of hc (by decide)) ?_
    with_reducible assumption
  clear_value a8
  have e_a9 : Within cs r a9 := by
    unfold a9
    with_reducible refine within_ite (fun _ => ?_) (fun _ => ?_)
    with_reducible apply setLocked_within
    with_reducible exact sub_of hc (by decide)
    with_reducible assumption
    with_reducible assumption
  clear_value a9
  with_reducible refine within_ite (fun _ => ?_) (fun _ => ?_)
  with_reducible refine within_ite (fun _ => ?_) (fun _ => ?_)
  with_reducible apply setLocked_within
  with_reducible exact sub_of hc (by decide)
  with_reducible assumption
  with_reducible assumption
  with_reducible refine within_ite (fun _ => ?_) (fun _ => ?_)
  with_reducible refine within_ite (fun _ => ?_) (fun _ => ?_)
  with_reducible apply setLocked_within
  with_reducible exact sub_of hc (by decide)
  with_reducible assumption
  with_reducible assumption
  with_reducible refine within_ite (fun _ => ?_) (fun _ => ?_)
  split
  with_reducible apply setLocked_within
  with_reducible exact sub_of hc (by decide)
  with_reducible apply onVault_within
  with_reducible exact sub_of hc (by decide)
  with_reducible refine within_of_pair (by assumption) ?_
  with_reducible apply drbg16_within
  with_reducible exact sub_of hc (by decide)
  with_reducible assumption
  with_reducible apply onVault_within
  with_reducible exact sub_of hc (by decide)
  with_reducible assumption

theorem sendEarly_within {cs : List Part} {r : State} (s : State) (hc : subParts [.faults, .live, .out] cs = true) (h : Within cs r s) : Within cs r (sendEarly s) := by
  delta sendEarly
  extract_lets a5 a6
  with_reducible refine within_foldl (fun _ _ _ => ?_) ?_
  with_reducible apply emcySpaced_within
  with_reducible exact sub_of hc (by decide)
  with_reducible assumption
  with_reducible refine within_set_modes_early (sub_of hc (by decide)) ?_
  with_reducible assumption

theorem bootUp_within {cs : List Part} {r : State} (s : State) (hc : subParts [.out] cs = true) (h : Within cs r s) : Within cs r (bootUp s) := by
  delta bootUp
  with_reducible apply canSend_within
  with_reducible exact sub_of hc (by decide)
  with_reducible assumption

theorem startDomino_within {cs : List Part} {r : State} (s : State) (hc : subParts [.out] cs = true) (h : Within cs r s) : Within cs r (startDomino s) := by
  delta startDomino
  with_reducible refine within_ite (fun _ => ?_) (fun _ => ?_)
  with_reducible apply emit_within
  with_reducible exact sub_of hc (by decide)
  with_reducible assumption
  with_reducible assumption

theorem startFirmware_within {cs : List Part} {r : State} (slot : Nat) (b : Sys2Proof.Bytes) (s : State)
    (hc : subParts [.modes, .mode, .faults, .busy, .live, .can, .keys, .vault, .tally, .tamper, .jack, .endpoint, .links, .pair, .fresh, .out] cs = true) (h : Within cs r s) : Within cs r (startFirmware slot b s) := by
  delta startFirmware
  extract_lets a7 a8 a9 a10 a11 a12 a13 a14 a15 a16 a17
  have e_a8 : Within cs r a8 := by
    unfold a8
    with_reducible refine within_update (ps := [.modes]) rfl (sub_of hc (by decide)) (fun p hp => by cases p <;> first | exact absurd (by decide) hp | with_unfolding_all rfl) rfl (Nat.le_refl _) (Nat.le_refl _) (List.suffix_refl _) id id id id id id id id id id ?_
    with_reducible assumption
  have e_a9 : Within cs r a9 := by
    unfold a9
    with_reducible apply checkVault_within
    with_reducible exact sub_of hc (by decide)
    with_reducible refine within_ite (fun _ => ?_) (fun _ => ?_)
    with_reducible assumption
    with_reducible apply setLocked_within
    with_reducible exact sub_of hc (by decide)
    with_reducible assumption
  clear_value a9
  have e_a13 : Within cs r a13 := by
    unfold a13
    with_reducible refine within_update (ps := [.modes, .can]) rfl (sub_of hc (by decide)) (fun p hp => by cases p <;> first | exact absurd (by decide) hp | with_unfolding_all rfl) rfl (Nat.le_refl _) (Nat.le_refl _) (List.suffix_refl _) id id id id id id id id id id ?_
    with_reducible assumption
  clear_value a13
  have e_a14 : Within cs r a14 := by
    unfold a14
    with_reducible apply reconcileChain_within
    with_reducible exact sub_of hc (by decide)
    with_reducible apply sendEarly_within
    with_reducible exact sub_of hc (by decide)
    with_reducible apply bootUp_within
    with_reducible exact sub_of hc (by decide)
    with_reducible apply State.put_within
    with_reducible exact sub_of hc (by decide)
    with_reducible assumption
  clear_value a14
  have e_a15 : Within cs r a15 := by
    unfold a15
    with_reducible apply drawNonce_within
    with_reducible exact sub_of hc (by decide)
    with_reducible apply journalWaiting_within
    with_reducible exact sub_of hc (by decide)
    with_reducible assumption
  clear_value a15
  have e_a16 : Within cs r a16 := by
    unfold a16
    with_reducible refine within_ite (fun _ => ?_) (fun _ => ?_)
    with_reducible assumption
    with_reducible apply journalTamper_within
    with_reducible exact sub_of hc (by decide)
    with_reducible apply raiseFault_within
    with_reducible exact sub_of hc (by decide)
    with_reducible assumption
  clear_value a16
  have e_a17 : Within cs r a17 := by
    unfold a17
    with_reducible refine within_ite (fun _ => ?_) (fun _ => ?_)
    with_reducible apply enableCulvert_within
    with_reducible exact sub_of hc (by decide)
    with_reducible assumption
    with_reducible assumption
  clear_value a17
  with_reducible apply startDomino_within
  with_reducible exact sub_of hc (by decide)
  with_reducible apply startLinks_within
  with_reducible exact sub_of hc (by decide)
  with_reducible assumption

theorem execFirmwareVerified_within {cs : List Part} {r : State} (s : State)
    (hc : subParts [.modes, .mode, .faults, .busy, .live, .can, .keys, .vault, .flash, .tally, .tamper, .jack, .sluice, .endpoint, .rings, .scratch, .integ, .links, .slots, .pair, .chain, .fresh, .out] cs = true) (h : Within cs r s) : ResultWithin cs r (execFirmwareVerified s) := by
  delta execFirmwareVerified
  with_reducible refine within_next ?_
  with_reducible refine within_ite (fun _ => ?_) (fun _ => ?_)
  with_reducible assumption
  split
  with_reducible apply enterHalt_within
  with_reducible exact sub_of hc (by decide)
  with_reducible assumption
  with_reducible apply startFirmware_within
  with_reducible exact sub_of hc (by decide)
  with_reducible assumption

theorem endFill_within {cs : List Part} {r : State} (s : State) (hc : subParts [.modes, .mode, .busy, .vault, .tally, .endpoint, .out] cs = true) (h : Within cs r s) : Within cs r (endFill s) := by
  delta endFill
  with_reducible apply settleMode_within
  with_reducible exact sub_of hc (by decide)
  with_reducible refine within_set_modes_fillEnded (sub_of hc (by decide)) ?_
  with_reducible assumption

theorem execFillEnd_within {cs : List Part} {r : State} (s : State)
    (hc : subParts [.wakes, .modes, .mode, .faults, .drowse, .busy, .live, .dict, .can, .keys, .vault, .tally, .tamper, .sluice, .endpoint, .rings, .scratch, .integ, .coh, .results, .buckets, .tcam, .links, .slots, .headgate, .pair, .chain, .fresh, .out] cs = true) (h : Within cs r s) : ResultWithin cs r (execFillEnd s) := by
  delta execFillEnd
  with_reducible refine within_next ?_
  with_reducible refine within_ite (fun _ => ?_) (fun _ => ?_)
  with_reducible assumption
  extract_lets a6 a7 a8 a9 a10 a11 a12
  have e_a7 : Within cs r a7 := by
    unfold a7
    with_reducible refine within_set_buckets (sub_of hc (by decide)) ?_
    with_reducible assumption
  clear_value a7
  have e_a8 : Within cs r a8 := by
    unfold a8
    with_reducible apply State.put_within
    with_reducible exact sub_of hc (by decide)
    with_reducible assumption
  clear_value a8
  have e_a9 : Within cs r a9 := by
    unfold a9
    with_reducible apply restoreFreshness_within
    with_reducible exact sub_of hc (by decide)
    with_reducible apply applyManifest_within
    with_reducible exact sub_of hc (by decide)
    with_reducible assumption
  clear_value a9
  have e_a10 : Within cs r a10 := by
    unfold a10
    with_reducible apply takeArming_within
    with_reducible exact sub_of hc (by decide)
    with_reducible assumption
  clear_value a10
  have e_a11 : Within cs r a11 := by
    unfold a11
    with_reducible refine within_ite (fun _ => ?_) (fun _ => ?_)
    with_reducible apply enterPairing_within
    with_reducible exact sub_of hc (by decide)
    with_reducible apply enableCulvert_within
    with_reducible exact sub_of hc (by decide)
    with_reducible assumption
    with_reducible assumption
  clear_value a11
  have e_a12 : Within cs r a12 := by
    unfold a12
    with_reducible apply endFill_within
    with_reducible exact sub_of hc (by decide)
    with_reducible assumption
  clear_value a12
  with_reducible apply journal_within
  with_reducible exact sub_of hc (by decide)
  with_reducible assumption

theorem execClassAReady_within {cs : List Part} {r : State} (s : State) (hc : subParts [.modes, .live, .links, .slots, .headgate] cs = true) (h : Within cs r s) : ResultWithin cs r (execClassAReady s) := by
  delta execClassAReady
  with_reducible refine within_next ?_
  with_reducible refine within_ite (fun _ => ?_) (fun _ => ?_)
  with_reducible assumption
  extract_lets a6 a7 a8 a9
  have e_a7 : Within cs r a7 := by
    unfold a7
    with_reducible refine within_set_modes_classReady (sub_of hc (by decide)) ?_
    with_reducible assumption
  clear_value a7
  have e_a8 : Within cs r a8 := by
    unfold a8
    with_reducible apply State.put_within
    with_reducible exact sub_of hc (by decide)
    with_reducible assumption
  clear_value a8
  have e_a9 : Within cs r a9 := by
    unfold a9
    with_reducible refine within_foldl (fun _ _ _ => ?_) ?_
    with_reducible apply fillLinkBucket_within
    with_reducible exact sub_of hc (by decide)
    with_reducible assumption
    with_reducible assumption
  clear_value a9
  with_reducible apply onHeadgate_within
  with_reducible exact sub_of hc (by decide)
  with_reducible assumption
  with_reducible exact fun _ h => h

theorem execClassBReady_within {cs : List Part} {r : State} (s : State) (hc : subParts [.modes, .live, .keys, .vault, .tally, .endpoint, .integ, .coh, .results, .buckets, .fresh, .out] cs = true) (h : Within cs r s) : ResultWithin cs r (execClassBReady s) := by
  delta execClassBReady
  with_reducible refine within_next ?_
  with_reducible refine within_ite (fun _ => ?_) (fun _ => ?_)
  with_reducible assumption
  extract_lets a6 a7 a8 a9
  have e_a6 : Within cs r a6 := by
    unfold a6
    with_reducible refine within_ite (fun _ => ?_) (fun _ => ?_)
    with_reducible apply journal_within
    with_reducible exact sub_of hc (by decide)
    with_reducible assumption
    with_reducible assumption
  clear_value a6
  have e_a7 : Within cs r a7 := by
    unfold a7
    with_reducible apply placeDeferred_within
    with_reducible exact sub_of hc (by decide)
    with_reducible assumption
  clear_value a7
  have e_a9 : Within cs r a9 := by
    unfold a9
    with_reducible refine within_set_modes_classReady (sub_of hc (by decide)) ?_
    with_reducible assumption
  clear_value a9
  with_reducible apply State.put_within
  with_reducible exact sub_of hc (by decide)
  with_reducible assumption

theorem execPwrGoodDeassert_within {cs : List Part} {r : State} (s : State)
    (hc : subParts [.clock, .power, .wakes, .modes, .mode, .faults, .drowse, .busy, .live, .dict, .mailbox, .can, .keys, .vault, .tally, .tamper, .jack, .sluice, .endpoint, .rings, .scratch, .integ, .coh, .results, .buckets, .tcam, .furrow, .links, .slots, .headgate, .pair, .chain, .fresh, .out] cs = true) (h : Within cs r s) : ResultWithin cs r (execPwrGoodDeassert s) := by
  delta execPwrGoodDeassert
  with_reducible refine within_next ?_
  with_reducible refine within_ite (fun _ => ?_) (fun _ => ?_)
  with_reducible apply losePower_within
  with_reducible exact sub_of hc (by decide)
  with_reducible assumption
  exact (by unfold legalMode; decide)
  with_reducible assumption

theorem execSleepEntry_within {cs : List Part} {r : State} (s : State) (hc : subParts [.faults, .live, .flash, .tally, .sluice, .endpoint, .scratch, .integ, .fresh, .out] cs = true) (h : Within cs r s) : ResultWithin cs r (execSleepEntry s) := by
  delta execSleepEntry
  with_reducible refine within_next ?_
  with_reducible refine within_ite (fun _ => ?_) (fun _ => ?_)
  with_reducible assumption
  with_reducible apply sleepSeal_within
  with_reducible exact sub_of hc (by decide)
  with_reducible refine within_ite (fun _ => ?_) (fun _ => ?_)
  with_reducible refine within_set_sluice (sub_of hc (by decide)) ?_
  with_reducible assumption
  with_reducible assumption

theorem sleepNow_within {cs : List Part} {r : State} (s : State)
    (hc : subParts [.clock, .power, .wakes, .modes, .mode, .faults, .drowse, .busy, .live, .dict, .mailbox, .can, .keys, .vault, .flash, .tally, .tamper, .jack, .sluice, .endpoint, .rings, .scratch, .integ, .coh, .results, .buckets, .tcam, .furrow, .links, .slots, .headgate, .pair, .chain, .fresh, .out] cs = true) (h : Within cs r s) : Within cs r (sleepNow s) := by
  delta sleepNow
  extract_lets a5 a6 a7 a8 a9
  have e_a6 : Within cs r a6 := by
    unfold a6
    with_reducible apply seedMesh_within
    with_reducible exact sub_of hc (by decide)
    with_reducible apply changeMode_within
    with_reducible exact sub_of hc (by decide)
    with_reducible apply coreOff_within
    with_reducible exact sub_of hc (by decide)
    with_reducible apply tallyCommit_within
    with_reducible exact sub_of hc (by decide)
    with_reducible assumption
    exact (by unfold legalMode; decide)
  clear_value a6
  have e_a9 : Within cs r a9 := by
    unfold a9
    with_reducible refine within_update (ps := [.power, .wakes, .sluice]) rfl (sub_of hc (by decide)) (fun p hp => by cases p <;> first | exact absurd (by decide) hp | with_unfolding_all rfl) rfl (Nat.le_refl _) (Nat.le_refl _) (List.suffix_refl _) id id id id id id id id id id ?_
    with_reducible assumption
  clear_value a9
  with_reducible refine within_ite (fun _ => ?_) (fun _ => ?_)
  with_reducible apply assertPwrHold_within
  with_reducible exact sub_of hc (by decide)
  with_reducible assumption
  with_reducible assumption

theorem execCoreSleep_within {cs : List Part} {r : State} (s : State)
    (hc : subParts [.clock, .power, .wakes, .modes, .mode, .faults, .drowse, .busy, .live, .dict, .mailbox, .can, .keys, .vault, .flash, .tally, .tamper, .jack, .sluice, .endpoint, .rings, .scratch, .integ, .coh, .results, .buckets, .tcam, .furrow, .links, .slots, .headgate, .pair, .chain, .fresh, .out] cs = true) (h : Within cs r s) : ResultWithin cs r (execCoreSleep s) := by
  delta execCoreSleep
  with_reducible refine within_next ?_
  with_reducible refine within_ite (fun _ => ?_) (fun _ => ?_)
  with_reducible assumption
  with_reducible apply sleepNow_within
  with_reducible exact sub_of hc (by decide)
  with_reducible refine within_ite (fun _ => ?_) (fun _ => ?_)
  with_reducible apply writeSnapshot_within
  with_reducible exact sub_of hc (by decide)
  with_reducible assumption
  with_reducible assumption

theorem execSleepEntryTimeout_within {cs : List Part} {r : State} (s : State)
    (hc : subParts [.clock, .power, .wakes, .modes, .mode, .faults, .drowse, .busy, .live, .dict, .mailbox, .can, .keys, .vault, .flash, .tally, .tamper, .jack, .sluice, .endpoint, .rings, .scratch, .integ, .coh, .results, .buckets, .tcam, .furrow, .links, .slots, .headgate, .pair, .chain, .fresh, .out] cs = true) (h : Within cs r s) : ResultWithin cs r (execSleepEntryTimeout s) := by
  delta execSleepEntryTimeout
  with_reducible refine within_next ?_
  with_reducible refine within_ite (fun _ => ?_) (fun _ => ?_)
  with_reducible assumption
  extract_lets a6
  have e_a6 : Within cs r a6 := by
    unfold a6
    with_reducible apply State.bump_within
    with_reducible exact sub_of hc (by decide)
    with_reducible assumption
  clear_value a6
  with_reducible apply sleepNow_within
  with_reducible exact sub_of hc (by decide)
  with_reducible apply raiseFault_within
  with_reducible exact sub_of hc (by decide)
  with_reducible assumption

theorem stopDomain_within {cs : List Part} {r : State} (k : Nat) (s : State) (hc : subParts [.clock, .modes, .faults, .live, .keys, .endpoint, .rings, .buckets, .tcam, .links, .slots, .headgate, .pair, .chain, .out] cs = true) (h : Within cs r s) : Within cs r (stopDomain k s) := by
  delta stopDomain
  split
  with_reducible refine within_foldl (fun _ _ _ => ?_) ?_
  with_reducible refine within_ite (fun _ => ?_) (fun _ => ?_)
  with_reducible assumption
  with_reducible apply linkDown_within
  with_reducible exact sub_of hc (by decide)
  with_reducible assumption
  with_reducible assumption
  with_reducible refine within_ite (fun _ => ?_) (fun _ => ?_)
  with_reducible assumption
  with_reducible apply State.put_within
  with_reducible exact sub_of hc (by decide)
  with_reducible assumption
  with_reducible refine within_ite (fun _ => ?_) (fun _ => ?_)
  with_reducible apply breakRing_within
  with_reducible exact sub_of hc (by decide)
  with_reducible assumption
  with_reducible assumption
  with_reducible refine within_set_host_canSend (sub_of hc (by decide)) ?_
  with_reducible assumption
  with_reducible refine within_set_modes_k8At (sub_of hc (by decide)) ?_
  with_reducible assumption
  with_reducible refine within_set_clock (sub_of hc (by decide)) rfl ?_
  with_reducible assumption
  with_reducible assumption

theorem restartDomain_within {cs : List Part} {r : State} (k : Nat) (s : State) (hc : subParts [.clock, .wakes, .modes, .live, .sluice, .links, .pair, .out] cs = true) (h : Within cs r s) : Within cs r (restartDomain k s) := by
  delta restartDomain
  split
  with_reducible refine within_ite (fun _ => ?_) (fun _ => ?_)
  with_reducible assumption
  with_reducible refine within_foldl (fun _ _ _ => ?_) ?_
  with_reducible refine within_ite (fun _ => ?_) (fun _ => ?_)
  with_reducible apply startTraining_within
  with_reducible exact sub_of hc (by decide)
  with_reducible apply onLink_within
  with_reducible exact sub_of hc (by decide)
  with_reducible assumption
  with_reducible assumption
  with_reducible assumption
  with_reducible refine within_ite (fun _ => ?_) (fun _ => ?_)
  with_reducible assumption
  with_reducible apply trainCulvert_within
  with_reducible exact sub_of hc (by decide)
  with_reducible apply State.put_within
  with_reducible exact sub_of hc (by decide)
  with_reducible assumption
  with_reducible refine within_ite (fun _ => ?_) (fun _ => ?_)
  with_reducible assumption
  with_reducible apply startDomino_within
  with_reducible exact sub_of hc (by decide)
  with_reducible assumption
  with_reducible refine within_update (ps := [.clock, .modes]) rfl (sub_of hc (by decide)) (fun p hp => by cases p <;> first | exact absurd (by decide) hp | with_unfolding_all rfl) rfl (Nat.le_refl _) (Nat.le_refl _) (List.suffix_refl _) id id id id id id id id id id ?_
  with_reducible assumption
  with_reducible apply takeHeld_within
  with_reducible exact sub_of hc (by decide)
  with_reducible refine within_set_clock (sub_of hc (by decide)) ?_ ?_
  with_reducible exact restartRtc_wall _ _
  with_reducible assumption
  with_reducible assumption

theorem execReferenceLost_within {cs : List Part} {r : State} (domain : Nat) (s : State)
    (hc : subParts [.clock, .modes, .faults, .live, .keys, .endpoint, .rings, .buckets, .tcam, .links, .slots, .headgate, .pair, .chain, .out] cs = true) (h : Within cs r s) : ResultWithin cs r (execReferenceLost domain s) := by
  delta execReferenceLost
  with_reducible apply within_onUnit
  with_reducible refine within_ite (fun _ => ?_) (fun _ => ?_)
  with_reducible assumption
  extract_lets a7 a8
  have e_a8 : Within cs r a8 := by
    unfold a8
    with_reducible apply stopDomain_within
    with_reducible exact sub_of hc (by decide)
    with_reducible refine within_set_modes_refLost (sub_of hc (by decide)) ?_
    with_reducible assumption
  clear_value a8
  with_reducible apply raiseFault_within
  with_reducible exact sub_of hc (by decide)
  with_reducible assumption

theorem execReferenceRestored_within {cs : List Part} {r : State} (domain : Nat) (s : State)
    (hc : subParts [.clock, .wakes, .modes, .mode, .faults, .drowse, .busy, .live, .dict, .can, .keys, .vault, .flash, .tally, .tamper, .sluice, .endpoint, .rings, .scratch, .integ, .coh, .results, .buckets, .tcam, .furrow, .links, .slots, .headgate, .pair, .chain, .fresh, .out] cs = true) (h : Within cs r s) : ResultWithin cs r (execReferenceRestored domain s) := by
  delta execReferenceRestored
  with_reducible apply within_onUnit
  with_reducible refine within_ite (fun _ => ?_) (fun _ => ?_)
  with_reducible assumption
  extract_lets a7 a8
  have e_a8 : Within cs r a8 := by
    unfold a8
    with_reducible apply resumeAll_within
    with_reducible exact sub_of hc (by decide)
    with_reducible apply restartDomain_within
    with_reducible exact sub_of hc (by decide)
    with_reducible refine within_set_modes_refLost (sub_of hc (by decide)) ?_
    with_reducible assumption
  clear_value a8
  with_reducible refine within_ite (fun _ => ?_) (fun _ => ?_)
  with_reducible apply clearFault_within
  with_reducible exact sub_of hc (by decide)
  with_reducible assumption
  with_reducible apply raiseFault_within
  with_reducible exact sub_of hc (by decide)
  with_reducible assumption

theorem execSupplyRangeTimer_within {cs : List Part} {r : State} (rail : Nat) (s : State) (hc : subParts [.faults, .live, .endpoint, .out] cs = true) (h : Within cs r s) : ResultWithin cs r (execSupplyRangeTimer rail s) := by
  delta execSupplyRangeTimer
  with_reducible apply within_onUnit
  with_reducible refine within_ite (fun _ => ?_) (fun _ => ?_)
  with_reducible apply raiseFault_within
  with_reducible exact sub_of hc (by decide)
  with_reducible assumption
  with_reducible assumption

theorem execPaceUpdate_within {cs : List Part} {r : State} (p0 : Nat) (p1 : Nat) (p2 : Nat) (p3 : Nat) (s : State) (hc : subParts [.faults, .live, .endpoint, .out] cs = true) (h : Within cs r s) : ResultWithin cs r (execPaceUpdate p0 p1 p2 p3 s) := by
  delta execPaceUpdate
  with_reducible apply within_onUnit
  with_reducible refine within_ite (fun _ => ?_) (fun _ => ?_)
  with_reducible assumption
  extract_lets a10 a11 a12
  have e_a11 : Within cs r a11 := by
    unfold a11
    with_reducible apply State.put_within
    with_reducible exact sub_of hc (by decide)
    with_reducible apply State.put_within
    with_reducible exact sub_of hc (by decide)
    with_reducible apply State.put_within
    with_reducible exact sub_of hc (by decide)
    with_reducible apply State.put_within
    with_reducible exact sub_of hc (by decide)
    with_reducible assumption
  clear_value a11
  have e_a12 : Within cs r a12 := by
    unfold a12
    with_reducible apply State.put_within
    with_reducible exact sub_of hc (by decide)
    with_reducible apply State.put_within
    with_reducible exact sub_of hc (by decide)
    with_reducible assumption
  clear_value a12
  with_reducible refine within_ite (fun _ => ?_) (fun _ => ?_)
  with_reducible apply raiseFault_within
  with_reducible exact sub_of hc (by decide)
  with_reducible assumption
  with_reducible assumption

theorem putRow_within {cs : List Part} {r : State} (o : Nat → Nat) (w : Nat) (n : Nat) (vs : List Nat) (s : State) (hc : subParts [.live] cs = true) (h : Within cs r s) : Within cs r (putRow o w n vs s) := by
  delta putRow
  with_reducible refine within_foldl (fun _ _ _ => ?_) ?_
  with_reducible apply State.put_within
  with_reducible exact sub_of hc (by decide)
  with_reducible assumption
  with_reducible assumption

theorem checkTemperature_within {cs : List Part} {r : State} (s : State) (hc : subParts [.faults, .live, .endpoint, .out] cs = true) (h : Within cs r s) : Within cs r (checkTemperature s) := by
  delta checkTemperature
  extract_lets a5 a6 a7
  have e_a7 : Within cs r a7 := by
    unfold a7
    with_reducible refine within_ite (fun _ => ?_) (fun _ => ?_)
    with_reducible apply raiseFault_within
    with_reducible exact sub_of hc (by decide)
    with_reducible assumption
    with_reducible refine within_ite (fun _ => ?_) (fun _ => ?_)
    with_reducible apply clearFault_within
    with_reducible exact sub_of hc (by decide)
    with_reducible assumption
    with_reducible assumption
  clear_value a7
  with_reducible refine within_ite (fun _ => ?_) (fun _ => ?_)
  with_reducible apply raiseFault_within
  with_reducible exact sub_of hc (by decide)
  with_reducible assumption
  with_reducible refine within_ite (fun _ => ?_) (fun _ => ?_)
  with_reducible apply clearFault_within
  with_reducible exact sub_of hc (by decide)
  with_reducible assumption
  with_reducible assumption

theorem execTelemetryUpdate_within {cs : List Part} {r : State} (t : Sys2Proof.Telemetry) (s : State) (hc : subParts [.faults, .live, .endpoint, .out] cs = true) (h : Within cs r s) : ResultWithin cs r (execTelemetryUpdate t s) := by
  delta execTelemetryUpdate
  with_reducible refine within_next ?_
  with_reducible refine within_ite (fun _ => ?_) (fun _ => ?_)
  with_reducible assumption
  extract_lets a7 a8 a9 a10 a11 a12 a13 a14 a15
  have e_a10 : Within cs r a10 := by
    unfold a10
    with_reducible apply putRow_within
    with_reducible exact sub_of hc (by decide)
    with_reducible assumption
  clear_value a10
  have e_a11 : Within cs r a11 := by
    unfold a11
    with_reducible apply State.put_within
    with_reducible exact sub_of hc (by decide)
    with_reducible apply State.put_within
    with_reducible exact sub_of hc (by decide)
    with_reducible assumption
  clear_value a11
  have e_a12 : Within cs r a12 := by
    unfold a12
    with_reducible apply putRow_within
    with_reducible exact sub_of hc (by decide)
    with_reducible apply putRow_within
    with_reducible exact sub_of hc (by decide)
    with_reducible assumption
  clear_value a12
  have e_a13 : Within cs r a13 := by
    unfold a13
    with_reducible apply State.put_within
    with_reducible exact sub_of hc (by decide)
    with_reducible assumption
  clear_value a13
  have e_a14 : Within cs r a14 := by
    unfold a14
    with_reducible apply State.put_within
    with_reducible exact sub_of hc (by decide)
    with_reducible assumption
  clear_value a14
  have e_a15 : Within cs r a15 := by
    unfold a15
    with_reducible apply State.put_within
    with_reducible exact sub_of hc (by decide)
    with_reducible apply State.put_within
    with_reducible exact sub_of hc (by decide)
    with_reducible assumption
  clear_value a15
  with_reducible apply checkTemperature_within
  with_reducible exact sub_of hc (by decide)
  with_reducible apply State.put_within
  with_reducible exact sub_of hc (by decide)
  with_reducible assumption

theorem execDrowseEntry_within {cs : List Part} {r : State} (s : State) (hc : subParts [.drowse] cs = true) (h : Within cs r s) : ResultWithin cs r (execDrowseEntry s) := by
  delta execDrowseEntry
  with_reducible refine within_next ?_
  with_reducible refine within_ite (fun _ => ?_) (fun _ => ?_)
  with_reducible refine within_set_modes_drowse (sub_of hc (by decide)) ?_
  with_reducible assumption
  with_reducible assumption

theorem execDrowseLateralsDrained_within {cs : List Part} {r : State} (s : State)
    (hc : subParts [.mode, .faults, .drowse, .busy, .live, .vault, .tally, .endpoint, .rings, .integ, .coh, .results, .buckets, .links, .slots, .headgate, .out] cs = true) (h : Within cs r s) : ResultWithin cs r (execDrowseLateralsDrained s) := by
  delta execDrowseLateralsDrained
  with_reducible refine within_next ?_
  with_reducible refine within_ite (fun _ => ?_) (fun _ => ?_)
  with_reducible assumption
  extract_lets a6 a7 a8
  have e_a6 : Within cs r a6 := by
    unfold a6
    with_reducible refine within_foldl (fun _ _ _ => ?_) ?_
    with_reducible apply agentLeaves_within
    with_reducible exact sub_of hc (by decide)
    with_reducible assumption
    with_reducible assumption
  clear_value a6
  have e_a7 : Within cs r a7 := by
    unfold a7
    with_reducible refine within_foldl (fun _ _ _ => ?_) ?_
    with_reducible apply onScrub_within
    with_reducible exact sub_of hc (by decide)
    with_reducible assumption
    with_reducible assumption
  clear_value a7
  with_reducible apply State.bump_within
  with_reducible exact sub_of hc (by decide)
  with_reducible apply settleMode_within
  with_reducible exact sub_of hc (by decide)
  with_reducible refine within_set_modes_drowse (sub_of hc (by decide)) ?_
  with_reducible assumption

theorem execDrowseExitComplete_within {cs : List Part} {r : State} (s : State)
    (hc : subParts [.wakes, .modes, .mode, .faults, .drowse, .busy, .live, .dict, .can, .keys, .vault, .flash, .tally, .tamper, .sluice, .endpoint, .rings, .scratch, .integ, .coh, .results, .buckets, .tcam, .furrow, .links, .slots, .headgate, .pair, .chain, .fresh, .out] cs = true) (h : Within cs r s) : ResultWithin cs r (execDrowseExitComplete s) := by
  delta execDrowseExitComplete
  with_reducible refine within_next ?_
  with_reducible refine within_ite (fun _ => ?_) (fun _ => ?_)
  with_reducible assumption
  extract_lets a6 a7 a8
  have e_a8 : Within cs r a8 := by
    unfold a8
    with_reducible apply settleMode_within
    with_reducible exact sub_of hc (by decide)
    with_reducible refine within_set_modes_drowse (sub_of hc (by decide)) ?_
    with_reducible assumption
  clear_value a8
  with_reducible apply resumeAll_within
  with_reducible exact sub_of hc (by decide)
  with_reducible apply State.peak_within
  with_reducible exact sub_of hc (by decide)
  with_reducible assumption

theorem drowseExit_within {cs : List Part} {r : State} (s : State) (hc : subParts [.drowse, .busy] cs = true) (h : Within cs r s) : Within cs r (drowseExit s) := by
  delta drowseExit
  with_reducible apply drowseTrigger_within
  with_reducible exact sub_of hc (by decide)
  with_reducible assumption

theorem firmwareStage_within {cs : List Part} {r : State} (v : Sys2Proof.Bytes) (s : State) (hc : subParts [.modes, .live] cs = true) (h : Within cs r s) : PairWithin cs r (firmwareStage v s) := by
  delta firmwareStage
  with_reducible refine pairWithin_ite (fun _ => ?_) (fun _ => ?_)
  with_reducible refine within_mkP ?_
  with_reducible assumption
  with_reducible refine within_mkP ?_
  with_reducible apply countRefusals_within
  with_reducible exact sub_of hc (by decide)
  with_reducible refine within_update (ps := [.modes]) rfl (sub_of hc (by decide)) (fun p hp => by cases p <;> first | exact absurd (by decide) hp | with_unfolding_all rfl) rfl (Nat.le_refl _) (Nat.le_refl _) (List.suffix_refl _) id id id id id id id id id id ?_
  with_reducible assumption

theorem programSlot_within {cs : List Part} {r : State} (b : Sys2Proof.Bytes) (s : State) (hc : subParts [.flash] cs = true) (h : Within cs r s) : Within cs r (programSlot b s) := by
  delta programSlot
  with_reducible refine within_set_flash (sub_of hc (by decide)) ?_
  with_reducible assumption

theorem execFirmwareStageDone_within {cs : List Part} {r : State} (ok : Bool) (s : State) (hc : subParts [.modes, .busy, .flash, .fresh] cs = true) (h : Within cs r s) : ResultWithin cs r (execFirmwareStageDone ok s) := by
  delta execFirmwareStageDone
  with_reducible refine within_next ?_
  with_reducible refine within_ite (fun _ => ?_) (fun _ => ?_)
  with_reducible assumption
  extract_lets a7 a8 a9 a10 a11
  have e_a9 : Within cs r a9 := by
    unfold a9
    with_reducible apply drowseBusy_within
    with_reducible exact sub_of hc (by decide)
    with_reducible refine within_set_modes_fwImage (sub_of hc (by decide)) ?_
    with_reducible assumption
  clear_value a9
  with_reducible refine within_ite (fun _ => ?_) (fun _ => ?_)
  with_reducible refine within_set_modes_fwStage (sub_of hc (by decide)) ?_
  with_reducible assumption
  with_reducible refine within_ite (fun _ => ?_) (fun _ => ?_)
  with_reducible apply programSlot_within
  with_reducible exact sub_of hc (by decide)
  with_reducible refine within_set_modes_fwStage (sub_of hc (by decide)) ?_
  with_reducible assumption
  with_reducible apply programSlot_within
  with_reducible exact sub_of hc (by decide)
  with_reducible refine within_update (ps := [.modes, .fresh]) rfl (sub_of hc (by decide)) (fun p hp => by cases p <;> first | exact absurd (by decide) hp | with_unfolding_all rfl) ?_ ?_ ?_ ?_ ?_ ?_ ?_ ?_ ?_ ?_ ?_ ?_ ?_ ?_ ?_
  with_reducible rfl
  with_reducible exact Nat.le_add_right _ _
  with_reducible exact Nat.le_refl _
  with_reducible exact List.suffix_refl _
  with_reducible exact id
  with_reducible exact id
  with_reducible exact id
  with_reducible exact id
  with_reducible exact id
  with_reducible exact id
  with_reducible exact id
  with_reducible exact id
  with_reducible exact id
  with_reducible exact id
  with_reducible assumption

theorem execFaultClearTimer_within {cs : List Part} {r : State} (code : Nat) (s : State) (hc : subParts [.faults, .live, .endpoint, .out] cs = true) (h : Within cs r s) : ResultWithin cs r (execFaultClearTimer code s) := by
  delta execFaultClearTimer
  with_reducible refine within_next ?_
  with_reducible refine within_ite (fun _ => ?_) (fun _ => ?_)
  with_reducible apply clearFault_within
  with_reducible exact sub_of hc (by decide)
  with_reducible assumption
  with_reducible assumption

theorem execEmcySpacingExpired_within {cs : List Part} {r : State} (code : Nat) (s : State) (hc : subParts [.faults, .out] cs = true) (h : Within cs r s) : ResultWithin cs r (execEmcySpacingExpired code s) := by
  delta execEmcySpacingExpired
  with_reducible refine within_next ?_
  split
  with_reducible assumption
  with_reducible apply emcyNow_within
  with_reducible exact sub_of hc (by decide)
  with_reducible refine within_set_modes_emcyWait (sub_of hc (by decide)) ?_
  with_reducible assumption

end Sys2Proof.Machine
end

