-- ==== Sys2Proof/Laws/WithinAccess.lean ====
section
/-! SUPPORT. What each operation of object access, the windows and the bus may change, once for each (`<operation>_within`); callers cite these and do not unfold. -/

set_option linter.unusedVariables false
set_option linter.unusedSimpArgs false
namespace Sys2Proof.Machine

theorem stage_within {cs : List Part} {r : State} (k : Nat) (v : Sys2Proof.Bytes) (s : State) (hc : subParts [.dict] cs = true) (h : Within cs r s) : PairWithin cs r (stage k v s) := by
  delta stage
  with_reducible refine pairWithin_ite (fun _ => ?_) (fun _ => ?_)
  with_reducible refine within_mkP ?_
  with_reducible assumption
  with_reducible refine within_mkP ?_
  with_reducible refine within_set_dict_staging (sub_of hc (by decide)) ?_
  with_reducible assumption

theorem jackRead_within {cs : List Part} {r : State} (v : Sys2Proof.Bytes) (s : State) (hc : subParts [.jack, .fresh] cs = true) (h : Within cs r s) : Within cs r (jackRead v s) := by
  delta jackRead
  dsimp only
  with_reducible refine within_update (ps := [.jack, .fresh]) rfl (sub_of hc (by decide)) (fun p hp => by cases p <;> first | exact absurd (by decide) hp | with_unfolding_all rfl) ?_ ?_ ?_ ?_ ?_ ?_ ?_ ?_ ?_ ?_ ?_ ?_ ?_ ?_ ?_
  with_reducible rfl
  with_reducible exact Nat.le_add_right _ _
  with_reducible exact Nat.le_refl _
  with_reducible exact List.suffix_refl _
  with_reducible exact id
  with_reducible exact id
  with_reducible exact id
  with_reducible exact id
  with_reducible exact id
  with_reducible exact id
  with_reducible exact id
  with_reducible exact id
  with_reducible exact id
  with_reducible exact id
  with_reducible assumption

theorem jackWrite_within {cs : List Part} {r : State} (v : Sys2Proof.Bytes) (fuse : Option Bool) (s : State)
    (hc : subParts [.modes, .mode, .faults, .drowse, .busy, .live, .keys, .vault, .flash, .tally, .jack, .endpoint, .scratch, .integ, .fresh, .out] cs = true) (h : Within cs r s) : PairWithin cs r (jackWrite v fuse s) := by
  delta jackWrite
  split
  with_reducible apply jackResponse_within
  with_reducible exact sub_of hc (by decide)
  with_reducible refine within_of_pair (by assumption) ?_
  with_reducible apply drawFresh_within
  with_reducible exact sub_of hc (by decide)
  with_reducible assumption

theorem writeEffect_within {cs : List Part} {r : State} (k : Nat) (v : Sys2Proof.Bytes) (fuse : Option Bool) (s : State)
    (hc : subParts [.wakes, .modes, .mode, .faults, .drowse, .busy, .live, .dict, .can, .keys, .vault, .flash, .tally, .tamper, .jack, .sluice, .endpoint, .rings, .scratch, .integ, .coh, .results, .buckets, .tcam, .links, .slots, .headgate, .pair, .fresh, .out] cs = true) (h : Within cs r s) : PairWithin cs r (writeEffect k v fuse s) := by
  delta writeEffect
  extract_lets a8 a9
  with_reducible refine pairWithin_ite (fun _ => ?_) (fun _ => ?_)
  with_reducible refine pairWithin_ite (fun _ => ?_) (fun _ => ?_)
  with_reducible apply commitNow_within
  with_reducible exact sub_of hc (by decide)
  with_reducible assumption
  with_reducible refine within_mkP ?_
  with_reducible refine within_set_dict_staging (sub_of hc (by decide)) ?_
  with_reducible assumption
  with_reducible refine pairWithin_ite (fun _ => ?_) (fun _ => ?_)
  with_reducible refine within_mkP ?_
  with_reducible apply State.put_within
  with_reducible exact sub_of hc (by decide)
  with_reducible assumption
  with_reducible refine pairWithin_ite (fun _ => ?_) (fun _ => ?_)
  with_reducible apply handOver_within
  with_reducible exact sub_of hc (by decide)
  with_reducible assumption
  with_reducible refine pairWithin_ite (fun _ => ?_) (fun _ => ?_)
  with_reducible apply handOver_within
  with_reducible exact sub_of hc (by decide)
  with_reducible assumption
  with_reducible refine pairWithin_ite (fun _ => ?_) (fun _ => ?_)
  with_reducible apply setBankCode_within
  with_reducible exact sub_of hc (by decide)
  with_reducible assumption
  with_reducible refine pairWithin_ite (fun _ => ?_) (fun _ => ?_)
  with_reducible refine pairWithin_ite (fun _ => ?_) (fun _ => ?_)
  with_reducible apply linkRetrain_within
  with_reducible exact sub_of hc (by decide)
  with_reducible assumption
  with_reducible apply linkDiscardHeld_within
  with_reducible exact sub_of hc (by decide)
  with_reducible assumption
  with_reducible refine pairWithin_ite (fun _ => ?_) (fun _ => ?_)
  with_reducible apply moveLockClear_within
  with_reducible exact sub_of hc (by decide)
  with_reducible assumption
  with_reducible refine pairWithin_ite (fun _ => ?_) (fun _ => ?_)
  with_reducible apply freshnessReset_within
  with_reducible exact sub_of hc (by decide)
  with_reducible assumption
  with_reducible refine pairWithin_ite (fun _ => ?_) (fun _ => ?_)
  with_reducible apply attest_within
  with_reducible exact sub_of hc (by decide)
  with_reducible assumption
  with_reducible refine pairWithin_ite (fun _ => ?_) (fun _ => ?_)
  with_reducible refine within_mkP ?_
  with_reducible refine within_snd ?_
  with_reducible apply commitAndSeal_within
  with_reducible exact sub_of hc (by decide)
  with_reducible assumption
  with_reducible refine pairWithin_ite (fun _ => ?_) (fun _ => ?_)
  with_reducible refine within_mkP ?_
  with_reducible apply setCursor_within
  with_reducible exact sub_of hc (by decide)
  with_reducible assumption
  with_reducible refine pairWithin_ite (fun _ => ?_) (fun _ => ?_)
  with_reducible refine within_mkP ?_
  with_reducible apply setCursor_within
  with_reducible exact sub_of hc (by decide)
  with_reducible assumption
  with_reducible refine pairWithin_ite (fun _ => ?_) (fun _ => ?_)
  with_reducible apply tamperClear_within
  with_reducible exact sub_of hc (by decide)
  with_reducible assumption
  with_reducible refine pairWithin_ite (fun _ => ?_) (fun _ => ?_)
  with_reducible apply jackWrite_within
  with_reducible exact sub_of hc (by decide)
  with_reducible assumption
  with_reducible refine pairWithin_ite (fun _ => ?_) (fun _ => ?_)
  with_reducible refine within_mkP ?_
  with_reducible apply jackRead_within
  with_reducible exact sub_of hc (by decide)
  with_reducible apply State.put_within
  with_reducible exact sub_of hc (by decide)
  with_reducible assumption
  with_reducible refine pairWithin_ite (fun _ => ?_) (fun _ => ?_)
  with_reducible refine within_mkP ?_
  with_reducible apply State.put_within
  with_reducible exact sub_of hc (by decide)
  with_reducible assumption
  with_reducible refine pairWithin_ite (fun _ => ?_) (fun _ => ?_)
  with_reducible refine within_mkP ?_
  with_reducible apply State.put_within
  with_reducible exact sub_of hc (by decide)
  with_reducible assumption
  with_reducible refine pairWithin_ite (fun _ => ?_) (fun _ => ?_)
  with_reducible refine within_mkP ?_
  with_reducible apply hostRequest_within
  with_reducible exact sub_of hc (by decide)
  with_reducible assumption
  with_reducible refine pairWithin_ite (fun _ => ?_) (fun _ => ?_)
  with_reducible refine within_mkP ?_
  with_reducible apply sleepAck_within
  with_reducible exact sub_of hc (by decide)
  with_reducible assumption
  with_reducible refine pairWithin_ite (fun _ => ?_) (fun _ => ?_)
  with_reducible refine within_mkP ?_
  with_reducible apply sourceMaskClear_within
  with_reducible exact sub_of hc (by decide)
  with_reducible assumption
  with_reducible refine pairWithin_ite (fun _ => ?_) (fun _ => ?_)
  with_reducible apply promoteRole_within
  with_reducible exact sub_of hc (by decide)
  with_reducible assumption
  with_reducible refine pairWithin_ite (fun _ => ?_) (fun _ => ?_)
  with_reducible apply pairRelease_within
  with_reducible exact sub_of hc (by decide)
  with_reducible assumption
  with_reducible refine pairWithin_ite (fun _ => ?_) (fun _ => ?_)
  with_reducible refine within_mkP ?_
  with_reducible apply drowseExit_within
  with_reducible exact sub_of hc (by decide)
  with_reducible assumption
  with_reducible refine pairWithin_ite (fun _ => ?_) (fun _ => ?_)
  with_reducible apply firmwareStage_within
  with_reducible exact sub_of hc (by decide)
  with_reducible assumption
  with_reducible apply stage_within
  with_reducible exact sub_of hc (by decide)
  with_reducible assumption

theorem writeValue_within {cs : List Part} {r : State} (ch : Sys2Proof.Channel) (k : Nat) (r_ : ObjRow) (v : Sys2Proof.Bytes) (fuse : Option Bool) (s : State)
    (hc : subParts [.wakes, .modes, .mode, .faults, .drowse, .busy, .live, .dict, .can, .keys, .vault, .flash, .tally, .tamper, .jack, .sluice, .endpoint, .rings, .scratch, .integ, .coh, .results, .buckets, .tcam, .links, .slots, .headgate, .pair, .fresh, .out] cs = true) (h : Within cs r s) : PairWithin cs r (writeValue ch k r_ v fuse s) := by
  delta writeValue
  split
  with_reducible refine within_mkP ?_
  with_reducible assumption
  with_reducible apply writeEffect_within
  with_reducible exact sub_of hc (by decide)
  with_reducible assumption

theorem keepEntry_within {cs : List Part} {r : State} (e : Kept) (s : State) (hc : subParts [.dict] cs = true) (h : Within cs r s) : Within cs r (keepEntry e s) := by
  delta keepEntry
  with_reducible refine within_set_dict_kept (sub_of hc (by decide)) ?_
  with_reducible assumption

theorem afterJack_within {cs : List Part} {r : State} (k : Nat) (e : Option Reject) (s : State) (hc : subParts [.live, .jack, .fresh] cs = true) (h : Within cs r s) : Within cs r (afterJack k e s) := by
  delta afterJack
  with_reducible refine within_ite (fun _ => ?_) (fun _ => ?_)
  with_reducible apply drawNonce_within
  with_reducible exact sub_of hc (by decide)
  with_reducible refine within_ite (fun _ => ?_) (fun _ => ?_)
  with_reducible apply State.bump_within
  with_reducible exact sub_of hc (by decide)
  with_reducible assumption
  with_reducible assumption
  with_reducible assumption

theorem writeWhole_within {cs : List Part} {r : State} (ch : Sys2Proof.Channel) (k : Nat) (r_ : ObjRow) (data : Sys2Proof.Bytes) (fuse : Option Bool) (s : State)
    (hc : subParts [.wakes, .modes, .mode, .faults, .drowse, .busy, .live, .dict, .can, .keys, .vault, .flash, .tally, .tamper, .jack, .sluice, .endpoint, .rings, .scratch, .integ, .coh, .results, .buckets, .tcam, .links, .slots, .headgate, .pair, .fresh, .out] cs = true) (h : Within cs r s) : PairWithin cs r (writeWhole ch k r_ data fuse s) := by
  delta writeWhole
  with_reducible refine pairWithin_ite (fun _ => ?_) (fun _ => ?_)
  split
  with_reducible refine within_mkP ?_
  with_reducible refine within_of_pair (by assumption) ?_
  with_reducible apply writeValue_within
  with_reducible exact sub_of hc (by decide)
  with_reducible assumption
  split
  with_reducible refine within_mkP ?_
  with_reducible assumption
  split
  with_reducible refine pairWithin_ite (fun _ => ?_) (fun _ => ?_)
  with_reducible refine within_mkP ?_
  with_reducible apply State.bump_within
  with_reducible exact sub_of hc (by decide)
  with_reducible assumption
  with_reducible refine within_mkP ?_
  with_reducible assumption
  split
  extract_lets a24 a25
  have e_a24 : Within cs r a24 := by
    unfold a24
    with_reducible apply afterJack_within
    with_reducible exact sub_of hc (by decide)
    with_reducible refine within_of_pair (by assumption) ?_
    with_reducible apply writeValue_within
    with_reducible exact sub_of hc (by decide)
    with_reducible assumption
  clear_value a24
  with_reducible refine within_mkP ?_
  with_reducible apply keepEntry_within
  with_reducible exact sub_of hc (by decide)
  with_reducible assumption

theorem writeObject_within {cs : List Part} {r : State} (ch : Sys2Proof.Channel) (idx : Nat) (sub : Nat) (data : Sys2Proof.Bytes) (fuse : Option Bool) (s : State)
    (hc : subParts [.wakes, .modes, .mode, .faults, .drowse, .busy, .live, .dict, .can, .keys, .vault, .flash, .tally, .tamper, .jack, .sluice, .endpoint, .rings, .scratch, .integ, .coh, .results, .buckets, .tcam, .links, .slots, .headgate, .pair, .fresh, .out] cs = true) (h : Within cs r s) : PairWithin cs r (writeObject ch idx sub data fuse s) := by
  delta writeObject
  split
  with_reducible refine within_mkP ?_
  with_reducible assumption
  with_reducible apply writeWhole_within
  with_reducible exact sub_of hc (by decide)
  with_reducible assumption

theorem afterRead_within {cs : List Part} {r : State} (k : Nat) (s : State) (hc : subParts [.live, .tally, .buckets] cs = true) (h : Within cs r s) : Within cs r (afterRead k s) := by
  delta afterRead
  with_reducible refine within_ite (fun _ => ?_) (fun _ => ?_)
  with_reducible apply State.put_within
  with_reducible exact sub_of hc (by decide)
  with_reducible assumption
  with_reducible refine within_ite (fun _ => ?_) (fun _ => ?_)
  with_reducible apply noteWindow_within
  with_reducible exact sub_of hc (by decide)
  with_reducible assumption
  with_reducible refine within_ite (fun _ => ?_) (fun _ => ?_)
  with_reducible refine within_set_buckets (sub_of hc (by decide)) ?_
  with_reducible assumption
  with_reducible assumption

theorem readObject_within {cs : List Part} {r : State} (idx : Nat) (sub : Nat) (off : Nat) (limit : Nat) (s : State) (hc : subParts [.live, .tally, .buckets] cs = true) (h : Within cs r s) : PairWithin cs r (readObject idx sub off limit s) := by
  delta readObject
  split
  with_reducible refine within_mkP ?_
  with_reducible assumption
  with_reducible refine within_mkP ?_
  with_reducible apply afterRead_within
  with_reducible exact sub_of hc (by decide)
  with_reducible assumption

theorem noteAnswer_within {cs : List Part} {r : State} (ch : Sys2Proof.Channel) (r_ : Resp) (s : State) (hc : subParts [.live] cs = true) (h : Within cs r s) : Within cs r (noteAnswer ch r_ s) := by
  delta noteAnswer
  split
  extract_lets a8
  have e_a8 : Within cs r a8 := by
    unfold a8
    with_reducible apply State.bump_within
    with_reducible exact sub_of hc (by decide)
    with_reducible assumption
  clear_value a8
  with_reducible refine within_ite (fun _ => ?_) (fun _ => ?_)
  with_reducible apply State.put_within
  with_reducible exact sub_of hc (by decide)
  with_reducible apply State.put_within
  with_reducible exact sub_of hc (by decide)
  with_reducible apply State.bump_within
  with_reducible exact sub_of hc (by decide)
  with_reducible assumption
  with_reducible assumption
  extract_lets a8
  have e_a8 : Within cs r a8 := by
    unfold a8
    with_reducible apply State.bump_within
    with_reducible exact sub_of hc (by decide)
    with_reducible assumption
  clear_value a8
  with_reducible refine within_ite (fun _ => ?_) (fun _ => ?_)
  with_reducible apply State.put_within
  with_reducible exact sub_of hc (by decide)
  with_reducible apply State.put_within
  with_reducible exact sub_of hc (by decide)
  with_reducible apply State.bump_within
  with_reducible exact sub_of hc (by decide)
  with_reducible assumption
  with_reducible assumption

theorem answer_within {cs : List Part} {r : State} (ch : Sys2Proof.Channel) (p : Resp × State) (hc : subParts [.live, .endpoint, .out] cs = true) (h : PairWithin cs r p) : Within cs r (answer ch p) := by
  delta answer
  extract_lets a6
  have e_a6 : Within cs r a6 := by
    unfold a6
    with_reducible apply emit_within
    with_reducible exact sub_of hc (by decide)
    with_reducible apply noteAnswer_within
    with_reducible exact sub_of hc (by decide)
    with_reducible refine within_snd ?_
    with_reducible assumption
  clear_value a6
  with_reducible refine within_ite (fun _ => ?_) (fun _ => ?_)
  with_reducible apply vector_within
  with_reducible exact sub_of hc (by decide)
  with_reducible assumption
  with_reducible assumption

theorem channelWrite_within {cs : List Part} {r : State} (ch : Sys2Proof.Channel) (k : Nat) (data : Sys2Proof.Bytes) (fuse : Option Bool) (s : State)
    (hc : subParts [.wakes, .modes, .mode, .faults, .drowse, .busy, .live, .dict, .can, .keys, .vault, .flash, .tally, .tamper, .jack, .sluice, .endpoint, .rings, .scratch, .integ, .coh, .results, .buckets, .tcam, .links, .slots, .headgate, .pair, .fresh, .out] cs = true) (h : Within cs r s) : Within cs r (channelWrite ch k data fuse s) := by
  delta channelWrite
  with_reducible refine within_ite (fun _ => ?_) (fun _ => ?_)
  with_reducible assumption
  extract_lets a10 a11
  have e_a11 : Within cs r a11 := by
    unfold a11
    with_reducible refine within_ite (fun _ => ?_) (fun _ => ?_)
    with_reducible refine within_set_dict_assembly (sub_of hc (by decide)) ?_
    with_reducible assumption
    with_reducible assumption
  clear_value a11
  with_reducible apply answer_within
  with_reducible exact sub_of hc (by decide)
  with_reducible apply writeObject_within
  with_reducible exact sub_of hc (by decide)
  with_reducible assumption

theorem channelRead_within {cs : List Part} {r : State} (ch : Sys2Proof.Channel) (k : Nat) (s : State) (hc : subParts [.live, .dict, .tally, .endpoint, .buckets, .out] cs = true) (h : Within cs r s) : Within cs r (channelRead ch k s) := by
  delta channelRead
  with_reducible refine within_ite (fun _ => ?_) (fun _ => ?_)
  with_reducible assumption
  extract_lets a8 a9
  have e_a9 : Within cs r a9 := by
    unfold a9
    with_reducible refine within_ite (fun _ => ?_) (fun _ => ?_)
    with_reducible refine within_set_dict_assembly (sub_of hc (by decide)) ?_
    with_reducible assumption
    with_reducible assumption
  clear_value a9
  with_reducible apply answer_within
  with_reducible exact sub_of hc (by decide)
  with_reducible apply readObject_within
  with_reducible exact sub_of hc (by decide)
  with_reducible assumption

theorem execCommit_within {cs : List Part} {r : State} (ch : Sys2Proof.Channel) (seq : Nat) (s : State)
    (hc : subParts [.wakes, .modes, .mode, .faults, .drowse, .busy, .live, .dict, .can, .keys, .vault, .flash, .tally, .tamper, .jack, .sluice, .endpoint, .rings, .scratch, .integ, .coh, .results, .buckets, .tcam, .links, .slots, .headgate, .pair, .fresh, .out] cs = true) (h : Within cs r s) : ResultWithin cs r (execCommit ch seq s) := by
  delta execCommit
  with_reducible apply within_onUnit
  with_reducible apply channelWrite_within
  with_reducible exact sub_of hc (by decide)
  with_reducible assumption

theorem execDiscardStaging_within {cs : List Part} {r : State} (ch : Sys2Proof.Channel) (seq : Nat) (s : State)
    (hc : subParts [.wakes, .modes, .mode, .faults, .drowse, .busy, .live, .dict, .can, .keys, .vault, .flash, .tally, .tamper, .jack, .sluice, .endpoint, .rings, .scratch, .integ, .coh, .results, .buckets, .tcam, .links, .slots, .headgate, .pair, .fresh, .out] cs = true) (h : Within cs r s) : ResultWithin cs r (execDiscardStaging ch seq s) := by
  delta execDiscardStaging
  with_reducible apply within_onUnit
  with_reducible apply channelWrite_within
  with_reducible exact sub_of hc (by decide)
  with_reducible assumption

theorem execStagingLock_within {cs : List Part} {r : State} (ch : Sys2Proof.Channel) (value : Nat) (s : State)
    (hc : subParts [.wakes, .modes, .mode, .faults, .drowse, .busy, .live, .dict, .can, .keys, .vault, .flash, .tally, .tamper, .jack, .sluice, .endpoint, .rings, .scratch, .integ, .coh, .results, .buckets, .tcam, .links, .slots, .headgate, .pair, .fresh, .out] cs = true) (h : Within cs r s) : ResultWithin cs r (execStagingLock ch value s) := by
  delta execStagingLock
  with_reducible apply within_onUnit
  with_reducible apply channelWrite_within
  with_reducible exact sub_of hc (by decide)
  with_reducible assumption

theorem execObjectWrite_within {cs : List Part} {r : State} (ch : Sys2Proof.Channel) (index : Nat) (sub : Nat) (data : Sys2Proof.Bytes) (s : State)
    (hc : subParts [.wakes, .modes, .mode, .faults, .drowse, .busy, .live, .dict, .can, .keys, .vault, .flash, .tally, .tamper, .jack, .sluice, .endpoint, .rings, .scratch, .integ, .coh, .results, .buckets, .tcam, .links, .slots, .headgate, .pair, .fresh, .out] cs = true) (h : Within cs r s) : ResultWithin cs r (execObjectWrite ch index sub data s) := by
  delta execObjectWrite
  with_reducible apply within_onUnit
  with_reducible apply channelWrite_within
  with_reducible exact sub_of hc (by decide)
  with_reducible assumption

theorem execPeakReadClear_within {cs : List Part} {r : State} (ch : Sys2Proof.Channel) (index : Nat) (sub : Nat) (s : State) (hc : subParts [.live, .dict, .tally, .endpoint, .buckets, .out] cs = true) (h : Within cs r s) : ResultWithin cs r (execPeakReadClear ch index sub s) := by
  delta execPeakReadClear
  with_reducible apply within_onUnit
  with_reducible apply channelRead_within
  with_reducible exact sub_of hc (by decide)
  with_reducible assumption

theorem execLastFailedKeyRead_within {cs : List Part} {r : State} (ch : Sys2Proof.Channel) (table : Nat) (s : State) (hc : subParts [.live, .dict, .tally, .endpoint, .buckets, .out] cs = true) (h : Within cs r s) : ResultWithin cs r (execLastFailedKeyRead ch table s) := by
  delta execLastFailedKeyRead
  with_reducible apply within_onUnit
  with_reducible apply channelRead_within
  with_reducible exact sub_of hc (by decide)
  with_reducible assumption

theorem execBankOwner_within {cs : List Part} {r : State} (ch : Sys2Proof.Channel) (bank : Nat) (code : Nat) (s : State)
    (hc : subParts [.wakes, .modes, .mode, .faults, .drowse, .busy, .live, .dict, .can, .keys, .vault, .flash, .tally, .tamper, .jack, .sluice, .endpoint, .rings, .scratch, .integ, .coh, .results, .buckets, .tcam, .links, .slots, .headgate, .pair, .fresh, .out] cs = true) (h : Within cs r s) : ResultWithin cs r (execBankOwner ch bank code s) := by
  delta execBankOwner
  with_reducible apply within_onUnit
  with_reducible apply channelWrite_within
  with_reducible exact sub_of hc (by decide)
  with_reducible assumption

theorem execBankHandover_within {cs : List Part} {r : State} (ch : Sys2Proof.Channel) (value : Nat) (s : State)
    (hc : subParts [.wakes, .modes, .mode, .faults, .drowse, .busy, .live, .dict, .can, .keys, .vault, .flash, .tally, .tamper, .jack, .sluice, .endpoint, .rings, .scratch, .integ, .coh, .results, .buckets, .tcam, .links, .slots, .headgate, .pair, .fresh, .out] cs = true) (h : Within cs r s) : ResultWithin cs r (execBankHandover ch value s) := by
  delta execBankHandover
  with_reducible apply within_onUnit
  with_reducible apply channelWrite_within
  with_reducible exact sub_of hc (by decide)
  with_reducible assumption

theorem execBankCode_within {cs : List Part} {r : State} (ch : Sys2Proof.Channel) (bank : Nat) (code : Nat) (s : State)
    (hc : subParts [.wakes, .modes, .mode, .faults, .drowse, .busy, .live, .dict, .can, .keys, .vault, .flash, .tally, .tamper, .jack, .sluice, .endpoint, .rings, .scratch, .integ, .coh, .results, .buckets, .tcam, .links, .slots, .headgate, .pair, .fresh, .out] cs = true) (h : Within cs r s) : ResultWithin cs r (execBankCode ch bank code s) := by
  delta execBankCode
  with_reducible apply within_onUnit
  with_reducible apply channelWrite_within
  with_reducible exact sub_of hc (by decide)
  with_reducible assumption

theorem execLinkRetrain_within {cs : List Part} {r : State} (ch : Sys2Proof.Channel) (link : Nat) (s : State)
    (hc : subParts [.wakes, .modes, .mode, .faults, .drowse, .busy, .live, .dict, .can, .keys, .vault, .flash, .tally, .tamper, .jack, .sluice, .endpoint, .rings, .scratch, .integ, .coh, .results, .buckets, .tcam, .links, .slots, .headgate, .pair, .fresh, .out] cs = true) (h : Within cs r s) : ResultWithin cs r (execLinkRetrain ch link s) := by
  delta execLinkRetrain
  with_reducible apply within_onUnit
  with_reducible apply channelWrite_within
  with_reducible exact sub_of hc (by decide)
  with_reducible assumption

theorem execLinkDiscardHeld_within {cs : List Part} {r : State} (ch : Sys2Proof.Channel) (link : Nat) (s : State)
    (hc : subParts [.wakes, .modes, .mode, .faults, .drowse, .busy, .live, .dict, .can, .keys, .vault, .flash, .tally, .tamper, .jack, .sluice, .endpoint, .rings, .scratch, .integ, .coh, .results, .buckets, .tcam, .links, .slots, .headgate, .pair, .fresh, .out] cs = true) (h : Within cs r s) : ResultWithin cs r (execLinkDiscardHeld ch link s) := by
  delta execLinkDiscardHeld
  with_reducible apply within_onUnit
  with_reducible apply channelWrite_within
  with_reducible exact sub_of hc (by decide)
  with_reducible assumption

theorem execMoveLockClear_within {cs : List Part} {r : State} (ch : Sys2Proof.Channel) (data : Sys2Proof.Bytes) (s : State)
    (hc : subParts [.wakes, .modes, .mode, .faults, .drowse, .busy, .live, .dict, .can, .keys, .vault, .flash, .tally, .tamper, .jack, .sluice, .endpoint, .rings, .scratch, .integ, .coh, .results, .buckets, .tcam, .links, .slots, .headgate, .pair, .fresh, .out] cs = true) (h : Within cs r s) : ResultWithin cs r (execMoveLockClear ch data s) := by
  delta execMoveLockClear
  with_reducible refine within_next ?_
  with_reducible apply channelWrite_within
  with_reducible exact sub_of hc (by decide)
  with_reducible assumption

theorem execFreshnessReset_within {cs : List Part} {r : State} (ch : Sys2Proof.Channel) (seq : Nat) (profile : Nat) (s : State)
    (hc : subParts [.wakes, .modes, .mode, .faults, .drowse, .busy, .live, .dict, .can, .keys, .vault, .flash, .tally, .tamper, .jack, .sluice, .endpoint, .rings, .scratch, .integ, .coh, .results, .buckets, .tcam, .links, .slots, .headgate, .pair, .fresh, .out] cs = true) (h : Within cs r s) : ResultWithin cs r (execFreshnessReset ch seq profile s) := by
  delta execFreshnessReset
  with_reducible apply within_onUnit
  with_reducible apply channelWrite_within
  with_reducible exact sub_of hc (by decide)
  with_reducible assumption

theorem execSealNow_within {cs : List Part} {r : State} (ch : Sys2Proof.Channel) (seq : Nat) (s : State)
    (hc : subParts [.wakes, .modes, .mode, .faults, .drowse, .busy, .live, .dict, .can, .keys, .vault, .flash, .tally, .tamper, .jack, .sluice, .endpoint, .rings, .scratch, .integ, .coh, .results, .buckets, .tcam, .links, .slots, .headgate, .pair, .fresh, .out] cs = true) (h : Within cs r s) : ResultWithin cs r (execSealNow ch seq s) := by
  delta execSealNow
  with_reducible apply within_onUnit
  with_reducible apply channelWrite_within
  with_reducible exact sub_of hc (by decide)
  with_reducible assumption

theorem execAdvance_within {cs : List Part} {r : State} (ch : Sys2Proof.Channel) (seq : Nat) (value : Nat) (s : State)
    (hc : subParts [.wakes, .modes, .mode, .faults, .drowse, .busy, .live, .dict, .can, .keys, .vault, .flash, .tally, .tamper, .jack, .sluice, .endpoint, .rings, .scratch, .integ, .coh, .results, .buckets, .tcam, .links, .slots, .headgate, .pair, .fresh, .out] cs = true) (h : Within cs r s) : ResultWithin cs r (execAdvance ch seq value s) := by
  delta execAdvance
  with_reducible apply within_onUnit
  with_reducible apply channelWrite_within
  with_reducible exact sub_of hc (by decide)
  with_reducible assumption

theorem execCursor_within {cs : List Part} {r : State} (ch : Sys2Proof.Channel) (value : Nat) (s : State)
    (hc : subParts [.wakes, .modes, .mode, .faults, .drowse, .busy, .live, .dict, .can, .keys, .vault, .flash, .tally, .tamper, .jack, .sluice, .endpoint, .rings, .scratch, .integ, .coh, .results, .buckets, .tcam, .links, .slots, .headgate, .pair, .fresh, .out] cs = true) (h : Within cs r s) : ResultWithin cs r (execCursor ch value s) := by
  delta execCursor
  with_reducible apply within_onUnit
  with_reducible apply channelWrite_within
  with_reducible exact sub_of hc (by decide)
  with_reducible assumption

theorem execAttestRequest_within {cs : List Part} {r : State} (ch : Sys2Proof.Channel) (data : Sys2Proof.Bytes) (s : State)
    (hc : subParts [.wakes, .modes, .mode, .faults, .drowse, .busy, .live, .dict, .can, .keys, .vault, .flash, .tally, .tamper, .jack, .sluice, .endpoint, .rings, .scratch, .integ, .coh, .results, .buckets, .tcam, .links, .slots, .headgate, .pair, .fresh, .out] cs = true) (h : Within cs r s) : ResultWithin cs r (execAttestRequest ch data s) := by
  delta execAttestRequest
  with_reducible refine within_next ?_
  with_reducible apply channelWrite_within
  with_reducible exact sub_of hc (by decide)
  with_reducible assumption

theorem execTamperClear_within {cs : List Part} {r : State} (ch : Sys2Proof.Channel) (seq : Nat) (s : State)
    (hc : subParts [.wakes, .modes, .mode, .faults, .drowse, .busy, .live, .dict, .can, .keys, .vault, .flash, .tally, .tamper, .jack, .sluice, .endpoint, .rings, .scratch, .integ, .coh, .results, .buckets, .tcam, .links, .slots, .headgate, .pair, .fresh, .out] cs = true) (h : Within cs r s) : ResultWithin cs r (execTamperClear ch seq s) := by
  delta execTamperClear
  with_reducible apply within_onUnit
  with_reducible apply channelWrite_within
  with_reducible exact sub_of hc (by decide)
  with_reducible assumption

theorem execJackResponse_within {cs : List Part} {r : State} (ch : Sys2Proof.Channel) (data : Sys2Proof.Bytes) (fuseOk : Bool) (s : State)
    (hc : subParts [.wakes, .modes, .mode, .faults, .drowse, .busy, .live, .dict, .can, .keys, .vault, .flash, .tally, .tamper, .jack, .sluice, .endpoint, .rings, .scratch, .integ, .coh, .results, .buckets, .tcam, .links, .slots, .headgate, .pair, .fresh, .out] cs = true) (h : Within cs r s) : ResultWithin cs r (execJackResponse ch data fuseOk s) := by
  delta execJackResponse
  with_reducible refine within_next ?_
  with_reducible apply channelWrite_within
  with_reducible exact sub_of hc (by decide)
  with_reducible assumption

theorem execJackMemoryRequest_within {cs : List Part} {r : State} (ch : Sys2Proof.Channel) (data : Sys2Proof.Bytes) (s : State)
    (hc : subParts [.wakes, .modes, .mode, .faults, .drowse, .busy, .live, .dict, .can, .keys, .vault, .flash, .tally, .tamper, .jack, .sluice, .endpoint, .rings, .scratch, .integ, .coh, .results, .buckets, .tcam, .links, .slots, .headgate, .pair, .fresh, .out] cs = true) (h : Within cs r s) : ResultWithin cs r (execJackMemoryRequest ch data s) := by
  delta execJackMemoryRequest
  with_reducible refine within_next ?_
  with_reducible apply channelWrite_within
  with_reducible exact sub_of hc (by decide)
  with_reducible assumption

theorem execMarionetteHalt_within {cs : List Part} {r : State} (ch : Sys2Proof.Channel) (value : Nat) (s : State)
    (hc : subParts [.wakes, .modes, .mode, .faults, .drowse, .busy, .live, .dict, .can, .keys, .vault, .flash, .tally, .tamper, .jack, .sluice, .endpoint, .rings, .scratch, .integ, .coh, .results, .buckets, .tcam, .links, .slots, .headgate, .pair, .fresh, .out] cs = true) (h : Within cs r s) : ResultWithin cs r (execMarionetteHalt ch value s) := by
  delta execMarionetteHalt
  with_reducible apply within_onUnit
  with_reducible apply channelWrite_within
  with_reducible exact sub_of hc (by decide)
  with_reducible assumption

theorem execTraceControl_within {cs : List Part} {r : State} (ch : Sys2Proof.Channel) (value : Nat) (s : State)
    (hc : subParts [.wakes, .modes, .mode, .faults, .drowse, .busy, .live, .dict, .can, .keys, .vault, .flash, .tally, .tamper, .jack, .sluice, .endpoint, .rings, .scratch, .integ, .coh, .results, .buckets, .tcam, .links, .slots, .headgate, .pair, .fresh, .out] cs = true) (h : Within cs r s) : ResultWithin cs r (execTraceControl ch value s) := by
  delta execTraceControl
  with_reducible apply within_onUnit
  with_reducible apply channelWrite_within
  with_reducible exact sub_of hc (by decide)
  with_reducible assumption

theorem execHostRequest_within {cs : List Part} {r : State} (ch : Sys2Proof.Channel) (value : Nat) (s : State)
    (hc : subParts [.wakes, .modes, .mode, .faults, .drowse, .busy, .live, .dict, .can, .keys, .vault, .flash, .tally, .tamper, .jack, .sluice, .endpoint, .rings, .scratch, .integ, .coh, .results, .buckets, .tcam, .links, .slots, .headgate, .pair, .fresh, .out] cs = true) (h : Within cs r s) : ResultWithin cs r (execHostRequest ch value s) := by
  delta execHostRequest
  with_reducible apply within_onUnit
  with_reducible apply channelWrite_within
  with_reducible exact sub_of hc (by decide)
  with_reducible assumption

theorem execSleepAck_within {cs : List Part} {r : State} (ch : Sys2Proof.Channel) (value : Nat) (s : State)
    (hc : subParts [.wakes, .modes, .mode, .faults, .drowse, .busy, .live, .dict, .can, .keys, .vault, .flash, .tally, .tamper, .jack, .sluice, .endpoint, .rings, .scratch, .integ, .coh, .results, .buckets, .tcam, .links, .slots, .headgate, .pair, .fresh, .out] cs = true) (h : Within cs r s) : ResultWithin cs r (execSleepAck ch value s) := by
  delta execSleepAck
  with_reducible apply within_onUnit
  with_reducible apply channelWrite_within
  with_reducible exact sub_of hc (by decide)
  with_reducible assumption

theorem execSourceMaskClear_within {cs : List Part} {r : State} (ch : Sys2Proof.Channel) (value : Nat) (s : State)
    (hc : subParts [.wakes, .modes, .mode, .faults, .drowse, .busy, .live, .dict, .can, .keys, .vault, .flash, .tally, .tamper, .jack, .sluice, .endpoint, .rings, .scratch, .integ, .coh, .results, .buckets, .tcam, .links, .slots, .headgate, .pair, .fresh, .out] cs = true) (h : Within cs r s) : ResultWithin cs r (execSourceMaskClear ch value s) := by
  delta execSourceMaskClear
  with_reducible apply within_onUnit
  with_reducible apply channelWrite_within
  with_reducible exact sub_of hc (by decide)
  with_reducible assumption

theorem execPromote_within {cs : List Part} {r : State} (ch : Sys2Proof.Channel) (seq : Nat) (s : State)
    (hc : subParts [.wakes, .modes, .mode, .faults, .drowse, .busy, .live, .dict, .can, .keys, .vault, .flash, .tally, .tamper, .jack, .sluice, .endpoint, .rings, .scratch, .integ, .coh, .results, .buckets, .tcam, .links, .slots, .headgate, .pair, .fresh, .out] cs = true) (h : Within cs r s) : ResultWithin cs r (execPromote ch seq s) := by
  delta execPromote
  with_reducible apply within_onUnit
  with_reducible apply channelWrite_within
  with_reducible exact sub_of hc (by decide)
  with_reducible assumption

theorem execPairRelease_within {cs : List Part} {r : State} (ch : Sys2Proof.Channel) (seq : Nat) (s : State)
    (hc : subParts [.wakes, .modes, .mode, .faults, .drowse, .busy, .live, .dict, .can, .keys, .vault, .flash, .tally, .tamper, .jack, .sluice, .endpoint, .rings, .scratch, .integ, .coh, .results, .buckets, .tcam, .links, .slots, .headgate, .pair, .fresh, .out] cs = true) (h : Within cs r s) : ResultWithin cs r (execPairRelease ch seq s) := by
  delta execPairRelease
  with_reducible apply within_onUnit
  with_reducible apply channelWrite_within
  with_reducible exact sub_of hc (by decide)
  with_reducible assumption

theorem execDrowseExit_within {cs : List Part} {r : State} (ch : Sys2Proof.Channel) (value : Nat) (s : State)
    (hc : subParts [.wakes, .modes, .mode, .faults, .drowse, .busy, .live, .dict, .can, .keys, .vault, .flash, .tally, .tamper, .jack, .sluice, .endpoint, .rings, .scratch, .integ, .coh, .results, .buckets, .tcam, .links, .slots, .headgate, .pair, .fresh, .out] cs = true) (h : Within cs r s) : ResultWithin cs r (execDrowseExit ch value s) := by
  delta execDrowseExit
  with_reducible apply within_onUnit
  with_reducible apply channelWrite_within
  with_reducible exact sub_of hc (by decide)
  with_reducible assumption

theorem execFirmwareStage_within {cs : List Part} {r : State} (ch : Sys2Proof.Channel) (data : Sys2Proof.Bytes) (s : State)
    (hc : subParts [.wakes, .modes, .mode, .faults, .drowse, .busy, .live, .dict, .can, .keys, .vault, .flash, .tally, .tamper, .jack, .sluice, .endpoint, .rings, .scratch, .integ, .coh, .results, .buckets, .tcam, .links, .slots, .headgate, .pair, .fresh, .out] cs = true) (h : Within cs r s) : ResultWithin cs r (execFirmwareStage ch data s) := by
  delta execFirmwareStage
  with_reducible refine within_next ?_
  with_reducible apply channelWrite_within
  with_reducible exact sub_of hc (by decide)
  with_reducible assumption

theorem writePart_within {cs : List Part} {r : State} (q : Request) (s : State)
    (hc : subParts [.wakes, .modes, .mode, .faults, .drowse, .busy, .live, .dict, .can, .keys, .vault, .flash, .tally, .tamper, .jack, .sluice, .endpoint, .rings, .scratch, .integ, .coh, .results, .buckets, .tcam, .links, .slots, .headgate, .pair, .fresh, .out] cs = true) (h : Within cs r s) : PairWithin cs r (writePart q s) := by
  delta writePart
  extract_lets a6 a7 a8 a9
  split
  with_reducible refine within_mkP ?_
  dsimp only [a9]
  with_reducible refine within_set_dict_assembly (sub_of hc (by decide)) ?_
  with_reducible assumption
  (clear_value a8; split)
  extract_lets a14
  with_reducible refine within_mkP ?_
  dsimp only [a9]
  with_reducible refine within_set_dict_assembly (sub_of hc (by decide)) ?_
  with_reducible assumption
  extract_lets a15
  with_reducible refine pairWithin_ite (fun _ => ?_) (fun _ => ?_)
  with_reducible apply writeWhole_within
  with_reducible exact sub_of hc (by decide)
  dsimp only [a9]
  with_reducible refine within_set_dict_assembly (sub_of hc (by decide)) ?_
  with_reducible assumption
  split
  with_reducible refine within_mkP ?_
  dsimp only [a9]
  with_reducible refine within_set_dict_assembly (sub_of hc (by decide)) ?_
  with_reducible assumption
  with_reducible refine within_mkP ?_
  dsimp only [a9]
  with_reducible refine within_set_dict_assembly (sub_of hc (by decide)) ?_
  with_reducible assumption

theorem runRequest_within {cs : List Part} {r : State} (b : Sys2Proof.Bytes) (q : Request) (s : State)
    (hc : subParts [.wakes, .modes, .mode, .faults, .drowse, .busy, .live, .dict, .can, .keys, .vault, .flash, .tally, .tamper, .jack, .sluice, .endpoint, .rings, .scratch, .integ, .coh, .results, .buckets, .tcam, .links, .slots, .headgate, .pair, .fresh, .out] cs = true) (h : Within cs r s) : PairWithin cs r (runRequest b q s) := by
  delta runRequest
  with_reducible refine pairWithin_ite (fun _ => ?_) (fun _ => ?_)
  with_reducible refine within_mkP ?_
  with_reducible assumption
  with_reducible refine pairWithin_ite (fun _ => ?_) (fun _ => ?_)
  with_reducible apply readObject_within
  with_reducible exact sub_of hc (by decide)
  with_reducible refine within_set_dict_assembly (sub_of hc (by decide)) ?_
  with_reducible assumption
  with_reducible apply writePart_within
  with_reducible exact sub_of hc (by decide)
  with_reducible assumption

theorem ringDoorbell_within {cs : List Part} {r : State} (s : State)
    (hc : subParts [.wakes, .modes, .mode, .faults, .drowse, .busy, .live, .dict, .mailbox, .can, .keys, .vault, .flash, .tally, .tamper, .jack, .sluice, .endpoint, .rings, .scratch, .integ, .coh, .results, .buckets, .tcam, .links, .slots, .headgate, .pair, .fresh, .out] cs = true) (h : Within cs r s) : Within cs r (ringDoorbell s) := by
  delta ringDoorbell
  with_reducible refine within_ite (fun _ => ?_) (fun _ => ?_)
  with_reducible assumption
  with_reducible refine within_ite (fun _ => ?_) (fun _ => ?_)
  with_reducible apply State.bump_within
  with_reducible exact sub_of hc (by decide)
  with_reducible assumption
  extract_lets a7 a8
  split
  extract_lets a15 a16
  have e_a16 : Within cs r a16 := by
    unfold a16
    with_reducible refine within_set_mailbox (sub_of hc (by decide)) ?_ ?_ ?_
    with_reducible exact id
    with_reducible intro _
    with_reducible exact Memory.wf_writeBytes _ _ ‹_›
    with_reducible refine within_of_pair (by assumption) ?_
    with_reducible apply runRequest_within
    with_reducible exact sub_of hc (by decide)
    with_reducible assumption
  clear_value a16
  with_reducible apply vector_within
  with_reducible exact sub_of hc (by decide)
  with_reducible apply noteAnswer_within
  with_reducible exact sub_of hc (by decide)
  with_reducible assumption

theorem execMailboxDoorbell_within {cs : List Part} {r : State} (s : State)
    (hc : subParts [.wakes, .modes, .mode, .faults, .drowse, .busy, .live, .dict, .mailbox, .can, .keys, .vault, .flash, .tally, .tamper, .jack, .sluice, .endpoint, .rings, .scratch, .integ, .coh, .results, .buckets, .tcam, .links, .slots, .headgate, .pair, .fresh, .out] cs = true) (h : Within cs r s) : ResultWithin cs r (execMailboxDoorbell s) := by
  delta execMailboxDoorbell
  with_reducible refine within_next ?_
  with_reducible apply ringDoorbell_within
  with_reducible exact sub_of hc (by decide)
  with_reducible assumption

theorem ringWordWrite_within {cs : List Part} {r : State} (r_ : Nat) (off : Nat) (v : Nat) (s : State) (hc : subParts [.live, .keys, .endpoint, .rings, .out] cs = true) (h : Within cs r s) : Within cs r (ringWordWrite r_ off v s) := by
  delta ringWordWrite
  extract_lets a8 a9
  split
  dsimp only [a9]
  with_reducible refine within_ite (fun _ => ?_) (fun _ => ?_)
  with_reducible assumption
  with_reducible apply onRing_within
  with_reducible exact sub_of hc (by decide)
  with_reducible assumption
  dsimp only [a9]
  with_reducible refine within_ite (fun _ => ?_) (fun _ => ?_)
  with_reducible assumption
  with_reducible apply onRing_within
  with_reducible exact sub_of hc (by decide)
  with_reducible assumption
  dsimp only [a9]
  with_reducible refine within_ite (fun _ => ?_) (fun _ => ?_)
  with_reducible assumption
  with_reducible apply onRing_within
  with_reducible exact sub_of hc (by decide)
  with_reducible assumption
  dsimp only [a9]
  with_reducible refine within_ite (fun _ => ?_) (fun _ => ?_)
  with_reducible assumption
  with_reducible apply onRing_within
  with_reducible exact sub_of hc (by decide)
  with_reducible assumption
  with_reducible refine within_ite (fun _ => ?_) (fun _ => ?_)
  dsimp only [a9]
  with_reducible refine within_ite (fun _ => ?_) (fun _ => ?_)
  with_reducible assumption
  with_reducible apply onRing_within
  with_reducible exact sub_of hc (by decide)
  with_reducible assumption
  with_reducible assumption
  with_reducible refine within_ite (fun _ => ?_) (fun _ => ?_)
  with_reducible apply enableRing_within
  with_reducible exact sub_of hc (by decide)
  with_reducible assumption
  with_reducible apply clearEnable_within
  with_reducible exact sub_of hc (by decide)
  with_reducible assumption
  with_reducible apply postDescriptors_within
  with_reducible exact sub_of hc (by decide)
  with_reducible assumption
  with_reducible refine within_ite (fun _ => ?_) (fun _ => ?_)
  with_reducible apply clearHalt_within
  with_reducible exact sub_of hc (by decide)
  with_reducible assumption
  with_reducible refine within_ite (fun _ => ?_) (fun _ => ?_)
  with_reducible apply skipHalted_within
  with_reducible exact sub_of hc (by decide)
  with_reducible assumption
  with_reducible assumption
  with_reducible assumption

theorem barWordWrite_within {cs : List Part} {r : State} (off : Nat) (v : Nat) (s : State)
    (hc : subParts [.wakes, .modes, .mode, .faults, .drowse, .busy, .live, .dict, .mailbox, .can, .keys, .vault, .flash, .tally, .tamper, .jack, .sluice, .endpoint, .rings, .scratch, .integ, .coh, .results, .buckets, .tcam, .links, .slots, .headgate, .pair, .fresh, .out] cs = true) (h : Within cs r s) : Within cs r (barWordWrite off v s) := by
  delta barWordWrite
  with_reducible refine within_ite (fun _ => ?_) (fun _ => ?_)
  with_reducible apply ringDoorbell_within
  with_reducible exact sub_of hc (by decide)
  with_reducible assumption
  with_reducible refine within_ite (fun _ => ?_) (fun _ => ?_)
  with_reducible apply ringWordWrite_within
  with_reducible exact sub_of hc (by decide)
  with_reducible assumption
  with_reducible refine within_ite (fun _ => ?_) (fun _ => ?_)
  with_reducible apply sendHeld_within
  with_reducible exact sub_of hc (by decide)
  with_reducible refine within_set_host_msixTable (sub_of hc (by decide)) ?_ ?_
  with_reducible intro _
  with_reducible exact Memory.wf_writeBytes _ _ ‹_›
  with_reducible assumption
  with_reducible assumption

theorem bufferWrite_within {cs : List Part} {r : State} (off : Nat) (data : Sys2Proof.Bytes) (s : State) (hc : subParts [.mailbox] cs = true) (h : Within cs r s) : Within cs r (bufferWrite off data s) := by
  delta bufferWrite
  with_reducible refine within_ite (fun _ => ?_) (fun _ => ?_)
  with_reducible assumption
  with_reducible refine within_set_mailbox (sub_of hc (by decide)) ?_ ?_ ?_
  with_reducible intro _
  with_reducible exact Memory.wf_writeBytes _ _ ‹_›
  with_reducible exact id
  with_reducible assumption

theorem barWrite_within {cs : List Part} {r : State} (off : Nat) (data : Sys2Proof.Bytes) (s : State)
    (hc : subParts [.wakes, .modes, .mode, .faults, .drowse, .busy, .live, .dict, .mailbox, .can, .keys, .vault, .flash, .tally, .tamper, .jack, .sluice, .endpoint, .rings, .scratch, .integ, .coh, .results, .buckets, .tcam, .links, .slots, .headgate, .pair, .fresh, .out] cs = true) (h : Within cs r s) : Within cs r (barWrite off data s) := by
  delta barWrite
  with_reducible refine within_ite (fun _ => ?_) (fun _ => ?_)
  with_reducible apply bufferWrite_within
  with_reducible exact sub_of hc (by decide)
  with_reducible assumption
  with_reducible refine within_ite (fun _ => ?_) (fun _ => ?_)
  with_reducible assumption
  with_reducible refine within_foldl (fun _ _ _ => ?_) ?_
  with_reducible apply barWordWrite_within
  with_reducible exact sub_of hc (by decide)
  with_reducible assumption
  with_reducible assumption

theorem execBar0RegisterWrite_within {cs : List Part} {r : State} (acc : Sys2Proof.BarAccess) (s : State)
    (hc : subParts [.wakes, .modes, .mode, .faults, .drowse, .busy, .live, .dict, .mailbox, .can, .keys, .vault, .flash, .tally, .tamper, .jack, .sluice, .endpoint, .rings, .scratch, .integ, .coh, .results, .buckets, .tcam, .links, .slots, .headgate, .pair, .fresh, .out] cs = true) (h : Within cs r s) : ResultWithin cs r (execBar0RegisterWrite acc s) := by
  delta execBar0RegisterWrite
  with_reducible refine within_next ?_
  with_reducible refine within_ite (fun _ => ?_) (fun _ => ?_)
  with_reducible assumption
  with_reducible refine within_ite (fun _ => ?_) (fun _ => ?_)
  with_reducible apply discardTlp_within
  with_reducible exact sub_of hc (by decide)
  with_reducible assumption
  with_reducible refine within_ite (fun _ => ?_) (fun _ => ?_)
  with_reducible refine within_ite (fun _ => ?_) (fun _ => ?_)
  with_reducible apply discardTlp_within
  with_reducible exact sub_of hc (by decide)
  with_reducible assumption
  with_reducible apply barWrite_within
  with_reducible exact sub_of hc (by decide)
  with_reducible assumption
  with_reducible refine within_ite (fun _ => ?_) (fun _ => ?_)
  with_reducible apply emit_within
  with_reducible exact sub_of hc (by decide)
  with_reducible assumption
  with_reducible apply emit_within
  with_reducible exact sub_of hc (by decide)
  with_reducible assumption

theorem onCan_within {cs : List Part} {r : State} (f : Can → Can) (s : State) (hc : subParts [.can] cs = true) (h : Within cs r s) (hf : ∀ c, legalNmt c.nmt → legalNmt (f c).nmt) : Within cs r (onCan f s) := by
  delta onCan
  with_reducible refine within_set_can (sub_of hc (by decide)) ?_ ?_
  with_reducible intro _
  with_reducible exact hf _ ‹_›
  with_reducible assumption

theorem usdoAnswer_within {cs : List Part} {r : State} (brs : Bool) (client : Nat) (p : Resp × State) (hc : subParts [.live, .out] cs = true) (h : PairWithin cs r p) : Within cs r (usdoAnswer brs client p) := by
  delta usdoAnswer
  with_reducible apply emit_within
  with_reducible exact sub_of hc (by decide)
  with_reducible apply noteAnswer_within
  with_reducible exact sub_of hc (by decide)
  with_reducible refine within_snd ?_
  with_reducible assumption

theorem usdoReject_within {cs : List Part} {r : State} (client : Nat) (abort : Nat) (detail : Nat) (s : State) (hc : subParts [.live, .out] cs = true) (h : Within cs r s) : Within cs r (usdoReject client abort detail s) := by
  delta usdoReject
  with_reducible apply usdoAnswer_within
  with_reducible exact sub_of hc (by decide)
  with_reducible refine within_mkP ?_
  with_reducible assumption

theorem usdoAccept_within {cs : List Part} {r : State} (client : Nat) (data : Sys2Proof.Bytes) (s : State) (hc : subParts [.live, .out] cs = true) (h : Within cs r s) : Within cs r (usdoAccept client data s) := by
  delta usdoAccept
  with_reducible apply usdoAnswer_within
  with_reducible exact sub_of hc (by decide)
  with_reducible refine within_mkP ?_
  with_reducible assumption

theorem setTransfer_within {cs : List Part} {r : State} (t : Option Transfer) (s : State) (hc : subParts [.can] cs = true) (h : Within cs r s) : Within cs r (setTransfer t s) := by
  delta setTransfer
  with_reducible apply onCan_within
  with_reducible exact sub_of hc (by decide)
  with_reducible assumption
  with_reducible exact fun _ h => h

theorem usdoUpload_within {cs : List Part} {r : State} (client : Nat) (idx : Nat) (sub : Nat) (s : State) (hc : subParts [.live, .can, .tally, .buckets, .out] cs = true) (h : Within cs r s) : Within cs r (usdoUpload client idx sub s) := by
  delta usdoUpload
  split
  with_reducible refine within_ite (fun _ => ?_) (fun _ => ?_)
  with_reducible apply usdoAccept_within
  with_reducible exact sub_of hc (by decide)
  with_reducible apply setTransfer_within
  with_reducible exact sub_of hc (by decide)
  with_reducible refine within_of_pair (by assumption) ?_
  with_reducible apply readObject_within
  with_reducible exact sub_of hc (by decide)
  with_reducible assumption
  with_reducible apply usdoAnswer_within
  with_reducible exact sub_of hc (by decide)
  with_reducible refine within_mkP ?_
  with_reducible refine within_of_pair (by assumption) ?_
  with_reducible apply readObject_within
  with_reducible exact sub_of hc (by decide)
  with_reducible assumption

theorem usdoDownloadInit_within {cs : List Part} {r : State} (client : Nat) (idx : Nat) (sub : Nat) (size : Nat) (s : State) (hc : subParts [.live, .can, .out] cs = true) (h : Within cs r s) : Within cs r (usdoDownloadInit client idx sub size s) := by
  delta usdoDownloadInit
  split
  with_reducible apply usdoReject_within
  with_reducible exact sub_of hc (by decide)
  with_reducible assumption
  split
  with_reducible apply usdoReject_within
  with_reducible exact sub_of hc (by decide)
  with_reducible assumption
  with_reducible apply usdoAccept_within
  with_reducible exact sub_of hc (by decide)
  with_reducible apply setTransfer_within
  with_reducible exact sub_of hc (by decide)
  with_reducible assumption

theorem strayStep_within {cs : List Part} {r : State} (client : Nat) (s : State) (hc : subParts [.live, .out] cs = true) (h : Within cs r s) : Within cs r (strayStep client s) := by
  delta strayStep
  with_reducible apply usdoReject_within
  with_reducible exact sub_of hc (by decide)
  with_reducible assumption

theorem usdoUploadSegment_within {cs : List Part} {r : State} (client : Nat) (s : State) (hc : subParts [.live, .can, .out] cs = true) (h : Within cs r s) : Within cs r (usdoUploadSegment client s) := by
  delta usdoUploadSegment
  split
  with_reducible refine within_ite (fun _ => ?_) (fun _ => ?_)
  with_reducible apply strayStep_within
  with_reducible exact sub_of hc (by decide)
  with_reducible assumption
  extract_lets a12 a13
  have e_a13 : Within cs r a13 := by
    unfold a13
    with_reducible apply onCan_within
    with_reducible exact sub_of hc (by decide)
    with_reducible assumption
    with_reducible exact fun _ h => h
  clear_value a13
  with_reducible apply usdoAccept_within
  with_reducible exact sub_of hc (by decide)
  with_reducible assumption
  with_reducible apply strayStep_within
  with_reducible exact sub_of hc (by decide)
  with_reducible assumption

theorem usdoDownloadSegment_within {cs : List Part} {r : State} (client : Nat) (data : Sys2Proof.Bytes) (last : Bool) (s : State)
    (hc : subParts [.wakes, .modes, .mode, .faults, .drowse, .busy, .live, .dict, .can, .keys, .vault, .flash, .tally, .tamper, .jack, .sluice, .endpoint, .rings, .scratch, .integ, .coh, .results, .buckets, .tcam, .links, .slots, .headgate, .pair, .fresh, .out] cs = true) (h : Within cs r s) : Within cs r (usdoDownloadSegment client data last s) := by
  delta usdoDownloadSegment
  split
  with_reducible refine within_ite (fun _ => ?_) (fun _ => ?_)
  with_reducible apply strayStep_within
  with_reducible exact sub_of hc (by decide)
  with_reducible assumption
  extract_lets a14
  with_reducible refine within_ite (fun _ => ?_) (fun _ => ?_)
  with_reducible apply usdoReject_within
  with_reducible exact sub_of hc (by decide)
  with_reducible apply onCan_within
  with_reducible exact sub_of hc (by decide)
  with_reducible assumption
  with_reducible exact fun _ h => h
  with_reducible refine within_ite (fun _ => ?_) (fun _ => ?_)
  with_reducible apply usdoAnswer_within
  with_reducible exact sub_of hc (by decide)
  with_reducible apply writeObject_within
  with_reducible exact sub_of hc (by decide)
  with_reducible apply onCan_within
  with_reducible exact sub_of hc (by decide)
  with_reducible assumption
  with_reducible exact fun _ h => h
  with_reducible apply usdoAccept_within
  with_reducible exact sub_of hc (by decide)
  with_reducible apply onCan_within
  with_reducible exact sub_of hc (by decide)
  with_reducible assumption
  with_reducible exact fun _ h => h
  with_reducible apply strayStep_within
  with_reducible exact sub_of hc (by decide)
  with_reducible assumption

theorem usdoInitiate_within {cs : List Part} {r : State} (client : Nat) (f : State → State) (s : State)
    (hc : subParts [.live, .can, .out] cs = true) (h : Within cs r s) (hf : ∀ t, Within cs r t → Within cs r (f t)) : Within cs r (usdoInitiate client f s) := by
  delta usdoInitiate
  with_reducible refine within_ite (fun _ => ?_) (fun _ => ?_)
  with_reducible apply usdoReject_within
  with_reducible exact sub_of hc (by decide)
  with_reducible assumption
  with_reducible refine hf _ ?_
  with_reducible apply setTransfer_within
  with_reducible exact sub_of hc (by decide)
  with_reducible assumption

theorem execUsdoRequest_within {cs : List Part} {r : State} (client : Nat) (req : Sys2Proof.Usdo) (s : State)
    (hc : subParts [.wakes, .modes, .mode, .faults, .drowse, .busy, .live, .dict, .can, .keys, .vault, .flash, .tally, .tamper, .jack, .sluice, .endpoint, .rings, .scratch, .integ, .coh, .results, .buckets, .tcam, .links, .slots, .headgate, .pair, .fresh, .out] cs = true) (h : Within cs r s) : ResultWithin cs r (execUsdoRequest client req s) := by
  delta execUsdoRequest
  with_reducible apply within_onUnit
  with_reducible refine within_ite (fun _ => ?_) (fun _ => ?_)
  with_reducible assumption
  split
  with_reducible apply usdoInitiate_within
  with_reducible exact sub_of hc (by decide)
  with_reducible assumption
  with_reducible intro _ _
  with_reducible apply usdoUpload_within
  with_reducible exact sub_of hc (by decide)
  with_reducible assumption
  with_reducible apply usdoUploadSegment_within
  with_reducible exact sub_of hc (by decide)
  with_reducible assumption
  with_reducible apply usdoInitiate_within
  with_reducible exact sub_of hc (by decide)
  with_reducible assumption
  with_reducible intro _ _
  with_reducible apply usdoAnswer_within
  with_reducible exact sub_of hc (by decide)
  with_reducible apply writeObject_within
  with_reducible exact sub_of hc (by decide)
  with_reducible assumption
  with_reducible apply usdoInitiate_within
  with_reducible exact sub_of hc (by decide)
  with_reducible assumption
  with_reducible intro _ _
  with_reducible apply usdoDownloadInit_within
  with_reducible exact sub_of hc (by decide)
  with_reducible assumption
  with_reducible apply usdoDownloadSegment_within
  with_reducible exact sub_of hc (by decide)
  with_reducible assumption

theorem execUsdoTimeout_within {cs : List Part} {r : State} (s : State) (hc : subParts [.live, .can] cs = true) (h : Within cs r s) : ResultWithin cs r (execUsdoTimeout s) := by
  delta execUsdoTimeout
  with_reducible refine within_next ?_
  split
  with_reducible assumption
  with_reducible apply State.bump_within
  with_reducible exact sub_of hc (by decide)
  with_reducible apply onCan_within
  with_reducible exact sub_of hc (by decide)
  with_reducible assumption
  with_reducible exact fun _ h => h

theorem nmtState_within {cs : List Part} {r : State} (v : Nat) (s : State) (hc : subParts [.can] cs = true) (h : Within cs r s) (hm : legalNmt v) : Within cs r (nmtState v s) := by
  delta nmtState
  with_reducible refine within_ite (fun _ => ?_) (fun _ => ?_)
  with_reducible apply onCan_within
  with_reducible exact sub_of hc (by decide)
  with_reducible assumption
  with_reducible intro _ _
  with_reducible assumption
  with_reducible assumption

theorem resetCommunication_within {cs : List Part} {r : State} (s : State) (hc : subParts [.live, .can, .out] cs = true) (h : Within cs r s) : Within cs r (resetCommunication s) := by
  delta resetCommunication
  with_reducible refine within_ite (fun _ => ?_) (fun _ => ?_)
  with_reducible assumption
  extract_lets a6
  have e_a6 : Within cs r a6 := by
    unfold a6
    with_reducible apply onCan_within
    with_reducible exact sub_of hc (by decide)
    with_reducible assumption
    with_reducible intro _ _
    exact .inr (.inr rfl)
  clear_value a6
  with_reducible apply bootUp_within
  with_reducible exact sub_of hc (by decide)
  with_reducible refine within_ite (fun _ => ?_) (fun _ => ?_)
  with_reducible apply State.put_within
  with_reducible exact sub_of hc (by decide)
  with_reducible assumption
  with_reducible assumption

theorem execNmtStart_within {cs : List Part} {r : State} (s : State) (hc : subParts [.can] cs = true) (h : Within cs r s) : ResultWithin cs r (execNmtStart s) := by
  delta execNmtStart
  with_reducible refine within_next ?_
  with_reducible apply nmtState_within
  with_reducible exact sub_of hc (by decide)
  with_reducible assumption
  exact (by unfold legalNmt; decide)

theorem execNmtStop_within {cs : List Part} {r : State} (s : State) (hc : subParts [.can] cs = true) (h : Within cs r s) : ResultWithin cs r (execNmtStop s) := by
  delta execNmtStop
  with_reducible refine within_next ?_
  with_reducible apply nmtState_within
  with_reducible exact sub_of hc (by decide)
  with_reducible assumption
  exact (by unfold legalNmt; decide)

theorem execNmtEnterPreOperational_within {cs : List Part} {r : State} (s : State) (hc : subParts [.can] cs = true) (h : Within cs r s) : ResultWithin cs r (execNmtEnterPreOperational s) := by
  delta execNmtEnterPreOperational
  with_reducible refine within_next ?_
  with_reducible apply nmtState_within
  with_reducible exact sub_of hc (by decide)
  with_reducible assumption
  exact .inr (.inr rfl)

theorem execNmtResetCommunication_within {cs : List Part} {r : State} (s : State) (hc : subParts [.live, .can, .out] cs = true) (h : Within cs r s) : ResultWithin cs r (execNmtResetCommunication s) := by
  delta execNmtResetCommunication
  with_reducible refine within_next ?_
  with_reducible apply resetCommunication_within
  with_reducible exact sub_of hc (by decide)
  with_reducible assumption

theorem execNmtResetNode_within {cs : List Part} {r : State} (s : State) (hc : subParts [.live, .can, .out] cs = true) (h : Within cs r s) : ResultWithin cs r (execNmtResetNode s) := by
  delta execNmtResetNode
  with_reducible refine within_next ?_
  with_reducible apply resetCommunication_within
  with_reducible exact sub_of hc (by decide)
  with_reducible assumption

theorem execHeartbeatTimer_within {cs : List Part} {r : State} (s : State) (hc : subParts [.out] cs = true) (h : Within cs r s) : ResultWithin cs r (execHeartbeatTimer s) := by
  delta execHeartbeatTimer
  with_reducible refine within_next ?_
  with_reducible refine within_ite (fun _ => ?_) (fun _ => ?_)
  with_reducible assumption
  with_reducible apply canSend_within
  with_reducible exact sub_of hc (by decide)
  with_reducible assumption

theorem sendTpdo_within {cs : List Part} {r : State} (m : Nat) (s : State) (hc : subParts [.can, .out] cs = true) (h : Within cs r s) : Within cs r (sendTpdo m s) := by
  delta sendTpdo
  with_reducible apply canSend_within
  with_reducible exact sub_of hc (by decide)
  with_reducible apply onCan_within
  with_reducible exact sub_of hc (by decide)
  with_reducible assumption
  with_reducible exact fun _ h => h

theorem execTpdoEventTimer_within {cs : List Part} {r : State} (tpdo : Nat) (s : State) (hc : subParts [.can, .out] cs = true) (h : Within cs r s) : ResultWithin cs r (execTpdoEventTimer tpdo s) := by
  delta execTpdoEventTimer
  with_reducible apply within_onUnit
  with_reducible refine within_ite (fun _ => ?_) (fun _ => ?_)
  with_reducible assumption
  with_reducible refine within_ite (fun _ => ?_) (fun _ => ?_)
  with_reducible apply onCan_within
  with_reducible exact sub_of hc (by decide)
  with_reducible assumption
  with_reducible exact fun _ h => h
  with_reducible apply sendTpdo_within
  with_reducible exact sub_of hc (by decide)
  with_reducible assumption

theorem settleTpdo_within {cs : List Part} {r : State} (s : State) (m : Nat) (hc : subParts [.can, .out] cs = true) (h : Within cs r s) : Within cs r (settleTpdo s m) := by
  delta settleTpdo
  with_reducible refine within_ite (fun _ => ?_) (fun _ => ?_)
  with_reducible apply onCan_within
  with_reducible exact sub_of hc (by decide)
  with_reducible assumption
  with_reducible exact fun _ h => h
  with_reducible refine within_ite (fun _ => ?_) (fun _ => ?_)
  with_reducible assumption
  with_reducible apply sendTpdo_within
  with_reducible exact sub_of hc (by decide)
  with_reducible assumption

theorem execCanBusOff_within {cs : List Part} {r : State} (s : State) (hc : subParts [.live, .can] cs = true) (h : Within cs r s) : ResultWithin cs r (execCanBusOff s) := by
  delta execCanBusOff
  with_reducible refine within_next ?_
  with_reducible refine within_ite (fun _ => ?_) (fun _ => ?_)
  with_reducible apply State.bump_within
  with_reducible exact sub_of hc (by decide)
  with_reducible apply onCan_within
  with_reducible exact sub_of hc (by decide)
  with_reducible assumption
  with_reducible exact fun _ h => h
  with_reducible assumption

theorem execBusOffRecovery_within {cs : List Part} {r : State} (s : State) (hc : subParts [.can] cs = true) (h : Within cs r s) : ResultWithin cs r (execBusOffRecovery s) := by
  delta execBusOffRecovery
  with_reducible refine within_next ?_
  with_reducible apply onCan_within
  with_reducible exact sub_of hc (by decide)
  with_reducible assumption
  with_reducible exact fun _ h => h

theorem execCanRejoin_within {cs : List Part} {r : State} (s : State) (hc : subParts [.can, .out] cs = true) (h : Within cs r s) : ResultWithin cs r (execCanRejoin s) := by
  delta execCanRejoin
  with_reducible refine within_next ?_
  with_reducible refine within_ite (fun _ => ?_) (fun _ => ?_)
  with_reducible assumption
  extract_lets a6 a7
  have e_a7 : Within cs r a7 := by
    unfold a7
    with_reducible apply onCan_within
    with_reducible exact sub_of hc (by decide)
    with_reducible assumption
    with_reducible intro _ _
    split
    exact .inr (.inr rfl)
    with_reducible assumption
  clear_value a7
  with_reducible refine within_ite (fun _ => ?_) (fun _ => ?_)
  with_reducible apply bootUp_within
  with_reducible exact sub_of hc (by decide)
  with_reducible assumption
  with_reducible assumption

end Sys2Proof.Machine
end

