-- ==== Sys2Proof/Tests/Slice0.lean ====
section
/-! SUPPORT. Tests: the well-formedness check refuses an ill-formed command of each kind, the decoder has no words to read, a few single steps with
results computed by hand from the spec, and, for each statement with hypotheses, states and operands that meet them. -/

set_option Elab.async false

open Sys2Proof Sys2Proof.Machine

namespace Sys2Proof.Tests

/-! ### States -/

/-- `s` with these live values of objects. -/
abbrev put (l : List (Nat × Nat)) (s : State) : State := l.foldl (fun s e => s.put e.1 e.2) s

/-- Sleep, with VAUX there. -/
abbrev sleeping : State :=
  { State.reset with power := { State.reset.power with vaux := true }, modes := Modes.off 8, sluice := { Sluice.off with pwrHold := true } }

/-- The core starts: Fill. -/
abbrev filling : State := { sleeping with power := { sleeping.power with core := true }, modes := Modes.off 2 }

/-- Class A and class B are ready; mode Run. -/
abbrev running : State :=
  { filling with
    modes := { Modes.off 4 with startCause := 1, rootDone := true, fillDone := true, ready := true, fillEnded := true, classReady := 3 }
    host := { Pcie.off with canSend := true, msixOn := true, msixTable := [] }
    can := { Can.off with up := true, nmt := 5, nodeId := 1 }
    clock := { State.reset.clock with wall := 5000000000 } }

/-- `s` with its modes changed. -/
abbrev inModes (f : Modes → Modes) (s : State) : State := { s with modes := f s.modes }

/-- `s` with these search slots. -/
abbrev withSlots (xs : List Slot) (s : State) : State := { s with headgate := { s.headgate with slots := xs } }

/-- A search of class `c` in slot `id` of link 0, in this phase, whose program 0 has no steps. -/
abbrev search (id c : Nat) (phase : Phase) : Slot where
  id := id
  link := 0
  header := 0x10 * 2 ^ 120 + c * 2 ^ 118 + 9 * 2 ^ 90
  snapshot := []
  config := []
  payload := []
  payState := .none
  units := 0
  lateral := if c = 1 then 8 else 0
  phase := phase
  step := 0
  cand := none
  fromDefault := false
  chain := 0
  ownHit := none
  ticket := 0
  verdict := ⟨0, 0, 0, 0, 0, 0, 0, 0, false, false, false, 0, 0⟩
  resultRecord := 0
  reads := []
  mac := none
  transition := false
  since := 0
  late := false

/-! ### The machine -/

theorem witness_StepRunsTheFrontCommand :
    ({ State.reset with pending := [.vauxRise 0, .vauxLoss] } : State).pending = .vauxRise 0 :: [.vauxLoss] ∧ State.reset.pending = [] ∧ AtRest State.reset ∧ AtRest running :=
  ⟨rfl, rfl, ⟨rfl, rfl, fun h => absurd h (by decide)⟩, rfl, rfl, fun _ =>
    ⟨fun r hr => ⟨(by decide : ∀ r < 8, (ringAt running r).skip = false) r hr, .inl ((by decide : ∀ r < 8, (ringAt running r).waiting = none) r hr)⟩,
      rfl, rfl, by decide, rfl⟩⟩

theorem witness_WellFormedCommandsComplete : (Instr.vauxRise 3).wf = true ∧ (Instr.vauxRise 4).wf = false := by decide

theorem witness_CommandsKeepWithinTheirReach : ∃ t, exec (.vauxRise 3) State.reset = .next t := ⟨_, rfl⟩

theorem witness_EveryStepKeepsSound :
    Sound State.reset ∧ ∃ t, step { State.reset with pending := [.vauxRise 3] } = .next t := by
  unfold Sound legalMode legalNmt
  exact ⟨by decide, _, rfl⟩

/-! ### Supplies, the start, faults and modes -/

theorem witness_SuppliesStartTheCore :
    (3 < 4 ∧ State.reset.power.vaux = false ∧ State.reset.clock.rtcOn = true ∧ State.reset.power.vbat = true) ∧
    ({ State.reset with clock := { State.reset.clock with rtcOn := false } } : State).clock.rtcOn = false ∧
    (running.power.vaux = true ∧ running.power.core = true) ∧ (sleeping.power.vaux = true ∧ sleeping.power.core = false) ∧
    (127 < 128 ∧ 3 < 4 ∧ sleeping.power.vaux = true ∧ sleeping.power.vbat = true ∧ sleeping.power.core = false ∧ sleeping.modes.mode = 0x08 ∧
      sleeping.sluice.pwrHold = true) := by decide

theorem witness_StartStagesComplete :
    (filling.power.core = true ∧ filling.modes.rootDone = false ∧ alarmNow filling = false ∧ filling.tamper.early = false ∧
      filling.modes.fillDone = false) ∧
    (let s := inModes (fun m => { m with classReady := 0 }) running
     s.power.core = true ∧ s.modes.fillEnded = true ∧ s.modes.halted = false ∧ bit s.modes.classReady 0 = false) ∧
    (let s := inModes (fun m => { m with classReady := 1 }) running
     s.power.core = true ∧ bit s.modes.classReady 0 = true ∧ s.modes.halted = false ∧ bit s.modes.classReady 1 = false) ∧
    (let s := inModes (fun m => { m with rootDone := true, fillDone := true }) filling
     s.power.core = true ∧ s.modes.halted = false ∧ bit s.modes.refLost 5 = false ∧ s.modes.fillDone = true ∧ s.modes.rootDone = true ∧
       s.modes.ready = false ∧ chosenSlot s = none) ∧
    (let s := inModes (fun m => { m with fillEnded := false, classReady := 0 }) running
     s.power.core = true ∧ s.modes.halted = false ∧ bit s.modes.refLost 5 = false ∧ s.modes.ready = true ∧ s.modes.fillEnded = false) := by decide

/-- The header of a firmware image with one byte of program, up to its signature. -/
def header : Bytes :=
  [0x4B#8, 0x59#8, 0x46#8, 0x57#8, 1#8] ++ zeros 3 ++ [0xFF#8, 0#8, 0#8, 1#8] ++ beBytes 4 1 ++ sha256 [0#8] ++ zeros 16

theorem slice_middle (a b c : Bytes) (i n : Nat) (ha : a.length = i) (hb : b.length = n) : slice (a ++ b ++ c) i n = b := by
  subst ha hb
  simp [slice, zeros]

theorem slice_left (a c : Bytes) (i n : Nat) (h : i + n ≤ a.length) : slice (a ++ c) i n = slice a i n := by
  have h1 : i ≤ a.length := by omega
  simp only [slice, List.drop_append_of_le_length h1]
  rw [List.take_append_of_le_length (by simp; omega)]

/-- An image with a signature of Nymmecy's root key over its header verifies. The key is no value of the model's, so the signature is a premise. -/
theorem image_verifies (sig : Bytes) (h : sig.length = 64) (hv : ecdsaVerify (beBytes 64 Config.nymmecyRootKey.toNat) header sig = true) :
    imageVerifies (header ++ sig ++ [0#8]) = true := by
  have hl : header.length = 64 := by decide
  have hf := Config.firmwareFloor.isLt
  have e1 : slice (header ++ sig ++ [0#8]) 64 64 = sig := slice_middle _ _ _ _ _ hl h
  have e2 : ∀ i n, i + n ≤ 64 → slice (header ++ sig ++ [0#8]) i n = slice header i n := fun i n hh => by
    rw [List.append_assoc]; exact slice_left _ _ _ _ (hl ▸ hh)
  have e3 : slice (header ++ sig ++ [0#8]) 128 1 = [0#8] := by
    simpa using slice_middle (header ++ sig) [0#8] [] 128 1 (by simp [hl, h]) rfl
  have e4 : (header ++ sig ++ [0#8]).take 64 = header := by rw [List.append_assoc, ← hl]; simp
  have e5 : be (header ++ sig ++ [0#8]) 12 4 = 1 := by unfold be; rw [e2 _ _ (by decide)]; decide
  have e6 : u8 (header ++ sig ++ [0#8]) 8 = 255 := by unfold u8 le; rw [e2 _ _ (by decide)]; decide
  have e7 : u8 (header ++ sig ++ [0#8]) 4 = 1 := by unfold u8 le; rw [e2 _ _ (by decide)]; decide
  have e8 : be (header ++ sig ++ [0#8]) 0 4 = 0x4B594657 := by unfold be; rw [e2 _ _ (by decide)]; decide
  have e9 : slice (header ++ sig ++ [0#8]) 16 32 = sha256 [0#8] := by rw [e2 _ _ (by decide)]; decide +kernel
  unfold imageVerifies
  simp only [e5, e6, e7, e8, e9, e3, e1, e4, hv]
  simp [hl, h]
  omega

theorem witness_StartStagesComplete_verified (sig : Bytes) (h : sig.length = 64)
    (hv : ecdsaVerify (beBytes 64 Config.nymmecyRootKey.toNat) header sig = true) :
    let s := { inModes (fun m => { m with rootDone := true, fillDone := true }) filling with flash := ⟨header ++ sig ++ [0#8], [], [], [], [], [], 0, 0⟩ }
    s.power.core = true ∧ s.modes.halted = false ∧ bit s.modes.refLost 5 = false ∧ s.modes.fillDone = true ∧ s.modes.rootDone = true ∧
      s.modes.ready = false ∧ chosenSlot s = some (0, header ++ sig ++ [0#8]) := by
  have h0 : imageVerifies [] = false := by decide
  have h1 := image_verifies sig h hv
  refine ⟨rfl, rfl, (by decide : bit 0 5 = false), rfl, rfl, rfl, ?_⟩
  unfold chosenSlot
  simp only [h1, h0]

/-- `s` with PN 0 defined, always on or not, and in this state. -/
abbrev withPn (alwaysOn : Bool) (r : Pn) (s : State) : State :=
  { s with sluice := { s.sluice with
      held := SMap.set 0 s.sluice.held (O.pnDefinition 0) (2 ^ 63 + (if alwaysOn then 2 ^ 62 else 0) + 1), pns := [(0, r)] } }

theorem witness_PoweringDownCompletes :
    (running.power.core = true) ∧
    (let s := withPn false ⟨1, false, false, 0⟩ running
     sluiceRuns s = true ∧ s.power.core = true ∧ allAsleep s = true ∧ s.sluice.entry < 2 ∧ s.power.goodAt + 1000000000 ≤ s.clock.wall) ∧
    (let s := { running with sluice := { Sluice.off with entry := 2 } }
     sluiceRuns s = true ∧ s.power.core = true ∧ s.power.tamperWake = false ∧ s.sluice.entry = 2 ∧ s.sluice.entry ≠ 0) ∧
    (let s := { withPn false ⟨1, false, false, 0⟩ running with power := { running.power with tamperWake := true } }
     sluiceRuns s = true ∧ s.power.tamperWake = true ∧ sluiceObj s O.pwrHoldMinLow ≠ 0) ∧
    (let s := { running with sluice := { Sluice.off with wakeWaits := true } }
     sluiceRuns s = true ∧ s.sluice.wakeWaits = true) := by decide

theorem witness_ReferencesPaceAndTelemetryComplete :
    (1 ≤ 8 ∧ 9 ≤ 9 ∧ running.power.core = true ∧ bit running.modes.refLost (8 - 1) = false ∧ running.modes.k8At = 0) ∧
    (let s := inModes (fun m => { m with refLost := 0x101, k8At := 1 }) running
     bit s.modes.refLost (1 - 1) = true ∧ bit s.modes.refLost (9 - 1) = true) ∧
    (65535 < 65536 ∧ 1230 ≤ (put [(O.minPace, 1230)] running).val O.minPace ∧ (put [(O.minPace, 1229)] running).val O.minPace < 1230) := by decide

theorem witness_FaultsAreRaisedReportedAndCleared :
    faultActive 0x0170 running = false ∧
    faultActive 0x0170 (inModes (fun m => { m with active := [(0x0170, 1)] }) running) = true ∧
    (let s := inModes (fun m => { m with emcyWait := [(0x0170, emcyBytes 0x0170 true 1 State.reset)] }) running
     (s.modes.emcyWait.find? fun w => w.1 == 0x0170) = some (0x0170, emcyBytes 0x0170 true 1 State.reset) ∧ bit (s.obj O.cobIdEmcy) 31 = false ∧ s.can.nmt ≠ 0x04 ∧
       canTalks s = true) := by decide

theorem witness_FaultPinFollowsFaults :
    (running.modes.mode ≠ 0x01 ∧ running.modes.mode ≠ 0x08) ∧ sleeping.modes.mode = 0x08 ∧ State.reset.modes.mode = 0x01 := by decide

theorem witness_ModeFollowsItsConditions :
    (running.power.core = true ∧ running.modes.fillEnded = true) ∧
    (let s := inModes (fun m => { m with halted := true }) filling
     s.power.core = true ∧ s.modes.halted = true) := by decide

theorem witness_DrowseCompletes :
    (let s := put [(O.drowseEnable, 1), (O.extReady, 1)] running
     s.power.core = true ∧ s.obj O.drowseEnable ≠ 0 ∧ s.modes.mode = 4 ∧ bit s.modes.quarantine 0 = false ∧ s.flag O.extReady = true ∧
       s.modes.drowse = 0 ∧ s.modes.fwStage ≠ 1 ∧ exchangeBusy s = false ∧
       s.modes.busyAt + s.obj O.drowseIdle * 1000000 ≤ s.clock.wall) ∧
    (let s := inModes (fun m => { m with drowse := 1 }) running
     s.power.core = true ∧ s.modes.drowse = 1 ∧ lateralsBusy s = false) ∧
    (let s := withSlots [{ search 64 2 .assigned with lateral := 1 }] (inModes (fun m => { m with drowse := 1 }) running)
     s.power.core = true ∧ s.modes.drowse = 1 ∧ lateralsBusy s = true) ∧
    (inModes (fun m => { m with drowse := 2 }) running).modes.drowse = 2 ∧
    (inModes (fun m => { m with drowse := 3 }) running).modes.drowse = 3 ∧
    (inModes (fun m => { m with drowse := 4 }) running).modes.drowse = 4 := by decide

theorem witness_FirmwareStagingAndQuarantineComplete :
    (let s := inModes (fun m => { m with fwStage := 1, fwImage := [0#8] }) running
     flashRuns s = true ∧ s.modes.fwStage = 1 ∧ imageVerifies s.modes.fwImage = false) ∧
    (running.power.core = true ∧ running.modes.halted = false ∧ running.modes.ready = true ∧
      quarantineUnits 11 = true ∧ quarantineUnits 12 = false ∧ quarantineUnits 0x3F = true ∧ quarantineUnits 0x40 = false ∧
      bit running.modes.quarantine 11 = false ∧ bit (inModes (fun m => { m with quarantine := 2048 }) running).modes.quarantine 11 = true ∧
      bit running.modes.quarantine (8 + 3) = false) := by decide

theorem witness_FirmwareStagingAndQuarantineComplete_verified (sig : Bytes) (h : sig.length = 64)
    (hv : ecdsaVerify (beBytes 64 Config.nymmecyRootKey.toNat) header sig = true) :
    let s := inModes (fun m => { m with fwStage := 1, fwImage := header ++ sig ++ [0#8] }) running
    flashRuns s = true ∧ s.modes.fwStage = 1 ∧ imageVerifies s.modes.fwImage = true :=
  ⟨(by decide : (true && !bit 0 5) = true), rfl, image_verifies sig h hv⟩

/-! ### The command rings -/

/-- `s` with ring 0 as given. -/
abbrev withRing (g : Ring) (s : State) : State := { s with host := { s.host with rings := g :: List.replicate 7 Ring.off } }

/-- A ring with one descriptor to execute. -/
abbrev oneWaits : Ring := { Ring.off with enabled := true, producer := 1 }

/-- A direct descriptor with tag 7, of opcode `op` with these operands. -/
abbrev direct (op : Nat) (operands : Bytes) : Bytes :=
  BitVec.ofNat 8 op :: [0#8, 0#8, 0#8, 7#8, 0#8, 0#8, 0#8] ++ operands ++ zeros (56 - operands.length)

/-- An Indirect descriptor with tag 7, of opcode `op`, for an operand block of `n` bytes at address 0. -/
abbrev indirect (op n : Nat) : Bytes :=
  [BitVec.ofNat 8 op, 2#8, BitVec.ofNat 8 n, BitVec.ofNat 8 (n / 256), 7#8] ++ zeros 59

/-- What a direct descriptor's fetch finds. -/
abbrev got (d : Bytes) : Fetch := ⟨some d, none, true, true⟩

/-- What an Indirect descriptor's fetch finds. -/
abbrev gotBlock (d b : Bytes) : Fetch := ⟨some d, some b, true, true⟩

theorem witness_RingCommandsEnd :
    let s := withRing { oneWaits with desc := direct 0x02 [] } running
    7 < 8 ∧ s.host.rings.length = 8 ∧ (ringAt s 0).disabling = 0 ∧ dsTag (ringAt s 0).desc ≠ 0 := by decide

theorem witness_ProducerIndexWritesAreChecked :
    let s := withRing { oneWaits with producer := 4, completion := 2 ^ 32 - 4 } running
    let ahead : Nat → Nat := fun v => (v + 2 ^ 32 - (ringAt s 0).completion) % 2 ^ 32
    0 < 8 ∧ s.host.rings.length = 8 ∧ (ringAt s 0).enabled = true ∧ vectorOpen 9 s = true ∧
      (ahead 4 ≤ ahead 12 ∧ ahead 12 ≤ 2 ^ (ringAt s 0).sizeLog2) ∧ 2 ^ (ringAt s 0).sizeLog2 < ahead 13 ∧ ahead 3 < ahead 4 := by decide

theorem witness_RingRegistersAndHaltsComplete :
    (0 < 8 ∧ running.host.rings.length = 8 ∧ ringsServed running = true ∧ (ringAt running 0).enabled = false) ∧
    (let s := withRing oneWaits running
     s.host.rings.length = 8 ∧ ringsServed s = true ∧ (ringAt s 0).enabled = true ∧ (ringAt s 0).waiting = none) ∧
    (let s := withRing { oneWaits with waiting := some (.fence [] [3]), desc := direct 0x30 [] } running
     ringsServed s = true ∧ (ringAt s 0).waiting ≠ none ∧ (ringAt s 0).waiting = some (.fence [] [3]) ∧ (ringAt s 0).disabling = 0 ∧ s.val O.domainState = 0 ∧ s.modes.halted = false ∧
       bit s.modes.refLost 3 = false) ∧
    (let s := withRing { oneWaits with halted := true, desc := direct 0x02 [] } running
     s.host.rings.length = 8 ∧ (ringAt s 0).enabled = true ∧ (ringAt s 0).halted = true ∧ ringPaused s 0 = false ∧
       ringPaused (put [(O.domainState, 1)] s) 0 = true) := by decide

/-- No ring but 0 of `running` with ring 0 in use waits. -/
theorem others_rest (g : Ring) : ∀ i < 8, i ≠ 0 → ∀ a c, (ringAt (withRing g running) i).waiting ≠ some (.fence a c) := by
  intro i hi hn a c h
  have : (ringAt (withRing g running) i).waiting = none := by
    match i, hi, hn with
    | 1, _, _ | 2, _, _ | 3, _, _ | 4, _, _ | 5, _, _ | 6, _, _ | 7, _, _ => rfl
  rw [this] at h
  cases h

theorem witness_FenceCompletes :
    let s := withRing oneWaits running
    let fits : Bytes → Prop := fun d => Runs 0 0x30 (got d) d [] s ∧ s.host.rings.length = 8 ∧ bits (u8 d 9) 7 1 = 0 ∧ allZero d 10 2 = true ∧
      1 ≤ le d 12 4 ∧ le d 12 4 ≤ 1000000 ∧ allZero d 16 48 = true
    fits (direct 0x30 ([1#8, 1#8, 0#8, 0#8] ++ leBytes 4 1000000)) ∧ fenceMet s [] [] = true ∧
      fits (direct 0x30 ([2#8, 0#8, 0#8, 0#8] ++ leBytes 4 1)) ∧ fenceMet s [(8, 0)] [] = false ∧
      s.val O.domainState = 0 ∧ s.modes.halted = false ∧ bit s.modes.refLost 3 = false ∧
      ∀ i < 8, i ≠ 0 → ∀ a c, (ringAt s i).waiting ≠ some (.fence a c) := by
  refine ⟨by unfold Runs; decide, by decide, by unfold Runs; decide, by decide, by decide, by decide, by decide, others_rest _⟩

/-! ### Commands on tables -/

/-- Quarter 1's table 5 in its definition 0: 8 narrow slots, longest prefix first. -/
abbrev tcamTab : Nat := 2 ^ 63 + 5 * 2 ^ 40 + 8

/-- A TCAM block for table 5 of quarter 1: record 9, the key of one byte 0xAB, its mask those 8 bits. -/
abbrev tcamBlock : Bytes := [1#8, 5#8, 0#8, 0#8, 9#8] ++ zeros 11 ++ 0xAB#8 :: zeros 47 ++ 0xFF#8 :: zeros 47

/-- A shadow for that block's entry with record `n`. -/
abbrev tcamShadow (key n : Nat) : Shadow :=
  { Shadow.zero with value := 5 * 2 ^ 184 + key * 2 ^ 176, mask := 2 ^ 192 - 2 ^ 176, record := n, valid := true }

/-- Ring 0 waits with one command, and the table is there. -/
abbrev tcamState : State := withRing oneWaits (put [(O.tableDefinition 1 0, tcamTab)] running)

/-- It holds the block's entry, and another of its group behind it. -/
abbrev tcamHolds : State :=
  { tcamState with tcam := { Tcam.off with powered := 2 ^ 8, slots := [(8192, slotOf (tcamShadow 0xAB 3)), (8193, slotOf (tcamShadow 0x11 4))] } }

theorem witness_TcamCommandsComplete :
    (u8 tcamBlock 0 % 4 = 1 ∧ quarterOut tcamState 1 = false ∧ tcamTable tcamState.dict.live 1 (u8 tcamBlock 1) = some 0 ∧
      ringBroken tcamState tcamTab = false) ∧
    (let d := indirect 0x01 112
     let e := tcamBlockEntry tcamTab tcamBlock
     Runs 0 0x01 (gotBlock d tcamBlock) d tcamBlock tcamState ∧ tcamDetail tcamState 1 tcamBlock = none ∧
       findTcam tcamState 1 0 e.key e.mask = none ∧ planTcam 1 0 e tcamState = .inl (8192, validateWrites tcamTab false e 8192, 0) ∧
       ∀ w ∈ validateWrites tcamTab false e 8192, w.1 < 32768) ∧
    (let d := indirect 0x02 112
     let b := tcamBlock.set 4 0#8
     let e := tcamBlockEntry tcamTab b
     let x : TcamEntry := ⟨0xAB * 2 ^ 176, 0xFF * 2 ^ 176, 3, 0, false⟩
     Runs 0 0x02 (gotBlock d b) d b tcamHolds ∧ tcamDetail tcamHolds 2 b = none ∧
       findTcam tcamHolds 1 0 e.key e.mask = some (8192, x) ∧ x.sealed = false ∧ ∀ p ∈ tablePlaces tcamHolds 1 0, p < 32768 - tdStride tcamTab) ∧
    (let d := indirect 0x03 112
     let e := tcamBlockEntry tcamTab tcamBlock
     let x : TcamEntry := ⟨0xAB * 2 ^ 176, 0xFF * 2 ^ 176, 3, 0, false⟩
     Runs 0 0x03 (gotBlock d tcamBlock) d tcamBlock tcamHolds ∧ tcamDetail tcamHolds 3 tcamBlock = none ∧
       findTcam tcamHolds 1 0 e.key e.mask = some (8192, x) ∧ x.sealed = false ∧ 8192 < 32768) := by
  unfold Runs; refine ⟨?_, ?_, ?_, ?_⟩ <;> decide +kernel

/-- Table 2, of plan 1, holds 10.0.0.0/8 with record 3. -/
abbrev trieState : State :=
  { withRing oneWaits (put [(O.trieDefinition 2, 2 ^ 31 + 2 ^ 24), (O.shadowReady, 1)] running) with
    furrow := { Furrow.off with prefixes := [(prefixKey 2 (10 * 2 ^ 56) 8, 3)], used := [(5, 2), (9, 1)], draining := [(2, [5, 6])] } }

/-- The operands for the prefix of length 0, with record `n`. -/
abbrev trieOperands (n : Nat) : Bytes := [2#8, 0#8, 0#8, 0#8] ++ leBytes 4 n ++ zeros 8

/-- Table 2 is empty, or holds its default route alone. -/
abbrev trieWith (m : SMap Nat) : State := { trieState with furrow := { Furrow.off with prefixes := m } }

theorem witness_TrieCommandsComplete :
    let k := prefixKey 2 0 0
    let w : SMap Nat → SMap Nat → PublishWrite := fun a b => publishingWrite 1 (triePrefixes a 2) (triePrefixes b 2)
    (let s := trieWith []
     let d := direct 0x08 (trieOperands 262143)
     trieGate s = none ∧ allZero d 24 40 = true ∧ Runs 0 0x08 (got d) d [] s ∧ trieDetail s.dict.live false (d.drop 8) = none ∧
       SMap.find? s.furrow.prefixes k = none ∧ trieQuota (trieDef s.dict.live 2) = 0 ∧
       wordsInUse s + copyWords 1 [] (triePrefixes [(k, 262143)] 2) ≤ trieCapacity - s.obj O.cowReserve ∧
       (publish 2 (w [] [(k, 262143)]) false [(k, 262143)] (takenUp 0 d [] s)).isSome = true) ∧
    (let s := trieWith [(k, 3)]
     let d := direct 0x09 (trieOperands 0)
     trieGate s = none ∧ allZero d 24 40 = true ∧ Runs 0 0x09 (got d) d [] s ∧ trieDetail s.dict.live true (d.drop 8) = none ∧
       SMap.find? s.furrow.prefixes k = some 3 ∧ wordsInUse s + copyWords 1 (triePrefixes [(k, 3)] 2) [] ≤ trieCapacity ∧
       (publish 2 (w [(k, 3)] []) false [] (takenUp 0 d [] s)).isSome = true) ∧
    (3 < 4 ∧ 7 < 8 ∧ (∀ e ∈ tcamHolds.tcam.slots, e.1 / 1024 = 8 * 1 + 1 → e.2.v = false) ∧
      ∃ e ∈ tcamHolds.tcam.slots, e.1 / 1024 = 8 * 1 + 0 ∧ e.2.v = true) ∧
    (trieState.furrow.draining.find? fun x => x.1 == 2) = some (2, [5, 6]) ∧ ∀ m ∈ trieState.furrow.draining, m.1 ≠ 15 := by
  unfold Runs; refine ⟨?_, ?_, ?_, ?_, ?_⟩ <;> decide +kernel

/-- Table 1: 16 buckets, keys of 48 bits, up to 16 overflow entries, learnable. -/
abbrev bucketTab : Nat := 2 ^ 63 + 2 ^ 61 + 48 * 2 ^ 48 + 4 * 2 ^ 40 + 16 * 2 ^ 16

/-- A bucket block of table 1 for the key 0xAB in front, with record `n`. -/
abbrev bucketBlock (n : Nat) : Bytes := [1#8, 0#8, 0#8, 0#8] ++ leBytes 4 n ++ zeros 8 ++ 0xAB#8 :: zeros 47

/-- That key. -/
abbrev bucketKey : Nat := blockKey (bucketBlock 0)

/-- Ring 0 waits with one command, table 1 is there and empty. -/
abbrev bucketState : State := withRing oneWaits (put [(O.bucketTableDefinition 1, bucketTab)] running)

/-- `s` with these entries. -/
abbrev withEntries (es : SMap BucketEntry) (s : State) : State := { s with buckets := { s.buckets with entries := es } }

/-- The first way of the key's bucket; the seed is no value of the model's, so the bucket's number is not known. -/
def firstWay : Nat := bucketPlace false (keyBucket bucketState 1 bucketKey)

/-- Table 1 holds the key there. -/
abbrev bucketHolds (e : BucketEntry) : State := withEntries [(firstWay, e)] bucketState

/-- A key stands in the first way of its bucket. -/
theorem findPlace_first (s : State) (t key : Nat) (e : BucketEntry) (hx : defExt (tableDef s.dict.live t) = false)
    (he : SMap.find? s.buckets.entries (bucketPlace false (keyBucket s t key)) = some e)
    (ht : e.table = t) (hk : e.key = key) (hg : e.gen = bit s.buckets.gens t) :
    findPlace s t key = some (bucketPlace false (keyBucket s t key)) := by
  subst ht hk
  have he' : SMap.find? s.buckets.entries
      (bucketPlace false (bucketOf (tableDef s.dict.live e.table) (regionBase e.table s) (hashOf s e.table false e.key))) = some e := by
    simpa [keyBucket, hx] using he
  simp [findPlace, keyBucket, hx, he', hg, show List.range 4 = [0, 1, 2, 3] from rfl]

/-- A table without an entry of a key. -/
theorem findPlace_empty (s : State) (t key : Nat) (hx : defExt (tableDef s.dict.live t) = false) (he : s.buckets.entries = []) :
    findPlace s t key = none := by
  simp [findPlace, hx, he, SMap.find?, show List.range 4 = [0, 1, 2, 3] from rfl]

/-- A key whose bucket's first way is free goes there. -/
theorem planInsert_first (s : State) (t key : Nat) (hx : defExt (tableDef s.dict.live t) = false)
    (hf : placeFree s (bucketPlace false (keyBucket s t key)) = true) :
    planInsert s t key = .inl (bucketPlace false (keyBucket s t key)) := by
  have hf' : placeFree s
      (bucketPlace false (bucketOf (tableDef s.dict.live t) (regionBase t s) (hashOf s t false key))) = true := by
    simpa [keyBucket, hx] using hf
  simp [planInsert, keyBucket, hx, hf', show List.range 4 = [0, 1, 2, 3] from rfl]

/-- A table on chip has no tag word. -/
theorem tag_readable (s : State) (t key : Nat) (hx : defExt (tableDef s.dict.live t) = false) : tagPoisoned s t key = false := by simp [tagPoisoned, hx]

/-- Taking up a command leaves the tables alone. -/
theorem takenUp_buckets (r : Nat) (d b : Bytes) (s : State) : (takenUp r d b s).buckets = s.buckets := by
  have hd : ∀ s, (drowseTrigger s).buckets = s.buckets := fun s => by
    simp only [drowseTrigger]
    split
    · rfl
    · split <;> rfl
  simp only [takenUp]
  split
  · exact hd _
  · rfl

/-- The first way of table 1's bucket lies on chip. -/
theorem firstWay_lt : firstWay < 0x100000 := by
  have h1 : regionBase 1 bucketState = 0 := by decide +kernel
  have h2 : defLog2 (tableDef bucketState.dict.live 1) = 4 := by decide +kernel
  simp only [firstWay, bucketPlace, keyBucket, bucketOf, h1, h2, Bool.false_eq_true, if_false]
  omega

/-- The entry of the key with record 3, of the host. -/
abbrev hostHas : BucketEntry := { hostEntry bucketState 1 bucketKey 3 false 0 with created := 0 }

theorem witness_BucketCommandsComplete :
    (let d := indirect 0x10 64
     let b := bucketBlock 9
     let u := takenUp 0 d b bucketState
     drainOps (fun sl => sl == keyBucket u 1 bucketKey % 16) u = u ∧ extGate bucketState 1 = none ∧ tagPoisoned u 1 bucketKey = false ∧
       Runs 0 0x10 (gotBlock d b) d b bucketState ∧ blockDetail bucketState false b = none ∧ findPlace u 1 bucketKey = none ∧
       planInsert u 1 bucketKey = .inl firstWay) ∧
    (let d := indirect 0x12 64
     let b := bucketBlock 9
     let u := takenUp 0 d b (bucketHolds hostHas)
     drainOps (fun sl => sl == keyBucket u 1 bucketKey % 16) u = u ∧ tagPoisoned u 1 bucketKey = false ∧ Runs 0 0x12 (gotBlock d b) d b (bucketHolds hostHas) ∧
       blockDetail (bucketHolds hostHas) false b = none ∧ findPlace u 1 bucketKey = some firstWay ∧ entryAt? u firstWay = some hostHas ∧
       hostHas.sealed = false) ∧
    (let d := indirect 0x11 64
     let b := bucketBlock 0
     let u := takenUp 0 d b (bucketHolds hostHas)
     drainOps (fun sl => sl == keyBucket u 1 bucketKey % 16) u = u ∧ tagPoisoned u 1 bucketKey = false ∧ Runs 0 0x11 (gotBlock d b) d b (bucketHolds hostHas) ∧
       blockDetail (bucketHolds hostHas) true b = none ∧ findPlace u 1 bucketKey = some firstWay ∧ entryAt? u firstWay = some hostHas ∧
       hostHas.sealed = false ∧ tagBad u firstWay = false) ∧
    (let d := direct 0x20 [1#8, 7#8]
     let s := withEntries [(5, hostHas)] bucketState
     let u := drainOps (fun _ => true) (takenUp 0 d [] s)
     Runs 0 0x20 (got d) d [] s ∧ defDefined (tableDef u.dict.live 1) = true ∧ bits (u8 d 9) 7 3 = 0 ∧
       allZero d 10 2 = true ∧ bits (le d 12 4) 30 18 = 0 ∧ allZero d 16 48 = true ∧ extGate u 1 = none ∧
       (∀ e ∈ u.buckets.entries, isOverflow e.1 = false) ∧ (∀ e ∈ u.buckets.entries, e.1 < 0x100000)) := by
  have hb : ∀ d b, entryAt? (takenUp 0 d b (bucketHolds hostHas)) firstWay = some hostHas := fun d b => by
    simp [entryAt?, takenUp_buckets, SMap.find?]
  unfold Runs
  refine ⟨⟨by rfl, by decide +kernel, tag_readable _ _ _ (by decide +kernel), by decide +kernel, by decide +kernel, findPlace_empty _ _ _ (by decide +kernel) (by rfl), ?_⟩,
    ⟨by rfl, tag_readable _ _ _ (by decide +kernel), by decide +kernel, by decide +kernel, ?_, hb _ _, by rfl⟩,
    ⟨by rfl, tag_readable _ _ _ (by decide +kernel), by decide +kernel, by decide +kernel, ?_, hb _ _, by rfl, ?_⟩, ?_⟩
  · exact planInsert_first _ _ _ (by decide +kernel) (by rfl)
  · exact findPlace_first _ _ _ hostHas (by decide +kernel) (hb _ _) rfl rfl rfl
  · exact findPlace_first _ _ _ hostHas (by decide +kernel) (hb _ _) rfl rfl rfl
  · simp [tagBad, Nat.not_le.2 firstWay_lt]
  · decide +kernel

/-- The running device, with one command on ring 0 and the shadow ready. -/
abbrev resultState : State := withRing oneWaits (put [(O.shadowReady, 1)] running)

/-- With nothing under way and no cache in use, a line whose set has room stands still. -/
theorem still_rest (s : State) (line : Nat) (hq : Quiet s) (hc : s.coh.caches = []) (hr : (setOf s line).length + waysOff s line < 16) :
    Still s line := ⟨hq, fun _ => hr, fun a c h => by simp [cacheLine?, hc, SMap.find?] at h⟩

/-- A record with its Valid bit and DestSetId 5. -/
def aRecord : Nat := 2 ^ 118 + 5 * 2 ^ 100

theorem witness_ResultCommandsComplete :
    (∀ x ∈ [(0, 262143), (1, 16383)],
      let d := direct 0x18 ([BitVec.ofNat 8 x.1, 0#8, 0#8, 0#8] ++ leBytes 4 x.2 ++ leBytes 16 aRecord)
      Runs 0 0x18 (got d) d [] resultState ∧ u8 d 8 = x.1 ∧ u8 d 8 ≤ 1 ∧ allZero d 9 3 = true ∧ allZero d 32 32 = true ∧ le d 12 4 = x.2 ∧
        le d 12 4 < recordCount (u8 d 8) ∧ recordFormatOk (u8 d 8) (le d 16 16) = true ∧
        recSealed (readRecord (u8 d 8) (le d 12 4) resultState) = false ∧ resultState.val O.shadowReady ≠ 0) ∧
    (let d := direct 0x19 ([1#8, 1#8, 0xFF#8, 3#8] ++ leBytes 4 16382 ++ leBytes 2 2)
     Runs 0 0x19 (got d) d [] resultState ∧ u8 d 8 = 1 ∧ u8 d 9 ≤ 1 ∧ allZero d 18 46 = true ∧ le d 12 4 + le d 16 2 ≤ meterCount 1 ∧
       le d 10 2 ≤ 1023 ∧ 1 ≤ le d 16 2 ∧ le d 16 2 ≤ 4096 ∧ ∀ j < le d 16 2, meterSealed 1 (le d 12 4 + j) resultState = false) ∧
    (∀ x ∈ [0, 1],
      let d := direct 0x1A (leBytes 4 262143 ++ leBytes 4 1 ++ leBytes 8 4096 ++ leBytes 1 x)
      Runs 0 0x1A (got d) d [] resultState ∧ u8 d 24 = x ∧ u8 d 24 ≤ 1 ∧ allZero d 25 39 = true ∧ le d 16 8 % 16 = 0 ∧ le d 8 4 = 262143 ∧
        le d 12 4 = 1 ∧ le d 12 4 ≤ 65536 ∧ le d 8 4 + le d 12 4 ≤ 262144 ∧ (got d).dataOk = true) := by
  unfold Runs; refine ⟨?_, ?_, ?_⟩ <;> decide +kernel

/-- The lines of those two commands in the Reservoir stand still at home. -/
theorem witness_ResultCommandsComplete_still :
    Still resultState (lineOf 262143) ∧ AtHome resultState (lineOf (counterGranule 262143)) :=
  have h : ∀ line, (setOf resultState line).length + waysOff resultState line < 16 → Still resultState line :=
    fun line => still_rest _ line ⟨rfl, rfl, rfl, rfl, rfl⟩ rfl
  ⟨h _ (by decide +kernel), h _ (by decide +kernel), by decide +kernel⟩

/-- An image of one record of the Verdict Store, with index 16383. -/
def recordImage : Bytes := leBytes 4 16383 ++ zeros 4 ++ leBytes 16 aRecord ++ zeros 8

/-- Ring 0's Marionette owns bank 4, which holds that image. -/
def bulkState : State := writeImage 16 recordImage (put [(O.bankOwner 4, 1)] resultState)

/-- A bulk command on kind 5, table `t`, bank 4, of `n` bytes. -/
def bulkOperands (kind t n : Nat) : Bytes := leBytes 1 kind ++ [0#8] ++ leBytes 2 t ++ leBytes 4 16 ++ leBytes 4 n

/-- The Verdict Store holds one record. -/
def dumpState : State := { bulkState with results := { bulkState.results with verdict := [(7, aRecord)] } }

theorem witness_BulkCommandsComplete :
    (let d := direct 0x32 (bulkOperands 5 1 131072)
     bulkGate d dumpState = none ∧ bulkCheck (dumpState.obj (O.ringExecutor 0)) d dumpState = none ∧ Runs 0 0x32 (got d) d [] dumpState) ∧
    (let d := direct 0x31 (bulkOperands 5 1 32)
     bulkGate d bulkState = none ∧ bulkCheck (bulkState.obj (O.ringExecutor 0)) d bulkState = none ∧ Runs 0 0x31 (got d) d [] bulkState ∧
       readImage bulkState (blMask d) (blLength d) = some recordImage ∧ blKind d = 5 ∧ blTable d = 1 ∧ recordImage.length % 32 = 0 ∧
       (records 32 recordImage).all (recordImageOk 1) = true ∧ indicesDistinct (records 32 recordImage) = true ∧
       ∀ x ∈ records 32 recordImage, recSealed (readRecord 1 (le x 0 4) bulkState) = false) := by
  unfold Runs; refine ⟨?_, ?_⟩ <;> decide +kernel

theorem witness_BulkCommandsComplete_dump :
    let d := direct 0x32 (bulkOperands 5 1 131072)
    let img := leBytes 4 7 ++ zeros 4 ++ leBytes 16 aRecord ++ zeros 8
    dumpImage (blKind d) (blTable d) (dumpReads (blKind d) (blTable d) (takenUp 0 d [] dumpState)) = .inl img ∧ img.length ≤ blLength d := by
  refine ⟨?_, by decide +kernel⟩
  exact congrArg Sum.inl (by decide +kernel : dumpRecords 1 _ = _)

theorem witness_BulkCommandsComplete_load :
    let d := direct 0x31 (bulkOperands 5 1 32)
    let u := takenUp 0 d [] bulkState
    loadImage (blKind d) (blTable d) recordImage u =
      .done 0 1 ((records 32 recordImage).foldl (fun s b => writeRecord 1 (le b 0 4) (le b 8 16) s) u) := by
  have h1 : blKind (direct 0x31 (bulkOperands 5 1 32)) = 5 := by decide +kernel
  have h2 : blTable (direct 0x31 (bulkOperands 5 1 32)) = 1 := by decide +kernel
  simp only [h1, h2, loadImage, loadRecords]
  rw [if_neg (by decide +kernel), if_neg (by decide +kernel), if_neg (by decide +kernel)]
  exact congrArg (fun n => OpRes.done 0 n _) (by decide +kernel : (records 32 recordImage).length = 1)

/-! ### Headgate -/

/-- `s` with link 0 as given. -/
abbrev withLink (l : Link) (s : State) : State := { s with headgate := { s.headgate with links := l :: List.replicate 7 Link.off } }

/-- A link that is up, with 8 tokens of class B and no unit granted. -/
abbrev upLink : Link := { Link.off with state := 2, fresh := false, rxSeq := 4095, granted := [0, 8, 0] }

/-- A parcel with the framing and the CRC of R93. -/
def parcel (type seq ack : Nat) (body : Bytes) : Parcel :=
  let h := type * 2 ^ 52 + seq * 2 ^ 40 + ack * 2 ^ 28 + body.length / 8 * 2 ^ 20
  ⟨h, body, zeros 3, (crc32c (beBytes 7 h ++ body ++ zeros 3)).toNat, false⟩

/-- A Key Token of class `c` and tag 9 without payload, with an 8-byte snapshot. -/
def keyToken (c : Nat) : Bytes := beBytes 16 (0x10 * 2 ^ 120 + c * 2 ^ 118 + 9 * 2 ^ 90 + 8 * 2 ^ 37) ++ [1#8, 2#8, 3#8, 4#8, 5#8, 6#8, 7#8, 8#8]

theorem witness_ParcelsComplete :
    let s := withLink { upLink with unacked := [(5, [1#8]), (6, [2#8])] } running
    let p := parcel 0 0 6 []
    7 < 8 ∧ s.headgate.links.length = 8 ∧ linkUp (linkAt s 0) = true ∧
      framedWrongly { p with body := [0#8] } = true ∧
      (framedWrongly { p with crc := p.crc + 1 } = false ∧ crcGood { p with crc := p.crc + 1 } = false ∧ (linkAt s 0).nakked.2 = 0) ∧
      (framedWrongly p = false ∧ crcGood p = true ∧ phType p = 0 ∧ phNak p = false) ∧
      (∀ n ∈ [4094, 2048],
        let q := parcel 1 n 0 (keyToken 2)
        framedWrongly q = false ∧ crcGood q = true ∧ phType q = 1 ∧ phNak q = false ∧ 1 ≤ ((linkAt s 0).rxSeq + 4096 - phSeq q) % 4096 ∧
          ((linkAt s 0).rxSeq + 4096 - phSeq q) % 4096 ≤ 2047 ∧ phSeq q ≠ (linkAt s 0).rxSeq) := by
  decide +kernel

theorem witness_KeyTokenIsAccepted :
    let s := withLink upLink running
    let l := linkAt s 0
    let p := parcel 1 4095 0 (keyToken 2)
    let h := be p.body 0 16
    let c := ktClass h
    0 < 8 ∧ s.headgate.links.length = 8 ∧ linkUp l = true ∧ framedWrongly p = false ∧ crcGood p = true ∧ phType p = 1 ∧ phNak p = false ∧
    phSeq p = l.rxSeq ∧ u8 p.body 0 = 0x10 ∧ c ≠ 0 ∧ p.body.length = 16 + ceil8 (ktSnapshot h) ∧ ktSnapshot h ≤ 128 ∧
    awaiting s 0 c none = none ∧ l.used.getD (c - 1) 0 < l.granted.getD (c - 1) 0 ∧
    l.unitsUsed.getD (c - 1) 0 + unitsOf (ktPayload h) ≤ l.unitsGranted.getD (c - 1) 0 ∧ freeSlot s c = some 64 := by
  decide +kernel

theorem witness_LinksTrainAndTimeOut :
    (∀ l ∈ [{ Link.off with state := 1 }, { Link.off with state := 4, fresh := false }],
      let s := withLink l running
      0 < 8 ∧ s.headgate.links.length = 8 ∧ ((linkAt s 0).state = 1 ∨ (linkAt s 0).state = 4) ∧ bit s.modes.refLost 0 = false ∧
        s.power.core = true ∧ s.modes.halted = false) ∧
    (∀ l ∈ [{ upLink with unacked := [(5, [1#8])], resends := 7 }, { upLink with unacked := [(5, [1#8])], resends := 8, lost := 2 }, upLink],
      let s := withLink l running
      s.headgate.links.length = 8 ∧ linkUp (linkAt s 0) = true ∧ bit (linkAt s 0).lost 0 = false ∧ replayRoom (linkAt s 0) 16 = true) := by
  decide +kernel

theorem witness_SearchRunCompletes :
    (let x := search 0 1 .assigned
     let s := withSlots [x] running
     0 < 256 ∧ slotById s 0 = some x ∧ x.phase = .assigned ∧ (slotClass x == 1) = true ∧ pgSteps (slotProgram x) ≤ x.step ∧ x.cand = none) ∧
    (let x := search 255 2 .assigned
     let s := withSlots [x] running
     255 < 256 ∧ slotById s 255 = some x ∧ (slotClass x == 1) = false ∧ s.modes.quarantine % 256 ≠ 255 ∧ x.lateral < 8) ∧
    (let x := { search 64 3 .stepWait with lateral := 8, payState := .awaited }
     let s := withSlots [x] running
     slotById s 64 = some x ∧ x.phase = .stepWait ∧ (slotClass x == 1) = false ∧ s.modes.quarantine % 256 ≠ 255 ∧ chooseLateral s < 8 ∧
       pgSteps (slotProgram x) ≤ x.step ∧ x.cand = none ∧ x.payState = .awaited) ∧
    (let x := search 255 2 .assigned
     let s := withSlots [x] (inModes (fun m => { m with quarantine := 255 }) running)
     slotById s 255 = some x ∧ (slotClass x == 1) = false ∧ s.modes.quarantine % 256 = 255) := by
  decide +kernel

/-- An AES-CMAC profile: 4 bytes of MAC at the payload's start, no freshness. -/
abbrev cmacProfile : Bytes := [0x20#8, 4#8] ++ zeros 30

/-- A MAC operation under it. -/
abbrev macWork : MacWork := ⟨cmacProfile, 1, zeros 16, 0, 8⟩

theorem witness_SearchWaitsEnd :
    (let x := { search 64 2 .done with payState := .awaited, units := 1 }
     let s := withSlots [x] running
     7 < 8 ∧ 1 ≤ 2 ∧ 2 ≤ 3 ∧ awaiting s 0 2 (some 9) = some x ∧ x.phase ≠ .payloadWait ∧ awaiting s 7 3 (some 9) = none) ∧
    (let x := { search 64 2 .mac with payload := zeros 8, mac := some macWork }
     let s := withSlots [x] running
     64 < 256 ∧ slotById s 64 = some x ∧ x.phase = .mac ∧ x.mac = some macWork ∧ s.keys.closed = false ∧
       fieldPlaces cmacProfile x.payload.length = some (0, 0) ∧ apGenerate cmacProfile = false ∧ apN cmacProfile = 0 ∧
       macOver cmacProfile macWork.key (authenticData cmacProfile 0 0 x.payload) 0 ≠ slice x.payload 0 (apMacBytes cmacProfile)) ∧
    (slotById (withSlots [search 63 1 .chainWait] running) 63 = some (search 63 1 .chainWait) ∧ 63 < 64 ∧ slotClass (search 63 1 .chainWait) = 1) ∧
    (slotById (withSlots [search 255 3 .chainWait] running) 255 = some (search 255 3 .chainWait) ∧ 255 < 256 ∧
      slotClass (search 255 3 .chainWait) ≠ 1) := by
  refine ⟨?_, ?_, ?_, ?_⟩ <;> decide +kernel

theorem witness_ResultTokenIsSent :
    let x := search 64 2 .done
    let s := withLink upLink (withSlots [x] running)
    0 < 8 ∧ s.headgate.links.length = 8 ∧ 1 ≤ 2 ∧ 2 ≤ 3 ∧ slotsOf s 0 2 = x :: [] ∧ x.phase = .done ∧ linkUp (linkAt s 0) = true ∧
      x.verdict.ext = 0 ∧ replayRoom (linkAt s 0) (48 + 0) = true ∧ classAWaits s 0 = false := by
  decide +kernel

/-- The trie and the TCAM table answer a hit, a miss and, where a shadow does not prove its slot, a mismatch. -/
theorem witness_LookupsAnswerTheBestMatch :
    (trieLookup trieState.dict.live 0 2 (be (10#8 :: zeros 39) 0 40) trieState).1 = some 3 ∧
    (trieLookup trieState.dict.live 0 2 (be (11#8 :: zeros 39) 0 40) trieState).1 = none ∧
    (tcamLookup 1 5 false (5 * 2 ^ 184 + 0xAB * 2 ^ 176) tcamHolds).1 = .hit 8192 (tcamShadow 0xAB 3) ∧
    (tcamLookup 1 5 false (5 * 2 ^ 184 + 0xAC * 2 ^ 176) tcamHolds).1 = .miss ∧
    ∀ seen ∈ [[], [8192, 8192]],
      (tcamLookup 1 5 false (5 * 2 ^ 184 + 0xAB * 2 ^ 176) { tcamHolds with
        tcam := { tcamHolds.tcam with slots := [(8192, { slotOf (tcamShadow 0xAB 3) with shadow := tcamShadow 0xAC 3 })], mismatched := seen } }).1 =
      .mismatch := by
  refine ⟨?_, ?_, ?_, ?_, ?_⟩ <;> decide +kernel

/-! ### Counters, meters, learning and aging -/

/-- A Flume meter of profile 1, valid, last updated at 0. -/
abbrev oldMeter : Nat := mkMeter 1 true 0 0 0

/-- The state above with a meter profile of mode 1, long after. -/
abbrev meterState : State :=
  { put [(O.meterProfile 1, 64)] running with clock := { running.clock with wall := 2 ^ 42 }, results := { running.results with flumeMeters := [(5, oldMeter)] } }

/-- Table 1 ages, with entries in its bucket 0, the second of which has expired; the overflow store holds one more. -/
abbrev agingState : State :=
  withEntries [(0, { hostHas with timestamp := 4 }), (1, { hostHas with key := 5, timestamp := 0 })]
    (put [(O.agingDefinition 1, 2 ^ 63 + 20 * 2 ^ 54 + 3 * 2 ^ 32)] { bucketState with clock := { running.clock with wall := 4 * 2 ^ 20 * 1000 } })

theorem witness_CountersMetersAndSweepsComplete :
    (let s : State := { running with results := { running.results with posted := [(262143, 2, 128)] } }
     let home := sliceOf (lineOf (counterGranule 262143))
     home < 16 ∧ s.results.posted.find? (fun p => sliceOf (lineOf (counterGranule p.1)) == home) = some (262143, 2, 128) ∧ s.val O.domainState = 0 ∧
       poisoned s (counterGranule 262143) = false ∧
       poisoned { s with coh := { s.coh with poison := [(2 * counterGranule 262143, true)] } } (counterGranule 262143) = true ∧
       running.results.posted.find? (fun p => sliceOf (lineOf (counterGranule p.1)) == 0) = none) ∧
    (let s := meterState
     let v := readMeter (b2n true) 5 s
     SMap.get false s.results.bad (2 ^ 21 + 5) = false ∧ SMap.get false [(2 ^ 21 + 5, true)] (2 ^ 21 + 5) = true ∧
     5 < meterCount (b2n true) ∧ s.power.core = true ∧ meterValid v = true ∧ profMode (meterProfileIn s.dict.live (meterProfileId v)) ≠ 0 ∧
       2 ^ 42 ≤ (elapsed s + 2 ^ 44 - bits v 115 72) % 2 ^ 44) ∧
    (let s := { meterState with coh := { meterState.coh with home := [(meterGranule 131071, oldMeter)] } }
     let v := readMeter (b2n false) 131071 s
     131071 < meterCount (b2n false) ∧ meterValid v = true ∧ profMode (meterProfileIn s.dict.live (meterProfileId v)) ≠ 0 ∧
       2 ^ 42 ≤ (elapsed s + 2 ^ 44 - bits v 115 72) % 2 ^ 44 ∧ s.val O.domainState = 0 ∧
       meterPoisoned false 131071 (reachMeter false 131071 s) = false ∧
       (let s := { s with coh := { s.coh with poison := [(2 * meterGranule 131071, true)] } }
        meterPoisoned false 131071 (reachMeter false 131071 s) = true)) ∧
    (let s := agingState
     let d := tableDef s.dict.live 1
     let sw := (SMap.find? s.buckets.sweeps 1).getD ⟨0, tickNow s 1, false⟩
     1 < 64 ∧ sweepRuns 1 s = true ∧ sw.pos < 2 ^ defLog2 d ∧ (∀ i < 16, sliceLength s i ≤ 60) ∧
       entryAt? s (bucketPlace (defExt d) (regionBase 1 s) + 4 * sw.pos + 1) = some { hostHas with key := 5, timestamp := 0 } ∧
       hostHas.table = 1 ∧ hostHas.static = false ∧ hostHas.sealed = false ∧
       ageTicks (agingDef s.dict.live 1) ≤ (tickNow s 1 + 65536 - 0) % 65536 ∧
       flapWindow (learnDef s.dict.live 1) ≤ (tickNow s 1 + 65536 - hostHas.flapStart) % 65536) := by
  refine ⟨?_, ?_, ?_, ?_⟩ <;> decide +kernel

theorem witness_CountersMetersAndSweepsComplete_still :
    let s : State := { running with results := { running.results with posted := [(262143, 2, 128)] } }
    Still s (lineOf (counterGranule 262143)) := still_rest _ _ ⟨rfl, rfl, rfl, rfl, rfl⟩ rfl (by decide +kernel)

/-- `s` with one operation queued, at slice 15. -/
abbrev queued (op : SliceOp) (s : State) : State := { s with buckets := { s.buckets with queue := [(15, op)] } }

/-- The hypotheses that the operations of slice 15 have in common. -/
abbrev atHead (op : SliceOp) (s : State) : Prop :=
  15 < 16 ∧ s.buckets.queue.find? (fun x => x.1 == 15) = some (15, op) ∧ s.power.core = true ∧ opNeedsHome s op = false

/-- The learned entry of the key. -/
abbrev learnedHas : BucketEntry := { hostHas with learned := true }

theorem witness_LearnsAndRefreshesComplete :
    let op := SliceOp.learn 1 bucketKey 9 2
    (let u := { queued op bucketState with buckets := bucketState.buckets }
     atHead op (queued op bucketState) ∧ tagPoisoned u 1 bucketKey = false ∧ findPlace u 1 bucketKey = none ∧
       (queued op bucketState).val (O.learnLimit 1) = 0 ∧ planInsert u 1 bucketKey = .inl firstWay) ∧
    (atHead op (queued op (bucketHolds learnedHas)) ∧ findPlace (bucketHolds learnedHas) 1 bucketKey = some firstWay ∧
      entryAt? (bucketHolds learnedHas) firstWay = some learnedHas ∧ learnedHas.record ≠ 9) ∧
    (findPlace (bucketHolds hostHas) 1 bucketKey = some firstWay ∧ entryAt? (bucketHolds hostHas) firstWay = some hostHas ∧ hostHas.learned = false) ∧
    (let op := SliceOp.refresh 1 bucketKey
     atHead op (queued op (bucketHolds hostHas)) ∧ agingOn (agingDef bucketState.dict.live 1) = false ∧
       (let s := put [(O.agingDefinition 1, 2 ^ 63 + 20 * 2 ^ 54 + 3 * 2 ^ 32)] (bucketHolds hostHas)
        atHead op (queued op s) ∧ agingOn (agingDef s.dict.live 1) = true ∧ findPlace s 1 bucketKey = some firstWay ∧
          entryAt? s firstWay = some hostHas) ∧
       atHead op (queued op bucketState) ∧ findPlace bucketState 1 bucketKey = none) := by
  have hb : ∀ e, entryAt? (bucketHolds e) firstWay = some e := fun d => by simp [entryAt?, SMap.find?]
  unfold atHead
  refine ⟨⟨by decide +kernel, by rfl, findPlace_empty _ _ _ (by decide +kernel) (by rfl), by decide +kernel, ?_⟩,
    ⟨by decide +kernel, ?_, hb _, by decide⟩, ⟨?_, hb _, by decide⟩,
    ⟨by decide +kernel, by decide +kernel, ⟨by decide +kernel, by decide +kernel, ?_, hb _⟩, by decide +kernel,
      findPlace_empty _ _ _ (by decide +kernel) (by rfl)⟩⟩
  · exact planInsert_first _ _ _ (by decide +kernel) (by rfl)
  · exact findPlace_first _ _ _ learnedHas (by decide +kernel) (hb _) rfl rfl rfl
  · exact findPlace_first _ _ _ hostHas (by decide +kernel) (hb _) rfl rfl rfl
  · exact findPlace_first _ _ _ hostHas (by decide +kernel) (hb _) rfl rfl rfl

/-- A full bucket of a table without overflow entries takes no learn. -/
theorem witness_LearnsAndRefreshesComplete_full :
    let d := tableDef bucketState.dict.live 1 - 16 * 2 ^ 16
    let s := put [(O.bucketTableDefinition 1, d)] bucketState
    let u := withEntries ((List.range 4).map fun w => (bucketPlace false (keyBucket s 1 bucketKey) + w, { hostHas with key := w })) s
    planInsert u 1 bucketKey = .inr 0x2604 := by
  intro d s u
  have h : ∀ w, w < 4 → placeFree u (bucketPlace false (keyBucket s 1 bucketKey) + w) = false := by
    intro w hw
    have : w = 0 ∨ w = 1 ∨ w = 2 ∨ w = 3 := by omega
    rcases this with rfl | rfl | rfl | rfl <;> simp [placeFree, u, SMap.find?, show List.range 4 = [0, 1, 2, 3] from rfl]
  have hx : defExt (tableDef u.dict.live 1) = false := by decide +kernel
  have ho : defOverflow (tableDef u.dict.live 1) = 0 := by decide +kernel
  have hk : bucketOf (tableDef u.dict.live 1) (regionBase 1 u) (hashOf u 1 false bucketKey) = keyBucket s 1 bucketKey := by
    have : defExt (tableDef s.dict.live 1) = false := hx
    simp only [keyBucket, this]
    rfl
  have e : (List.range 4).find? (fun w => placeFree u (bucketPlace false (keyBucket s 1 bucketKey) + w)) = none := by
    rw [List.find?_eq_none]
    intro w hw
    simp [h w (List.mem_range.mp hw)]
  simp [planInsert, hx, ho, hk, e]

theorem witness_AgingDeleteIsACompareAndDelete :
    let op := SliceOp.ageDelete 1 bucketKey 0
    (atHead op (queued op (bucketHolds hostHas)) ∧ tagPoisoned (bucketHolds hostHas) 1 bucketKey = false ∧
      findPlace (bucketHolds hostHas) 1 bucketKey = some firstWay ∧ entryAt? (bucketHolds hostHas) firstWay = some hostHas ∧
      tagBad (bucketHolds hostHas) firstWay = false ∧ hostHas.static = false ∧ hostHas.sealed = false ∧ hostHas.timestamp = 0) ∧
    (let e := { hostHas with timestamp := 1 }
     findPlace (bucketHolds e) 1 bucketKey = some firstWay ∧ entryAt? (bucketHolds e) firstWay = some e ∧ e.timestamp ≠ 0) ∧
    (atHead op (queued op bucketState) ∧ findPlace bucketState 1 bucketKey = none) := by
  have hb : ∀ e, entryAt? (bucketHolds e) firstWay = some e := fun d => by simp [entryAt?, SMap.find?]
  unfold atHead
  refine ⟨⟨by decide +kernel, by rfl, ?_, hb _, by simp [tagBad, Nat.not_le.2 firstWay_lt], by decide, by decide, by decide +kernel⟩, ⟨?_, hb _, by decide⟩,
    ⟨by decide +kernel, findPlace_empty _ _ _ (by decide +kernel) (by rfl)⟩⟩
  · exact findPlace_first _ _ _ hostHas (by decide +kernel) (hb _) rfl rfl rfl
  · exact findPlace_first _ _ _ _ (by decide +kernel) (hb _) rfl rfl rfl

/-! ### The pair and the chain -/

/-- Whether an operation is done with this status and Result. -/
def doneAs (st x : Nat) : OpRes → Bool
  | .done a b _ => a == st && b == x
  | _ => false

theorem exists_done {st x : Nat} {o : OpRes} (h : doneAs st x o = true) : ∃ v, o = .done st x v := by
  cases o <;> simp_all [doneAs]

/-- Whether an operation fails with this status and detail. -/
def failsAs (st d : Nat) : OpRes → Bool
  | .fail a b _ => a == st && b == d
  | _ => false

theorem exists_fail {st d : Nat} {o : OpRes} (h : failsAs st d o = true) : ∃ v, o = .fail st d v := by
  cases o <;> simp_all [failsAs]

/-- A HELLO of the peer, with pair `i`, of version `v`, with this digest. -/
abbrev helloOf (i v digest : Nat) : Hello := ⟨2, v, i, 0, 77, 0, digest⟩

/-- Pairing as pair 6. -/
abbrev pairing : State := put [(O.pairState, 1), (O.pairId, 6), (O.culvertLinkState, 2)] running

/-- What the digest of the configuration is compared with once the peer's UID has come. -/
abbrev metPeer (n : Nat) : State := onPair (fun p => { p with peerDigest := some n }) (pairing.put O.peerUid (leNat (beBytes 16 77)))

/-- A digest is of the configuration alone. -/
theorem digest_onPair (f : Pair → Pair) (s : State) : pairConfigDigest (onPair f s) = pairConfigDigest s := by
  have h : digestItem (onPair f s) = digestItem s := by funext k; rfl
  unfold pairConfigDigest
  rw [h]

/-- There is a digest that the peer's is when the configurations agree, and another that it is not. -/
theorem digest_meets (f : Nat → Pair → Pair) (s : State) :
    ∃ n, n = beNat (pairConfigDigest (onPair (f n) s)) ∧ n + 1 ≠ beNat (pairConfigDigest (onPair (f (n + 1)) s)) := by
  simp only [digest_onPair]
  generalize beNat (pairConfigDigest s) = m
  exact ⟨m, rfl, Nat.succ_ne_self m⟩

/-- Paired in role `r`. -/
abbrev paired (r : Nat) : State := put [(O.pairState, 2), (O.pairRole, r), (O.culvertLinkState, 2)] running

theorem witness_PairingCompletes :
    (pairState pairing = 1 ∧ (helloOf 7 1 0).pairId ≠ pairing.val O.pairId ∧ (helloOf 6 2 0).pairId = pairing.val O.pairId ∧
      (helloOf 6 2 0).version ≠ 1 ∧ (helloOf 6 1 0).build = beNat (fit 32 pairing.modes.fwBuild)) ∧
    (∃ n, n = beNat (pairConfigDigest (metPeer n)) ∧ n + 1 ≠ beNat (pairConfigDigest (metPeer (n + 1)))) ∧
    (let u := fun n => onPair (fun p => { p with peerDigest := some n }) (paired 2)
     pairState (paired 2) = 2 ∧ ∃ n, n = beNat (pairConfigDigest (u n)) ∧ n + 1 ≠ beNat (pairConfigDigest (u (n + 1)))) ∧
    (let s := put [(O.pairState, 4)] running
     let u := fun n => onPair (fun p => { p with peerDigest := some n }) s
     pairState s = 4 ∧ ∃ n, n = beNat (pairConfigDigest (u n)) ∧ n + 1 ≠ beNat (pairConfigDigest (u (n + 1)))) ∧
    pairState running = 0 ∧
    (let s := fun n => onPair (fun p => { p with peerDigest := some n, grace := 1 }) (paired 2)
     (s 0).pair.grace ≠ 0 ∧ pairState (s 0) = 2 ∧ (∀ n, (s n).pair.peerDigest = some n) ∧
       ∃ n, n = beNat (pairConfigDigest (s n)) ∧ n + 1 ≠ beNat (pairConfigDigest (s (n + 1)))) := by
  exact ⟨by decide +kernel, digest_meets (fun n p => { p with peerDigest := some n }) _, ⟨by decide +kernel, digest_meets (fun n p => { p with peerDigest := some n }) _⟩,
    ⟨by decide +kernel, digest_meets (fun n p => { p with peerDigest := some n }) _⟩, by decide +kernel,
    ⟨by decide +kernel, by decide +kernel, fun _ => rfl, digest_meets (fun n p => { p with peerDigest := some n, grace := 1 }) _⟩⟩

theorem witness_PairTimersAndTimeComplete :
    (pairState pairing = 1 ∧ culvertUp pairing = true) ∧ (pairedAs 1 (paired 1) = true ∧ culvertUp (paired 1) = true) ∧
    (let s := onPair (fun p => { p with doneSeq := 3, digests := [(3, [])] }) (paired 1)
     pairedAs 1 s = true ∧ s.pair.digests.find? (fun x => x.1 == s.pair.doneSeq) = some (3, [])) ∧
    (paired 1).val O.culvertLinkState ≠ 0 ∧
    (let s := put [(O.culvertLinkState, 4), (O.pairState, 3)] running
     s.power.core = true ∧ s.val O.culvertLinkState ≠ 0 ∧ culvertUp s = false ∧ s.modes.halted = false ∧ bit s.modes.refLost 1 = false) ∧
    (pairedAs 2 (paired 2) = true ∧ 100000 < (timeOffsetOf 0 300000 300000 0).natAbs ∧ (timeOffsetOf 0 300 300 1).natAbs < 500 ∧
      1000 < (timeOffsetOf 0 3000 3000 1).natAbs ∧ (timeOffsetOf 0 3000 3000 1).natAbs ≤ 100000) := by
  decide +kernel

/-- A direct RESULT_WRITE of the Verdict Store's record 5. -/
abbrev writeDesc : Bytes := direct 0x18 ([1#8, 0#8, 0#8, 0#8] ++ leBytes 4 5 ++ leBytes 16 aRecord)

/-- A paired primary whose ring 0 waits on PairSeq 5. -/
abbrev forwarding (w : Waiting) : State := withRing { oneWaits with desc := writeDesc, waiting := some w } (put [(O.shadowReady, 1)] (paired 1))

theorem witness_ForwardedCommandsComplete :
    (Sound (forwarding (.vote 5)) ∧ (ringAt (forwarding (.vote 5)) 0).disabling = 0 ∧ ringVoting (forwarding (.vote 5)) 5 = some 0 ∧
      ringPaused (unhold 5 (forwarding (.vote 5))) 0 = false ∧
      effectHeld writeDesc [] (unhold 5 (forwarding (.vote 5))) = false) ∧
    (let u := unhold 5 (forwarding (.vote 5))
     ∃ v, ringOp (u.obj (O.ringExecutor 0)) true (ringAt u 0).desc (ringAt u 0).block u = .done 0 0 v) ∧
    (let s := forwarding (.done 5 0 0 0)
     5 ≠ 0 ∧ Sound s ∧ ringDoing s 5 = some 0 ∧ (ringAt s 0).waiting = some (.done 5 0 0 0) ∧ s.val O.domainState = 0 ∧ s.modes.halted = false) := by
  refine ⟨?_, exists_done (by decide +kernel), ?_⟩ <;> unfold Sound legalMode legalNmt <;> decide +kernel

/-- A paired secondary, with the shadow ready. -/
abbrev secondary : State := put [(O.shadowReady, 1)] (paired 2)

/-- The command of PairSeq 5 prepared there. -/
abbrev prepared : Prepared := ⟨5, writeDesc, [], [3, 2 ^ 21 + 4], none, true, false⟩

theorem witness_HeldCommandsComplete :
    (let p : Prepared := ⟨5, writeDesc, [], [], none, false, false⟩
     let u := onPair (fun x => { x with seq := 5 }) (hold p secondary)
     fit 64 writeDesc = writeDesc ∧ pairedAs 2 secondary = true ∧ secondary.pair.seq < 5 ∧ 5 < 2 ^ 64 ∧ secondary.val O.domainState = 0 ∧
       secondary.modes.halted = false ∧ dsOpcode p.desc ≠ 0x31 ∧ wakesDrowse p.desc [] secondary = false ∧ culvertUp secondary = true ∧
       ∃ v, peerOp p u = .done 0 0 v) ∧
    (let d := direct 0x30 []
     let p : Prepared := ⟨5, d, [], [], none, false, false⟩
     let u := onPair (fun x => { x with seq := 5 }) (hold p secondary)
     fit 64 d = d ∧ dsOpcode d ≠ 0x31 ∧ wakesDrowse d [] secondary = false ∧ ∃ v, peerOp p u = .fail 0x14 0x2111 v) ∧
    (let s := onPair (fun x => { x with held := [prepared] }) secondary
     let q := { prepared with committed := true }
     let u := onPair (fun x => { x with held := x.held.map fun y => if y.seq = 5 then q else y }) s
     heldAt s 5 = some prepared ∧ pairedAs 2 s = true ∧ prepared.voted = true ∧ prepared.committed = false ∧ s.val O.pairRole = 2 ∧
       s.val O.domainState = 0 ∧ s.modes.halted = false ∧ effectHeld prepared.desc prepared.block u = false ∧
       (commandRegions prepared.desc prepared.block u).any (regionBusy u) = false ∧
       ∃ v, peerOp q (freeHeld q u) = .done 0 0 v) ∧
    (let p : Prepared := ⟨5, direct 0x31 (bulkOperands 5 1 32), [], [], none, false, false⟩
     let s := onPair (fun x => { x with held := [p] }) secondary
     heldAt s 5 = some p ∧ pairedAs 2 s = true ∧ p.voted = false ∧ [1#8].length ≤ 496 ∧ 0 ≤ 4194304 ∧ p.seq = 5 ∧ dsOpcode p.desc = 0x31 ∧
       s.val O.lpddrState ≠ 4 ∧ (landAt 0 [1#8] (((s.pair.images.find? fun i => i.1 == 5).map (·.2)).getD [])).length < blLength p.desc) := by
  refine ⟨?_, ?_, ?_, ?_⟩
  · exact ⟨by decide +kernel, by decide +kernel, by decide +kernel, by decide, by decide +kernel, by decide +kernel, by decide +kernel,
      by decide +kernel, by decide +kernel, exists_done (by decide +kernel)⟩
  · exact ⟨by decide +kernel, by decide +kernel, by decide +kernel, exists_fail (by decide +kernel)⟩
  · exact ⟨by decide +kernel, by decide +kernel, by decide +kernel, by decide +kernel, by decide +kernel, by decide +kernel, by decide +kernel,
      by decide +kernel, by decide +kernel, exists_done (by decide +kernel)⟩
  · decide +kernel

/-- A secondary that resyncs region `r`, with this image landed. -/
abbrev resyncing (r : Nat) (data : Bytes) : State :=
  onPair (fun p => { p with resyncs := [r], incoming := [⟨r, data, none⟩] }) secondary

/-- The end of its image is served. -/
abbrev endServed (r : Nat) (s : State) : Prop :=
  pairedAs 2 s = true ∧ s.pair.resyncs.contains r = true ∧ s.val O.domainState = 0 ∧ s.modes.halted = false ∧ s.val O.lpddrState ≠ 4 ∧
    s.val O.shadowReady ≠ 0 ∧ regionSleeps s r = false ∧ regionBusy s r = false ∧ tableMarked s r = false

theorem witness_ResyncAndCompareComplete :
    (pairedAs 1 (paired 1) = true ∧ (allRegions (paired 1)).contains 0x4000 = true ∧ (paired 1).val O.lpddrState ≠ 4) ∧
    (let s := onPair (fun p => { p with resyncs := [0x4000] }) secondary
     pairedAs 2 s = true ∧ s.pair.resyncs.contains 0x4000 = true ∧ [1#8].length ≤ 504 ∧ 0 < 2 ^ 32) ∧
    (endServed 0x4000 (resyncing 0x4000 [1#8]) ∧ [1#8].length ≠ 2 ∧ [1#8].length = 1 ∧ 4 ≤ 0x4000 / 4096) ∧
    (endServed 0x5000 (resyncing 0x5000 recordImage) ∧ recordImage.length = 32 ∧ indicesDistinct (records 32 recordImage) = true) ∧
    (∃ v, applyRegion 0x5000 recordImage (resyncing 0x5000 recordImage) = .done 0 0 v) ∧
    (let s := onPair (fun p => { p with resyncs := [0x4000] }) (paired 1)
     pairedAs 1 s = true ∧ s.pair.resyncs.contains 0x4000 = true) ∧
    (let s := onPair (fun p => { p with digests := [(3, [])] }) secondary
     pairedAs 2 s = true ∧ s.pair.digests.find? (fun x => decide (x.1 ≤ 5)) = some (3, []) ∧ (allRegions s).contains 0x4000 = true ∧
       s.val O.lpddrState ≠ 4 ∧ s.pair.resyncs.contains 0x4000 = false ∧ SMap.get 0 [] 0x4000 ≠ 1 ∧ SMap.get 0 [] 0x4000 = 0) := by
  refine ⟨?_, ?_, ?_, ?_, exists_done (by decide +kernel), ?_, ?_⟩ <;> decide +kernel

/-- Own and peer's results of link 7 that wait, these instants old. -/
abbrev comparing (own peer : List PairResult) : State := onPair (fun p => { p with ownResults := own, peerResults := peer }) secondary

theorem witness_ResyncAndCompareComplete_compare :
    let mine : Nat → PairResult → Bool := fun d r => r.link == 7 && digestTag r.digest == digestTag d && !r.flag
    let s := comparing [⟨7, 5, 1, false⟩] [⟨7, 5, 2, true⟩]
    7 < 8 ∧ pairedAs 2 s = true ∧ compareSuspended s = false ∧ s.pair.ownResults.find? (mine 5) = some ⟨7, 5, 1, false⟩ ∧
      (comparing [⟨7, 5, 1, true⟩] []).pair.ownResults.find? (mine 5) = none ∧
      s.pair.ownResults.find? (fun r => r.link == 7 && !r.flag) = some ⟨7, 5, 1, false⟩ ∧
      s.pair.peerResults.find? (fun r => r.link == 7) = some ⟨7, 5, 2, true⟩ ∧ 1 ≤ 2 ∧
      (comparing [⟨7, 5, 3, false⟩] [⟨7, 5, 2, true⟩]).pair.peerResults.find? (fun r => r.link == 7) = some ⟨7, 5, 2, true⟩ ∧ 2 < 3 ∧
      s.pair.ownResults.find? (fun r => r.link == 0 && !r.flag) = none ∧ s.pair.peerResults.find? (fun r => r.link == 0) = none := by
  decide +kernel

/-- A chain member at position `p`, its ring up; the head for 0. -/
abbrev inChain (p : Nat) : State :=
  { running with power := { running.power with strapChain := p }, chain := { Chain.off with up := true } }

/-- A LOOKUP with this ticket. -/
abbrev lookupOf (t : Nat) : LookupMsg := ⟨t, 2, 0, false, false, 0, 5, 0, 0, 0⟩

theorem witness_ChainDiscoveryAndLookupComplete :
    (running.power.core = true ∧ running.chain.up = false ∧ running.modes.halted = false ∧ bit running.modes.refLost 2 = false) ∧
    (member (inChain 3) = true ∧ headUp (inChain 0) = true ∧ 1 ≠ position (inChain 3) ∧ 1 ≠ 0) ∧
    (let s := withSlots [{ search 64 2 .chainWait with ticket := 9 }] (inChain 0)
     headUp s = true ∧ (∀ x ∈ s.headgate.slots, x.phase = .chainWait → x.ticket ≠ (lookupOf 8).ticket) ∧
       s.headgate.slots.find? (fun x => x.phase == .chainWait && x.ticket == (lookupOf 9).ticket) =
         some { search 64 2 .chainWait with ticket := 9 }) := by
  refine ⟨?_, ?_, ?_⟩ <;> decide +kernel

theorem witness_ChainWritesComplete :
    (3 < 4 ∧ 8191 < 8192 ∧ member (inChain 3) = true ∧ 3 = position (inChain 3) ∧ 1 ≠ position (inChain 3)) ∧
    (let s := withRing { oneWaits with waiting := some (.chain ⟨[(32768 * 1 + slotKey 3 8191, some Shadow.zero)], [], [], [], [], [97], some 0, [], [], []⟩ 7 0) } (inChain 0)
     headUp s = true ∧ writesStopped s = false ∧ 0 < 8 ∧
       (ringAt s 0).waiting = some (.chain ⟨[(32768 * 1 + slotKey 3 8191, some Shadow.zero)], [], [], [], [], [97], some 0, [], [], []⟩ 7 0) ∧
       ∀ j < 8, j ≠ 0 → (ringAt s j).waiting = none) ∧
    (let s := withSlots [search 64 2 .chainWait, search 65 2 .done] (inChain 0)
     s.power.core = true ∧ s.chain.up = true ∧ (s.headgate.slots.map (·.id)).Nodup ∧ s.host.rings.length = 8) := by
  refine ⟨?_, ?_, ?_⟩ <;> decide +kernel

/-! ### The coherent domain -/

/-- `s` with this coherent domain. -/
abbrev withCoh (c : Coherence) (s : State) : State := { s with coh := c }

/-- An agent's settled copy of a line. -/
abbrev copyOf (st : LineState) (hold : Bool) (snoop : Option (Nat × Nat)) : CacheLine := ⟨st, [1, 2, 3, 4], 0, false, none, hold, snoop⟩

/-- A directory entry with an owner. -/
abbrev owned (a : Nat) : DirEntry := ⟨true, a, [], false, 0⟩

/-- A request of `src`. -/
abbrev reqOf (kind : ReqKind) (src line : Nat) : Req := ⟨kind, src, line, 15, [], 0, none, false, false⟩

/-- An open transaction of `src` that awaits agent 8. -/
abbrev txnOf (kind : ReqKind) (src line : Nat) : Txn := ⟨reqOf kind src line, [8], false, false, none, []⟩

/-- What a message of this kind carries. -/
abbrev payloadOf : MsgKind → List Nat
  | .wbd | .dataFwd | .dataH | .rspFwdData | .rspData | .rdRsp => [5, 6, 7, 8]
  | _ => []

/-- A message on a line of home slice 0. -/
abbrev msgOf (kind : MsgKind) (src dst line : Nat) : Msg := ⟨kind, src, dst, line, 9, payloadOf kind, 0⟩

/-- The line of the tests, which Marionettes may cache: home slice 0. -/
abbrev aLine : Nat := 0x34000

/-- Its home. -/
abbrev aHome : Nat := 0x40

theorem witness_RequestsAreServedAtHome :
    (∀ x ∈ [(0, 0), (7, 0x33FFF), (11, 0x37FFF), (12, 0x20000), (14, 0x34000)],
      let s := running
      x.2 < reservoirLines ∧ domainRuns s = true ∧ s.coh.illegal = none ∧ s.coh.queues = [] ∧ lineOpen s x.2 = false ∧
        lineBusy s x.2 = false ∧ (oldestOf s x.1 (homeUnit x.2) 0).isNone = true ∧ admitted s (sliceOf x.2) + (tickets s (sliceOf x.2)).length < 8 ∧ agentUp s x.1 = true ∧ mayCache x.1 x.2 = true ∧
        cacheLine? s x.1 x.2 = none ∧ (s.coh.caches.filter fun e => e.1 / 262144 == x.1).length < cacheLines x.1 ∧ dirOf s x.2 = none ∧
        (setOf s x.2).length + waysOff s x.2 < 16) ∧
    (let s := withCoh { Coherence.off with dir := [(aLine, owned 9)], caches := [(cacheKey 9 aLine, copyOf .m false none)] } running
     domainRuns s = true ∧ s.coh.queues = [] ∧ lineOpen s aLine = false ∧ agentUp s 8 = true ∧ mayCache 8 aLine = true ∧
       cacheLine? s 8 aLine = none ∧ (s.coh.caches.filter fun e => e.1 / 262144 == 8).length < cacheLines 8 ∧
       dirOf s aLine = some (owned 9) ∧ (owned 9).dx = true) ∧
    (let d : DirEntry := ⟨false, 0, [8], false, 0⟩
     let s := withCoh { Coherence.off with dir := [(aLine, d)], caches := [(cacheKey 8 aLine, copyOf .s false none)] } running
     agentUp s 8 = true ∧ cacheLine? s 8 aLine = some (copyOf .s false none) ∧ (copyOf .s false none).st = .s ∧ dirOf s aLine = some d ∧ d.dx = false ∧ d.sharers = [8] ∧
       d.bcast = false) ∧
    (let s := withCoh { Coherence.off with dir := [(aLine, owned 8)], caches := [(cacheKey 8 aLine, copyOf .e false none)] } running
     cacheLine? s 8 aLine = some (copyOf .e false none) ∧ (copyOf .e false none).st = .e) ∧
    (∀ x ∈ [(16, 0, 3), (63, 0x37FFF, 7), (8, 0x38000, 0), (11, 0x33FFF, 7)],
      let s := withCoh { Coherence.off with poison := [(granuleWord x.2.1 x.2.2, true)] } running
      homeRequester x.1 x.2.1 = true ∧ x.1 < 64 ∧ x.1 ≠ 15 ∧ x.2.2 < granuleCount x.2.1 ∧ dirOf running x.2.1 = none ∧
        wordPoisoned running (granuleWord x.2.1 x.2.2) = false ∧ wordPoisoned s (granuleWord x.2.1 x.2.2) = true) ∧
    (let q : Req := ⟨.rdh, 63, 16, 15 % 2 ^ granuleCount 16, [], 0, none, false, false⟩
     let full := withCoh { Coherence.off with nacked := (List.range 8).map fun i => (i, reqOf .rdh i 0) } running
     let one := withCoh { Coherence.off with nacked := [(3, q)] } running
     let two := withCoh { Coherence.off with nacked := [(2, reqOf .rdh 1 0), (3, q)] } running
     homeRequester 63 16 = true ∧ 16 < reservoirLines ∧ domainRuns full = true ∧ (oldestOf full 63 (homeUnit 16) 0).isNone = true ∧ 8 ≤ admitted full 0 + (tickets full 0).length ∧
       one.coh.nacked.find? (fun x => x.2.src == 63 && x.2.line == 16) = some (3, q) ∧ one.coh.net = [] ∧
       (oldestOf one 63 (homeUnit 16) 0).isNone = true ∧ (∀ x ∈ tickets one 0, 3 ≤ x.1) ∧ admitted one 0 < 8 ∧ one.coh.queues = [] ∧ lineOpen one 16 = false ∧ dirOf one 16 = none ∧
       (setOf one 16).length + waysOff one 16 < 16 ∧ two.coh.net = [] ∧ (oldestOf two 63 (homeUnit 16) 0).isNone = true ∧
       two.coh.nacked.find? (fun x => x.2.src == 63 && x.2.line == 16) = some (3, q) ∧ ∃ x ∈ tickets two 0, x.1 < 3) ∧
    (let m : Msg := ⟨.nack 3, aHome, 63, 16, 0, [], 0⟩
     Oldest m (withCoh { Coherence.off with net := [m] } running)) := by
  unfold Oldest; refine ⟨?_, ?_, ?_, ?_, ?_, ?_, ?_⟩ <;> decide +kernel

/-- Agent 8 has this copy of the line, the directory this entry, and these messages are on their way. -/
abbrev lineIn (c : CacheLine) (d : DirEntry) (net : List Msg) : State :=
  withCoh { Coherence.off with dir := [(aLine, d)], caches := [(cacheKey 8 aLine, c)], net := net } running

theorem witness_EvictionsAndAnswersArrive :
    (8 < 15 ∧ aLine < reservoirLines ∧ domainRuns running = true ∧ running.coh.illegal = none ∧ arrayLost 0 = false ∧ arrayLost 0xFF = false) ∧
    (∀ st ∈ [LineState.m, .e, .s], ∀ h ∈ [true, false],
      cacheLine? (lineIn (copyOf st h none) (owned 8) []) 8 aLine = some (copyOf st h none)) ∧
    (∀ st ∈ [LineState.e, .s], cacheLine? (withCoh { Coherence.off with caches := [(cacheKey 14 aLine, copyOf st false none)] } running) 14 aLine =
      some (copyOf st false none) ∧ 12 ≤ 14) ∧
    (∀ k ∈ [MsgKind.wbd, .evc], let m := msgOf k 8 aHome aLine
      let s := lineIn (copyOf .ie false none) (owned 8) [m]
      Oldest m s ∧ s.coh.queues = [] ∧ lineOpen s aLine = false ∧ dirOf s aLine = some (owned 8) ∧ s.coh.crossing = [] ∧ (k = .wbd → m.data ≠ []) ∧
        (∀ y ∈ s.coh.net.erase m, y.src = 8 → y.dst = aHome → y.kind.channel ≠ 0)) ∧
    (let m := msgOf .evAck aHome 8 aLine
     Oldest m (lineIn (copyOf .ie false none) (owned 8) [m])) ∧
    (let m := msgOf .cmp 8 aHome aLine
     let s := lineIn (copyOf .m false none) (owned 8) [m]
     Oldest m s ∧ m.data = [] ∧ s.coh.queues = []) ∧
    (∀ k ∈ [MsgKind.rdRsp, .wrAck, .atmRsp 3], let m := msgOf k aHome 63 aLine
      63 < 64 ∧ Oldest m (withCoh { Coherence.off with net := [m] } running)) := by
  unfold Oldest; refine ⟨?_, ?_, ?_, ?_, ?_, ?_, ?_⟩ <;> decide +kernel

theorem witness_SnoopsAreAnswered :
    (∀ k ∈ [MsgKind.snpData, .snpOwn, .snpInv, .snpRecall true, .snpRecall false], ∀ st ∈ [LineState.m, .e, .s], ∀ h ∈ [true, false],
      let m := msgOf k aHome 8 aLine
      let s := lineIn (copyOf st h none) (owned 8) [m]
      8 < 15 ∧ aLine < reservoirLines ∧ domainRuns s = true ∧ s.coh.illegal = none ∧ Oldest m s ∧ cacheLine? s 8 aLine = some (copyOf st h none)) ∧
    (let m := msgOf .snpInv aHome 8 aLine
     let s := withCoh { Coherence.off with net := [m] } running
     Oldest m s ∧ cacheLine? s 8 aLine = none) ∧
    (∀ n ∈ [none, some (snoopCode .snpOwn, 9)],
      let s := lineIn (copyOf .m true n) (owned 8) []
      domainRuns s = true ∧ cacheLine? s 8 aLine = some (copyOf .m true n)) := by
  unfold Oldest; refine ⟨?_, ?_, ?_⟩ <;> decide +kernel

/-- Agent 8 waits for the line: whether its data has come, and its grant. -/
abbrev fetching (got : Bool) (g : Option LineState) : CacheLine := ⟨.fetching, [], 0, got, g, false, none⟩

theorem witness_DataAndGrantsInstallALine :
    (∀ k ∈ [MsgKind.dataFwd, .dataH, .grant .e], ∀ c ∈ [fetching false none, fetching true none, fetching false (some .m), ⟨.upgrading, [], 0, false, none, false, none⟩],
      let m := msgOf k aHome 8 aLine
      let s := lineIn c (owned 8) [m]
      8 < 15 ∧ aLine < reservoirLines ∧ domainRuns s = true ∧ s.coh.illegal = none ∧ agentUp s 8 = true ∧ arrayLost 1 = false ∧
        cacheLine? s 8 aLine = some c ∧ Oldest m s ∧ (m.data = [] ↔ m.kind = .grant .e)) := by
  unfold Oldest; decide +kernel

theorem witness_SnoopAnswersReachHome :
    (∀ x ∈ [(MsgKind.rspFwd, ReqKind.rdo), (.rspFwdData, .rds), (.rspI, .rdo), (.rspData, .rdh)],
      let m := msgOf x.1 8 aHome aLine
      let t := txnOf x.2 9 aLine
      let s := withCoh { Coherence.off with dir := [(aLine, owned 8)], net := [m], open_ := [t] } running
      domainRuns s = true ∧ s.coh.illegal = none ∧ s.coh.queues = [] ∧ Oldest m s ∧ (m.kind = .rspFwdData ∨ m.kind = .rspData ↔ m.data ≠ []) ∧ s.coh.open_.find? (fun t => t.req.line == aLine && t.await.contains 8) = some t ∧
        t.await = [8] ∧ t.fromHome = false ∧ 9 ≠ 8 ∧ dirOf s aLine = some (owned 8)) ∧
    (let x := txnOf .rdo 9 aLine
     let s := withCoh { Coherence.off with dir := [(aLine, owned 8)], open_ := [x] } running
     s.coh.open_.find? (fun t => t.req.line == aLine && t.await.contains 8) = some x ∧ x.await = [8] ∧ x.fromHome = false ∧ x.req.src ≠ 8 ∧
       dirOf s aLine = some (owned 8) ∧
       (let m := msgOf .rspEvInFlight 8 aHome aLine
        let w := msgOf .wbd 8 aHome aLine
        Oldest m (withCoh { s.coh with net := [w, m] } s) ∧ m.data = [] ∧ w ∈ [w, m] ∧
          Oldest m (withCoh { s.coh with net := [m], queues := [⟨.wbd, 8, aLine, 0, [5, 6, 7, 8], 0, none, false, false⟩] } s)) ∧
       (let m := msgOf .wbd 8 aHome aLine
        let u := withCoh { s.coh with net := [m], crossing := [(8, aLine)] } s
        Oldest m u ∧ m.data ≠ [] ∧ (8, aLine) ∈ u.coh.crossing ∧ u.coh.queues = [] ∧ u.coh.net.erase m = [])) := by
  unfold Oldest; refine ⟨?_, ?_⟩ <;> decide +kernel

theorem witness_DomainFailuresRestartsAndRepairsComplete :
    (let s := withCoh { Coherence.off with open_ := [txnOf .rdo 9 aLine] } running
     domainRuns s = true ∧ awaited s 8 aLine = true ∧ (∃ x ∈ s.coh.open_, x.req.line = aLine) ∧ arrayLost 0x100 = true ∧ s.coh.illegal = none ∧
       fetches s 8 aLine = false ∧ s.coh.net = []) ∧
    (let s := put [(O.domainState, 1)] running
     s.power.core = true ∧ s.val O.domainState = 1 ∧ lpddrRuns s = true) ∧
    (∀ w ∈ [0x80000, 0xFFFFF, 0x15FFFF, 2 ^ 21 - 1],
      let s := put [(O.shadowReady, 1), (O.poisonRepair, 1)] (withCoh { Coherence.off with poison := [(granuleWord (w / 8) (granuleIndex w), true)] } running)
      w < 2 ^ 21 ∧ domainRuns s = true ∧ s.flag O.shadowReady = true ∧ lpddrRuns s = true ∧ s.obj O.poisonRepair ≠ 0 ∧ wordPoisoned s w = true ∧
        wordPoisoned (writeTurn homeUser (w / 8) s) w = true ∧ AtHome s (w / 8) ∧ s.coh.dir = [] ∧ s.coh.open_ = [] ∧ s.coh.queues = []) ∧
    (let s : State := { put [(O.shadowReady, 1)] running with
       results := { running.results with bad := [(2 ^ 20 + 16383, true), (2 ^ 21, true)] } }
     s.power.core = true ∧ s.flag O.shadowReady = true ∧ lpddrRuns s = true ∧ SMap.get false s.results.bad (2 ^ 20 + 16383) = true ∧
       SMap.get false s.results.bad (2 ^ 21) = true) := by
  refine ⟨by decide +kernel, by decide +kernel, fun w hw => ?_, by decide +kernel⟩
  have h : w = 0x80000 ∨ w = 0xFFFFF ∨ w = 0x15FFFF ∨ w = 2 ^ 21 - 1 := by simpa using hw
  obtain rfl | rfl | rfl | rfl := h <;>
    exact ⟨by decide +kernel, by decide +kernel, by decide +kernel, by decide +kernel, by decide +kernel, by decide +kernel, by decide +kernel,
      ⟨still_rest _ _ ⟨rfl, rfl, rfl, rfl, rfl⟩ rfl (by decide +kernel), rfl⟩, rfl, rfl, rfl⟩

/-! ### Scrubbing and LPDDR5 -/

/-- `s` with the scrubber of region `g` as given. -/
abbrev withScrub (g : Nat) (r : RegionScrub) (s : State) : State := onScrub g (fun _ => r) s

theorem witness_ScrubsAndRetestsComplete :
    (∀ p ∈ [0, 4095],
      let s := withScrub 0 { RegionScrub.off with pos := p } running
      0 < 18 ∧ Sound s ∧ scrubbable s 0 = true ∧ regionUnits s 0 = 4096 ∧ s.obj (O.scrubMode 0) = 0 ∧ unitOf 0 (8 * p) = unitAt s 0 p ∧
        (scrubOf s 0).candidates = []) ∧
    (let s := put [(O.scrubMode 15, 1)] running
     15 < 18 ∧ Sound s ∧ scrubbable s 15 = true ∧ regionUnits s 15 ≠ 0 ∧ s.obj (O.scrubMode 15) = 1 ∧ yoyoAllowed 15 = true ∧
       (scrubOf s 15).topFinishes = false) ∧
    (let s : State := { running with integ := { running.integ with merge := [⟨63, 5, 1⟩] } }
     63 < 64 ∧ mergeOf s 63 5 = some ⟨63, 5, 1⟩ ∧ mergeOf s 63 6 = none) ∧
    (Sound running ∧ scrubbable running 0x11 = false ∧ scrubbable running 0x0B = true ∧ unitOf 0x0B 65535 < 8192 ∧ 2097151 < 2097152 ∧
      wordPoisoned running 2097151 = false ∧ scrubbable running 0x0F = true ∧ 524287 < 524288 ∧ scrubbable running 0x0C = true ∧
      65535 < 65536 ∧ domainRuns running = true) ∧
    (∀ x ∈ [(2, true), (8, false)],
      let s := withScrub x.1 { RegionScrub.off with weak := [(7, 1)] } running
      Sound s ∧ scrubbable s x.1 = true ∧ (7, 1) ∈ (scrubOf s x.1).weak ∧ wordMarked s 7 = false ∧ flumePath s x.1 7 = x.2) ∧
    (let ws := (List.range 7).map fun i => 32 * (i + 1)
     let s : State := { running with scratch := { running.scratch with lapLost := ws, bad := ws.map fun w => (w, true) } }
     Sound s ∧ scrubbable s 0x0F = true ∧ 7 ≤ ((s.scratch.lapLost.filter fun v => v % 32 == 0 % 32).filter fun v => v != 0 && wordBad s v).length ∧
       (running.scratch.lapLost.filter fun v => v % 32 == 5).length < 7) := by
  unfold Sound legalMode legalNmt; refine ⟨?_, ?_, ?_, ?_, ?_, ?_⟩ <;> decide +kernel

theorem witness_LpddrBringUpCompletes :
    lpddrRuns (inModes (fun m => { m with refLost := 16 }) running) = false ∧ lpddrRuns running = true ∧ running.power.core = true ∧ (put [(O.lpddrState, 1)] running).val O.lpddrState = 1 ∧
    (let s := put [(O.lpddrState, 2)] running
     s.val O.lpddrState = 2 ∧ s.flag O.shadowReady = false) ∧
    (let s := put [(O.lpddrState, 2), (O.shadowReady, 1)] running
     s.flag O.shadowReady = true ∧ s.flag O.extReady = false) ∧
    (put [(O.lpddrState, 2), (O.shadowReady, 1), (O.extReady, 1)] running).flag O.extReady = true := by
  decide +kernel

/-! ### Objects, the endpoint and the scratchpad -/

/-- A write of the whole value passes the checks before its own. -/
def writable (ch : Channel) (k : Nat) (v : Bytes) (s : State) : Bool :=
  served ch s && match objRow? (k / 256) (k % 256) with
    | some r => (writeGate ch k r s).isNone && (lengthCheck r v).isNone && (valueCheck k r v s).isNone
    | none => false

theorem writable_of {ch : Channel} {k : Nat} {v : Bytes} {s : State} (h : writable ch k v s = true) : Writable ch k v s := by
  unfold writable at h
  cases hr : objRow? (k / 256) (k % 256) with
  | none => simp [hr] at h
  | some r =>
    simp only [hr, Bool.and_eq_true, Option.isNone_iff_eq_none] at h
    exact ⟨h.1, r, hr, h.2.1.1, h.2.1.2, h.2.2⟩

/-- Device 1's TPDO 0 carries the error register every 10 ms. -/
abbrev tpdoState : State := put [(O.tpdoCobId 0, 0x181), (O.tpdoEventTimer 0, 10), (O.tpdoMappingCount 0, 1), (O.tpdoInhibitTime 0, 1)] running

theorem witness_CanPortCommandsComplete :
    (canTalks tpdoState = true ∧ tpdoState.obj O.producerHeartbeatTime ≠ 0 ∧ 15 < 16 ∧ tpdoState.can.nmt = 0x05 ∧
      bit (tpdoState.obj (O.tpdoCobId 0)) 31 = false ∧ tpdoState.obj (O.tpdoEventTimer 0) ≠ 0 ∧ tpdoState.obj (O.tpdoMappingCount 0) ≠ 0 ∧
      SMap.get 0 tpdoState.can.tpdoAt 0 = 0) ∧
    (let s : State := { tpdoState with can := { tpdoState.can with tpdoAt := [(0, 5000000001 - 100000)] } }
     canTalks s = true ∧ SMap.get 0 s.can.tpdoAt 0 + s.obj (O.tpdoInhibitTime 0) * 100000 ≤ s.clock.wall + 1) ∧
    (let s : State := { tpdoState with can := { tpdoState.can with tpdoAt := [(0, 5000000001)] } }
     canTalks s = true ∧ s.can.nodeId < 128 ∧ SMap.get 0 s.can.tpdoAt 0 ≠ 0 ∧
       s.clock.wall + 1 < SMap.get 0 s.can.tpdoAt 0 + s.obj (O.tpdoInhibitTime 0) * 100000) ∧
    canTalks { running with can := { running.can with busOff := true } } = false ∧
    ({ running with can := { running.can with rejoining := true } } : State).can.rejoining = true := by
  refine ⟨?_, ?_, ?_, ?_, ?_⟩ <;> decide +kernel

/-- A transfer of client 5. -/
abbrev transferring (x : Transfer) : State := { running with can := { running.can with transfer := some x } }

/-- ProducerHeartbeatTime's row of the dictionary. -/
abbrev heartbeatRow : ObjRow := ⟨0x1017, 1, 0, 1, 2, .int, .staged, 0x3e8, [(0, 0), (10, 65535)], false⟩

theorem witness_UsdoTransfersComplete :
    (1 ≤ 1 ∧ 127 < 128 ∧ 0x1017 < 65536 ∧ 0 < 256 ∧ served .can running = true ∧ running.can.transfer = none ∧
      readChecked 0x1017 0 0 running = .inr [0xE8#8, 3#8] ∧ readChecked 0x5FFF 255 0 running = .inl (0x06020000, 0x2001) ∧
      readChecked 0x2340 1 0 running = .inr (zeros 128)) ∧
    (let x : Transfer := ⟨5, O.program 0, false, zeros 60, 60⟩
     (transferring x).can.transfer = some x ∧ x.client ≠ 6 ∧ x.data.drop 56 ≠ [] ∧ (zeros 56).drop 56 = []) ∧
    (objRow? 0x1017 0 = some heartbeatRow ∧ heartbeatRow.access = .staged ∧ heartbeatRow.sequenced = false ∧
      writeGate .can (objKey 0x1017 0) heartbeatRow running = none ∧ running.dict.staging.length < 1024 ∧
      writable .can (objKey 0x1017 0) [100#8, 0#8] running = true) ∧
    (let x : Transfer := ⟨5, O.producerHeartbeatTime, true, [100#8], 2⟩
     let s := transferring x
     s.can.transfer = some x ∧ x.key = objKey 0x1017 0 ∧ x.data ++ [0#8] = [100#8, 0#8] ∧ [100#8, 0#8].length = x.size ∧
       (x.data ++ [0#8]).length ≤ x.size ∧ writable .can (objKey 0x1017 0) [100#8, 0#8] s = true) := by
  refine ⟨?_, ?_, ?_, ?_⟩ <;> decide +kernel

/-- One staged value of the kind `k`. -/
abbrev stagedIn (k v : Nat) : State := { running with dict := { running.dict with staging := [(k, v)] } }

theorem witness_StagingAndCommitComplete :
    (objRow? 0x1017 0 = some heartbeatRow ∧ writable .pcie (objKey 0x1017 0) [100#8, 0#8] running = true ∧
      SMap.find? running.dict.staging (objKey 0x1017 0) = none) ∧
    (let s : State := { running with dict := { running.dict with staging := (List.range 1024).map fun i => (O.program 0 + i, 1) } }
     writable .pcie (objKey 0x1017 0) [100#8, 0#8] s = true ∧ SMap.find? s.dict.staging (objKey 0x1017 0) = none ∧ 1024 ≤ s.dict.staging.length) ∧
    (objRow? 0x5FFF 255 = none ∧ objRow? 0x1017 1 = none ∧ served .can running = true) ∧
    writable .pcie O.stagingLock (leBytes 1 1) running = true ∧
    (writable .pcie O.commit [2#8] running = true ∧ writable .pcie O.commit [1#8] running = true ∧
      ∀ e ∈ running.dict.kept, e.ch = .pcie → e.key = O.commit → e.seq ≠ 255) ∧
    (let s := stagedIn O.producerHeartbeatTime 100
     commitFailure s (mergedLive s s.dict.staging) (s.dict.staging.map (·.1)) = none ∧ (s.dict.staging.map (·.1)).Nodup ∧
       writable .pcie O.commit [1#8] s = true) ∧
    (let s := stagedIn (O.bucketTableDefinition 0) (2 ^ 63 + 48 * 2 ^ 48 + 3 * 2 ^ 40)
     (commitFailure s (mergedLive s s.dict.staging) (s.dict.staging.map (·.1))).isSome = true ∧ writable .pcie O.commit [1#8] s = true) := by
  refine ⟨?_, ?_, ?_, ?_, ?_, ?_, ?_⟩ <;> decide +kernel

/-- A kept response of the Commit object. -/
abbrev keptCommit : Kept := ⟨.pcie, O.commit, 7, sha256 [1#8], ⟨0, 0, 0, 0, []⟩⟩

theorem witness_StagingAndCommitComplete_kept :
    let s : State := { running with dict := { running.dict with kept := [keptCommit] } }
    served .pcie s = true ∧ (∃ r, objRow? (O.commit / 256) (O.commit % 256) = some r ∧ r.sequenced = true) ∧
      s.dict.kept.find? (fun e => e.ch == .pcie && e.key == objKey (O.commit / 256) (O.commit % 256) && e.seq == (7#8).toNat) = some keptCommit ∧
      (keptCommit.resp.status = 1 ↔ keptCommit.resp.abort ≠ 0) ∧ keptCommit.digest = sha256 [1#8] ∧ keptCommit.digest ≠ sha256 [2#8] := by
  refine ⟨by decide +kernel, ⟨_, rfl, by decide +kernel⟩, by decide +kernel, by decide +kernel, rfl, by decide +kernel⟩

/-- A request record in the request buffer. -/
abbrev requesting (op : Nat) (busy : Bool) : State :=
  { running with mailbox := ⟨[(0, BitVec.ofNat 8 op), (4, 0x17#8), (5, 0x10#8), (12, 2#8)], [], busy⟩ }

theorem witness_MailboxAndEndpointComplete :
    served .pcie sleeping = false ∧ (served .pcie (requesting 1 true) = true ∧ (requesting 1 true).mailbox.busy = true) ∧
    (let s := requesting 1 false
     let b := Memory.readBytes s.mailbox.request 0 4096
     let q := requestOf b
     served .pcie s = true ∧ s.mailbox.busy = false ∧ requestOk b q = true ∧ q.op = 1 ∧ readChecked q.index q.sub q.offset s = .inr [0xE8#8, 3#8]) ∧
    (let b := Memory.readBytes (requesting 3 false).mailbox.request 0 4096
     requestOk b (requestOf b) = false) ∧
    (let s := put [(O.drowseExitMax, 9)] running
     served .can s = true ∧ readChecked (O.drowseExitMax / 256) (O.drowseExitMax % 256) 0 s = .inr (leBytes 2 9) ∧
       clearedByReading O.drowseExitMax = true) ∧
    (63 < 64 ∧ readChecked (O.lastFailedKey 63 / 256) (O.lastFailedKey 63 % 256) 0 running = .inr (zeros 40)) ∧
    (Sound running ∧ running.power.core = true ∧ (ringAt running 7).waiting = none ∧ 1 ≤ 4 ∧ 4 ≤ 4 ∧ bit running.modes.refLost 3 = false ∧
      endpointPowered running = true ∧ vectorOpen 18 running = true ∧ vectorOpen 18 (put [] { running with host := Pcie.off }) = false) ∧
    (0x10000 < (⟨false, 0xFFFC, 8, [], false⟩ : BarAccess).offset + 8 ∧ (⟨false, 0xFFF8, 8, [], false⟩ : BarAccess).offset + 8 ≤ 0x10000 ∧
      (⟨true, 0, 4, [1#8], true⟩ : BarAccess).poisoned = true ∧ (0xFFF : Nat) + [1#8].length ≤ 0x1000 ∧ (0x1000 : Nat) < 0x2000) := by
  unfold Sound legalMode legalNmt; refine ⟨?_, ?_, ?_, ?_, ?_, ?_, ?_, ?_⟩ <;> decide +kernel

/-- Bank 1 is of Marionette 0, the rest of the host; a word of bank 2 is bad. -/
abbrev bankState : State := { put [(O.bankOwner 1, 1)] running with scratch := ⟨[(16, 0xF0#8)], [(2, true)], [], []⟩ }

theorem witness_ScratchpadAndBanksComplete :
    (Sound bankState ∧ windowUp bankState = true ∧ (16 + [1#8, 2#8].length ≤ scratchBytes) ∧
      (∀ b ∈ banksTouched 16 2, mayAccess bankState 0 b = true) ∧ (∃ w ∈ wordsTouched 16 2, wordBad bankState w = true) ∧
      (∀ w ∈ wordsTouched 0 8, wordBad bankState w = false) ∧ (∃ b ∈ banksTouched 7 2, mayAccess bankState 0 b = false) ∧
      scratchBytes < scratchBytes - 1 + [1#8, 2#8].length ∧ (scratchBytes - 2) + [1#8, 2#8].length ≤ scratchBytes) ∧
    (31 < 32 ∧ 4 < 256 ∧ writable .pcie (O.bankOwner 31) (leBytes 1 4) running = true ∧
      bit (running.val O.tallyBanks ||| running.val O.culvertBanks) 31 = false ∧ bit (banksInUse running) 31 = false) ∧
    (let s := put [(O.tallyBanks, 2 ^ 31)] running
     writable .pcie (O.bankOwner 31) (leBytes 1 4) s = true ∧ bit (s.val O.tallyBanks ||| s.val O.culvertBanks) 31 = true ∧
       writable .pcie O.bankHandover (leBytes 8 (4 * 2 ^ 32 + 2 ^ 31)) s = true ∧
       bits (4 * 2 ^ 32 + 2 ^ 31) 31 0 &&& (s.val O.tallyBanks ||| s.val O.culvertBanks) ≠ 0) ∧
    (let s := withRing { oneWaits with desc := direct 0x31 (bulkOperands 5 1 32), waiting := some (.vote 1) } running
     writable .pcie (O.bankOwner 4) (leBytes 1 4) s = true ∧ bit (banksInUse s) 4 = true) ∧
    (writable .pcie O.bankHandover (leBytes 8 (4 * 2 ^ 32 + 2 ^ 31)) running = true ∧ bits (4 * 2 ^ 32 + 2 ^ 31) 31 0 &&& banksInUse running = 0) ∧
    (writable .pcie (O.bankCode 1) (leBytes 1 1) running = true ∧ ownerOf running 1 = 0 ∧
      writable .pcie (O.bankCode 1) (leBytes 1 1) bankState = true ∧ ownerOf bankState 1 ≠ 0) := by
  unfold Sound legalMode legalNmt; refine ⟨?_, ?_, ?_, ?_, ?_, ?_⟩ <;> decide +kernel

/-! ### Action objects, the Tally, tamper, Jack and Sluice -/

/-- Table 1's MoveLockClear value: flags `n`, and the key of the table's entry. -/
abbrev lockValue (t n : Nat) : Bytes := [BitVec.ofNat 8 t, BitVec.ofNat 8 n] ++ (if n = 0 then beBytes 40 bucketKey else zeros 40)

theorem witness_ActionWritesComplete :
    (Sound running ∧ 7 < 8 ∧ writable .pcie (O.linkAction 7) [1#8] running = true ∧ writable .can (O.linkAction 0) [2#8] running = true ∧
      (linkAt running 7).state = 0 ∧ (linkAt (withLink upLink running) 0).state ≠ 0 ∧ Sound (withLink upLink running) ∧
      writable .can (O.linkAction 0) [1#8] (withLink upLink running) = true ∧
      (let s := inModes (fun m => { m with refLost := 1 }) (withLink upLink running)
       Sound s ∧ writable .can (O.linkAction 0) [1#8] s = true ∧ (linkAt s 0).state ≠ 0 ∧ bit s.modes.refLost 0 = true)) ∧
    (let s := withLink { upLink with state := 4 } running
     Sound s ∧ writable .pcie (O.linkAction 0) [2#8] s = true ∧ (linkAt s 0).state = 4 ∧ (linkAt running 0).state ≠ 4) ∧
    (Sound bucketState ∧ bucketState.dict.kept = [] ∧ writable .pcie O.moveLockClear (lockValue 1 0) bucketState = true ∧
      bucketState.dict.assembly = none ∧ u8 (lockValue 1 0) 0 = 1 ∧ defDefined (tableDef bucketState.dict.live 1) = true ∧
      defLearnable (tableDef bucketState.dict.live 1) = true ∧ bit (u8 (lockValue 1 0) 1) 0 = false ∧ be (lockValue 1 0) 2 40 = bucketKey ∧
      writable .pcie O.moveLockClear (lockValue 1 1) bucketState = true ∧ bit (u8 (lockValue 1 1) 1) 0 = true ∧
      allZero (lockValue 1 1) 2 40 = true ∧ writable .pcie O.moveLockClear (lockValue 64 0) bucketState = true ∧ 63 < u8 (lockValue 64 0) 0 ∧
      writable .pcie O.moveLockClear (lockValue 63 0) bucketState = true ∧ defDefined (tableDef bucketState.dict.live 63) = false) ∧
    (let s := put [(O.pairState, 3), (O.pairRole, 2)] running
     Sound s ∧ 255 < 256 ∧ s.dict.kept = [] ∧ writable .can O.promote [1#8] s = true ∧ pairState s = 3 ∧ s.val O.pairRole = 2 ∧
       writable .can O.promote [1#8] running = true ∧ pairState running ≠ 3) ∧
    (let s := put [(O.pairState, 5)] running
     Sound s ∧ s.dict.kept = [] ∧ writable .pcie O.pairRelease [1#8] s = true ∧ pairState s = 5 ∧
       writable .pcie O.pairRelease [1#8] running = true ∧ pairState running ≠ 5) ∧
    (writable .can O.drowseExit (leBytes 1 1) running = true ∧
      writable .can O.firmwareStage (leBytes 4 0xFF ++ leBytes 8 4096) running = true ∧ running.modes.fwStage ≠ 1 ∧
      writable .can O.firmwareStage (leBytes 4 0xFF ++ leBytes 8 4096) (inModes (fun m => { m with fwStage := 1 }) running) = true) := by
  unfold Sound legalMode legalNmt; refine ⟨?_, ?_, ?_, ?_, ?_, ?_⟩ <;> decide +kernel

theorem witness_ActionWritesComplete_unlock :
    let s := bucketHolds { learnedHas with moveLocked := true }
    drainOps (fun sl => sl == keyBucket s 1 bucketKey % 16) s = s ∧ drainOps (fun _ => true) s = s ∧ findPlace s 1 bucketKey = some firstWay ∧
      entryAt? s firstWay = some { learnedHas with moveLocked := true } := by
  have hb : entryAt? (bucketHolds { learnedHas with moveLocked := true }) firstWay = some { learnedHas with moveLocked := true } := by
    simp [entryAt?, SMap.find?]
  exact ⟨by rfl, by rfl, findPlace_first _ _ _ _ (by decide +kernel) hb rfl rfl rfl, hb⟩

/-- A working AES-128 key in slot 4,095. -/
abbrev keyed : State :=
  { running with keys := { running.keys with rootUp := true, slots := [(4095, ⟨1, 1, 1, 0, 0, zeros 16⟩)] } }

theorem witness_TallyAndAttestationComplete :
    (2 ^ 64 - 1 < 2 ^ 64 ∧ writable .pcie O.cursor (leBytes 8 (2 ^ 64 - 1)) running = true ∧ running.dict.kept = [] ∧
      writable .can O.advance (leBytes 2 4096) running = true) ∧
    (tallyRuns running = true ∧ flashRuns running = true ∧ (running.tally.recs.filter fun r => decide (running.tally.inFlash ≤ r.seq)) = [] ∧ writable .pcie O.sealNow [1#8] running = true) ∧
    (let r : TallyRec := ⟨0, 0, 1, 4, false, [], []⟩
     let s : State := { keyed with tally := { keyed.tally with next := 1, recs := [r] } }
     tallyRuns s = true ∧ flashRuns s = true ∧ (s.tally.recs.filter fun r => decide (s.tally.inFlash ≤ r.seq)) = r :: [] ∧ (r.seq + 1) % 4096 ≠ 0 ∧ writable .pcie O.sealNow [1#8] s = true ∧ 0 < s.tally.next ∧ s.keys.rootUp = true) ∧
    (let v := [2#8, 0#8] ++ leBytes 2 4095 ++ zeros 16
     writable .can O.attestRequest v keyed = true ∧ keyed.dict.kept = [] ∧ attestKey (u8 v 0) (le v 2 2) keyed = some (1, 1, 2, zeros 16)) ∧
    (let v := [2#8, 0#8] ++ leBytes 2 4096 ++ zeros 16
     writable .can O.attestRequest v keyed = true ∧ attestKey (u8 v 0) (le v 2 2) keyed = none ∧
       let s : State := { running with tamper := { running.tamper with alarmAt := running.clock.wall + 1 } }
       writable .can O.attestRequest v s = true ∧ attestKey (u8 v 0) (le v 2 2) s = none ∧ s.tamper.alarmAt = s.clock.wall + 1) := by
  refine ⟨?_, ?_, ?_, ?_, ?_⟩ <;> decide +kernel

theorem witness_TamperAndJackComplete :
    (12 < 13 ∧ armed running 12 = true ∧ armed sleeping 12 = false ∧ armed sleeping 11 = true ∧ armed running 0 = false ∧ running.power.core = true ∧ sleeping.power.core = false) ∧
    (let s : State := { running with tamper := { running.tamper with cause := 1, numbered := 1 } }
     255 < 256 ∧ s.dict.kept = [] ∧ writable .pcie O.tamperClear [1#8] s = true ∧ tamperClearable s = true ∧
       tamperClearable { s with tamper := { s.tamper with active := 1 } } = false ∧
       writable .pcie O.tamperClear [1#8] { s with tamper := { s.tamper with active := 1 } } = true) ∧
    (running.dict.kept = [] ∧ writable .can O.jackResponse (zeros 132) running = true ∧ epochNow running < 16 ∧
      jackAuth (zeros 132) running = false ∧ running.modes.fillEnded = true ∧ running.modes.halted = false) ∧
    (let s : State := { running with keys := { running.keys with fuses := 16 } }
     16 ≤ epochNow s ∧ writable .can O.jackResponse (zeros 132) s = true) ∧
    (let s : State := { running with clock := { running.clock with wall := 60000000000 } }
     s.power.core = true ∧ s.modes.rootDone = true ∧ s.jack.drawn + 60000000000 ≤ s.clock.wall) ∧
    (let s : State := { put [(O.lpddrUserCapacity, 896)] (inModes (fun m => { m with mode := 0x0B }) running) with jack := { running.jack with opened := true } }
     (∀ n ∈ [1, 2, 3, 4, 5, 7, 8], writable .can O.jackMemoryRequest ([BitVec.ofNat 8 n, 0#8, 0#8, 0#8] ++ leBytes 8 0 ++ leBytes 4 1024) s = true) ∧
       lpddrByte s 0 = some 0 ∧ 15 < 256 ∧
       writable .pcie O.marionetteHalt (leBytes 1 15) s = true ∧ 2 ^ 32 - 1 < 2 ^ 32 ∧
       writable .pcie O.traceControl (leBytes 4 0) s = true) := by
  refine ⟨?_, ?_, ?_, ?_, ?_, ?_⟩ <;> decide +kernel

/-! An opening of Jack is sealed in flash. Whether a program of flash fails is a free value, so it is a premise that none does. -/

/-- Slots that fit into the open segment are appended where no program of flash fails. -/
theorem append_fits (hf : ∀ n, bit (Config.freeValue n).toNat 0 = false) {first : Nat} {slots : List Bytes} {u : State} {g : Segment}
    (hp : u.flash.pool = [g]) (hm : (g.magic == tallyMagic) = true) (hl : g.slots.length + slots.length ≤ 1023) :
    appendSlots first slots u = (true, { u with fresh := u.fresh + 1, flash := { u.flash with pool := [{ g with slots := g.slots ++ slots }] } }) := by
  simp [appendSlots, hp, hm, hl, flashFails, drawFresh, hf]

theorem chunks_length (w : Nat) : ∀ (n : Nat) (b : Bytes), (chunks w n b).length ≤ n
  | 0, _ => by simp [chunks]
  | n + 1, b => by
    unfold chunks
    split
    · simp
    · have := chunks_length w n (b.drop w)
      simp only [List.length_cons]; omega

/-- An interim seal is written where the identity key exists, the open segment has room, and no program of flash fails. -/
theorem seal_fits (hf : ∀ n, bit (Config.freeValue n).toNat 0 = false) (last : Nat) (link : Bytes) {u : State} {g : Segment} (hk : u.keys.rootUp = true)
    (hp : u.flash.pool = [g]) (hm : (g.magic == tallyMagic) = true) (hl : g.slots.length ≤ 1) :
    (writeSeal false last link u).1 = true ∧ (writeSeal false last link u).2.tally = u.tally := by
  have hx : ∀ first (cs : List Bytes), cs.length ≤ 3 → appendSlots first cs { u with fresh := u.fresh + 1 } =
      (true, { u with fresh := u.fresh + 2, flash := { u.flash with pool := [{ g with slots := g.slots ++ cs }] } }) := fun first cs h =>
    append_fits (u := { u with fresh := u.fresh + 1 }) hf hp hm (by omega)
  unfold writeSeal
  simp only [hk, if_true, sign, drawFresh]
  rw [hx _ _ (chunks_length 64 3 _)]
  constructor
  · with_reducible rfl
  · simp only [Bool.false_eq_true, if_false]; simp only [State.put_tally, State.bump_tally]

/-- One record that is not in flash is committed and sealed where the open segment has room and no program of flash fails. -/
theorem seals (hf : ∀ n, bit (Config.freeValue n).toNat 0 = false) {s : State} {r : TallyRec} {g : Segment} (h1 : tallyRuns s = true)
    (h2 : flashRuns s = true) (h3 : s.keys.rootUp = true) (h4 : s.val O.tallyBanks = 0)
    (h5 : s.tally.recs.filter (fun r => s.tally.inFlash ≤ r.seq) = [r]) (h6 : s.tally.next = r.seq + 1) (h7 : (r.seq + 1) % 4096 ≠ 0)
    (hp : s.flash.pool = [g]) (hm : (g.magic == tallyMagic) = true) (hl : g.slots = []) : (commitAndSeal s).1 = true := by
  have hb : bitList 32 0 = [] := by decide
  have hc : tallyCommit s = { s with
      fresh := s.fresh + 1
      flash := { s.flash with pool := [{ g with slots := [r.bytes] }] }
      tally := { s.tally with inFlash := r.seq + 1 } } := by
    simp [tallyCommit, h1, h2, h5, bursts, commitBurst, h4, hb, programRecords, append_fits hf hp hm (slots := [r.bytes]) (by simp [hl]), hl, h7]
  have e1 : tallyRuns (tallyCommit s) = true := by rw [hc]; exact h1
  have e2 : flashRuns (tallyCommit s) = true := by rw [hc]; exact h2
  have e3 : (tallyCommit s).tally.next = r.seq + 1 := by rw [hc]; exact h6
  have e4 := seal_fits hf ((tallyCommit s).tally.next - 1) (tallyCommit s).tally.link (u := tallyCommit s) (g := { g with slots := [r.bytes] })
    (by rw [hc]; exact h3) (by rw [hc]) hm (by simp)
  have e5 : (tallyCommit s).tally.inFlash = r.seq + 1 := by rw [hc]
  simp [commitAndSeal, e1, e2, e3] at e4 ⊢
  simp [e4, e3, e5]
set_option maxRecDepth 10000 in
/-- A response of 132 bytes passes the checks of its value, whatever it holds. -/
theorem response_checks {v : Bytes} {r : ObjRow} (s : State) (hr : objRow? (O.jackResponse / 256) (O.jackResponse % 256) = some r)
    (hl : v.length = 132) : lengthCheck r v = none ∧ valueCheck O.jackResponse r v s = none := by
  have h1 : ((objRow? (O.jackResponse / 256) (O.jackResponse % 256)).map fun r => (r.size, r.range)) = some (132, []) := by decide +kernel
  rw [hr] at h1
  have h2 : r.size = 132 ∧ r.range = [] := by simpa using h1
  have c1 : (programOfKey O.jackResponse).isSome = false := by decide +kernel
  have c2 : (profileOfKey O.jackResponse).isSome = false := by decide +kernel
  constructor
  · simp [lengthCheck, hl, h2]
  · unfold valueCheck rangeDetail
    simp only [c1, c2, h2, List.isEmpty_nil, Bool.true_or, if_true, Bool.false_eq_true, if_false]
    iterate 9 rw [if_neg (by decide +kernel)]
    rw [if_neg fun h => absurd h.1 (by decide +kernel)]
    rfl

/-- A response of the key whose hash is programmed, with a signature of that key over the nonce, verifies. -/
theorem response_verifies (s : State) {key sig : Bytes} (hk : key.length = 64) (hs : sig.length = 64) (h1 : s.keys.hashes = [(0, sha256 key)])
    (h2 : s.keys.fuses = 0) (hv : ecdsaVerify key (ascii "KY88 JACK" ++ uidBytes ++ fit 16 s.jack.nonce ++ beBytes 1 0) sig = true) :
    jackAuth ([2#8, 0#8, 0#8, 0#8] ++ key ++ sig) s = true := by
  have e1 : slice ([2#8, 0#8, 0#8, 0#8] ++ key ++ sig) 4 64 = key := slice_middle _ _ _ _ _ rfl hk
  have e2 : slice ([2#8, 0#8, 0#8, 0#8] ++ key ++ sig) 68 64 = sig := by
    simpa using slice_middle ([2#8, 0#8, 0#8, 0#8] ++ key) sig [] 68 64 (by simp [hk]) hs
  have e3 : u8 ([2#8, 0#8, 0#8, 0#8] ++ key ++ sig) 0 = 2 := by
    unfold u8 le; rw [List.append_assoc, slice_left _ _ _ _ (by decide)]; decide
  have ha : authorityHash? s = some (sha256 key) := by simp [authorityHash?, epochNow, h1, h2]
  unfold jackAuth jackSigner epochNow
  simp only [e1, e2, e3, ha, h2, hv, beq_self_eq_true, Bool.and_self]

/-- A public key of the curve: its base point. -/
def aKey : Bytes := beBytes 32 p256G.1 ++ beBytes 32 p256G.2

/-- Commissioned with that key's authority; the journal's open segment is empty. -/
abbrev jackable : State :=
  { running with
    keys := { running.keys with rootUp := true, hashes := [(0, sha256 aKey)] }
    flash := { running.flash with pool := [newSegment tallyMagic 0 0 []] } }

/-- A response of the authority's key over the nonce opens Jack, and its opening is sealed; the signature covers the device's own identity, so it is a
premise. -/
theorem witness_TamperAndJackComplete_open (hf : ∀ n, bit (Config.freeValue n).toNat 0 = false) (sig : Bytes) (hs : sig.length = 64)
    (hv : ecdsaVerify aKey (ascii "KY88 JACK" ++ uidBytes ++ fit 16 jackable.jack.nonce ++ beBytes 1 0) sig = true) :
    let s := jackable
    let v := [2#8, 0#8, 0#8, 0#8] ++ aKey ++ sig
    s.dict.kept = [] ∧ Writable .can O.jackResponse v s ∧ epochNow s < 16 ∧ jackAuth v s = true ∧ s.modes.fillEnded = true ∧ s.modes.halted = false ∧
      (commitAndSeal (journal 0x0021 (beBytes 1 (u8 v 0) ++ beBytes 1 (epochNow s + 1)) (drowseTrigger (drawFresh s).2))).1 = true := by
  have hk : aKey.length = 64 := by decide
  have e3 : u8 ([2#8, 0#8, 0#8, 0#8] ++ aKey ++ sig) 0 = 2 := by
    unfold u8 le; rw [List.append_assoc, slice_left _ _ _ _ (by decide)]; decide
  refine ⟨rfl, ?_, show (0 : Nat) < 16 by decide, ?_, rfl, rfl, ?_⟩
  · have hr : writable .can O.jackResponse (zeros 132) jackable = true := by decide +kernel
    obtain ⟨h1, r, h2, h3, h4, h5⟩ := writable_of hr
    have hc := response_checks jackable h2 (v := [2#8, 0#8, 0#8, 0#8] ++ aKey ++ sig) (by rw [List.length_append, List.length_append, hk, hs]; rfl)
    exact ⟨h1, r, h2, h3, hc.1, hc.2⟩
  · exact response_verifies jackable hk hs rfl rfl hv
  · rw [e3]
    refine seals hf (r := (journal 0x0021 (beBytes 1 2 ++ beBytes 1 (epochNow jackable + 1)) (drowseTrigger (drawFresh jackable).2)).tally.recs.headD
        ⟨0, 0, 0, 0, false, [], []⟩) (g := newSegment tallyMagic 0 0 []) ?_ ?_ ?_ ?_ ?_ ?_ ?_ ?_ ?_ ?_ <;> decide +kernel

/-- Without a reference for K6 nothing reaches flash. -/
theorem witness_TamperAndJackComplete_unsealed :
    let s := inModes (fun m => { m with refLost := 32 }) jackable
    epochNow s < 16 ∧ (commitAndSeal (journal 0x0021 (beBytes 1 2 ++ beBytes 1 (epochNow s + 1)) (drowseTrigger (drawFresh s).2))).1 = false := by
  decide +kernel

/-- PN 3 with gate lines 0 and 23 stands as `r`; the level pin 7, the pin 0 in its other mode, source 8, network management source 127 and timer 3
wake it, and the source 0 holds it; these gate lines are driven, and these wake-records pend. -/
abbrev pnWith (gates : SMap Nat) (hits : Nat) (r : Pn) : State :=
  { running with
    sluice := { running.sluice with
      held := [(O.pnDefinition 3, 2 ^ 63 + 2 ^ 23 + 1), (O.sourceDefinition 0, 2 ^ 63 + 2 ^ 62), (O.sourceDefinition 7, 2 ^ 63),
        (O.sourceDefinition 8, 2 ^ 63), (O.sourceDefinition 12, 2 ^ 63), (O.sourceDefinition 127, 2 ^ 63), (O.sourcePns 0, 8), (O.sourcePns 7, 8),
        (O.sourcePns 8, 8), (O.sourcePns 12, 8), (O.sourcePns 127, 8), (O.wakeTimer 3, 2 ^ 31)]
      heldConfig := true
      pns := [(3, r)]
      gates := gates
      holds := [(0, 8)]
      hits := hits
      timers := 8
      pins := 0x80 } }

/-- That with both lines to be driven and the record of source 127 pending. -/
abbrev pnState (r : Pn) : State := pnWith [] (2 ^ 127) r

/-- PN 3 asleep. -/
abbrev pnAsleep : Pn := { Pn.undefined with state := 1 }

theorem witness_WakeSourcesActOnTheirPns :
    (let s := inModes (fun m => { m with refLost := 0x100 }) (pnState pnAsleep)
     sluiceRuns s = false ∧ writable .can O.hostRequest (leBytes 8 (2 ^ 64 - 1)) s = true ∧ writable .can O.sleepAck (leBytes 8 (2 ^ 64 - 1)) s = true ∧
       writable .pcie O.sourceMaskClear (leBytes 1 255) s = true ∧ 255 < 256) ∧
    (let s := pnState pnAsleep
     sluiceRuns s = true ∧ 7 < 8 ∧ levelMode s 7 = true ∧ levelMode s 0 = false ∧ bit (sluiceObj s (O.sourcePns 7)) 3 = true ∧ bit (sluiceObj s (O.sourcePns 7)) 63 = false ∧
       reaches s 7 3 = true ∧ reaches s 8 3 = true ∧ reaches s 127 3 = true ∧ bit s.sluice.hits 127 = true ∧ bit s.sluice.hits 16 = false ∧
       bit s.sluice.timers 3 = true ∧ bit s.sluice.timers 0 = false ∧ 2 ^ 64 - 1 < 2 ^ 64 ∧
       writable .can O.hostRequest (leBytes 8 (2 ^ 64 - 1)) s = true) ∧
    (let s := pnState { pnAsleep with state := 3 }
     sluiceRuns s = true ∧ 127 < 128 ∧ levelMode s 127 = false ∧ 127 ≠ 8 ∧ levelMode s 7 = true ∧ bit (holdsOf s 0) 3 = true ∧
       writable .pcie O.sourceMaskClear (leBytes 1 127) s = true ∧ writable .pcie O.sourceMaskClear (leBytes 1 255) s = true) ∧
    (let s := pnState { pnAsleep with state := 3 }
     sluiceRuns s = true ∧ 3 < 64 ∧ pnAlwaysOn s 3 = false ∧ bit (holdsOf s 0) 3 = true ∧ bit (holdsOf s 127) 3 = false ∧ pnDefined s 3 = true ∧ (pnOf s 3).state ≠ 1 ∧
       0 ∈ holders s 3 ∧ pnAlwaysOn s 63 = false) := by
  refine ⟨?_, ?_, ?_, ?_⟩ <;> decide +kernel

theorem witness_PnTimersComplete :
    (let s := pnWith [(0, 1), (23, 1)] 0 { pnAsleep with state := 2 }
     3 < 64 ∧ sluiceRuns s = true ∧ (pnOf (takeHits s) 3).state = 2 ∧ linesLeft (takeHits s) 3 1 = []) ∧
    (let s := pnWith [] 0 { pnAsleep with state := 4 }
     (pnOf (takeHits s) 3).state = 4 ∧ s.modes.halted = false ∧ s.power.core = true ∧ vectorOpen 18 s = true ∧
       (pnOf (takeHits (inModes (fun m => { m with halted := true }) s)) 3).state = 4) ∧
    ((pnOf (takeHits (pnWith [] 0 { pnAsleep with state := 5 })) 3).state = 5 ∧
      (pnOf (takeHits (pnState { pnAsleep with state := 5 })) 3).state ≠ 5) ∧
    (let s := pnWith [(0, 1)] 0 { pnAsleep with state := 2 }
     (pnOf (takeHits s) 3).state = 2 ∧ linesLeft (takeHits s) 3 1 = [23]) ∧
    (let s := pnWith [(23, 2)] 0 { pnAsleep with state := 6 }
     (pnOf (takeHits s) 3).state = 6 ∧ (linesLeft (takeHits s) 3 2).reverse = [0]) ∧
    (let s := pnState { pnAsleep with rewake := true }
     (pnOf s 3).state = 1 ∧ (pnOf s 3).rewake = true ∧ linesLeft s 3 1 = [0, 23]) ∧
    (let s := pnWith [] 0 { pnAsleep with state := 5 }
     2 ^ 64 - 1 < 2 ^ 64 ∧ writable .pcie O.sleepAck (leBytes 8 (2 ^ 64 - 1)) s = true ∧ bit (2 ^ 64 - 1) 3 = true ∧
       writable .pcie O.sleepAck (leBytes 8 (2 ^ 3)) s = true ∧ (pnOf (takeHits s) 3).state = 5) := by
  refine ⟨?_, ?_, ?_, ?_, ?_, ?_, ?_⟩ <;> decide +kernel

/-! ### Bundles and freshness -/

theorem spell_length (a n : Nat) (m : Memory) : (Memory.spell a n m).length = n := by
  induction n generalizing a m with
  | zero => rfl
  | succ n ih =>
    cases m with
    | nil => simp [Memory.spell, ih]
    | cons e m => obtain ⟨k, v⟩ := e; simp only [Memory.spell]; split <;> simp [ih]

/-- What a run of a byte string's own cells spells is the string. -/
theorem spell_cells (a : Nat) (bs : Bytes) : Memory.spell a bs.length (Memory.cells a bs) = bs := by
  induction bs generalizing a with
  | nil => rfl
  | cons b bs ih =>
    have hge := Memory.cells_key (a + 1) bs
    by_cases hb : b = 0
    · simp only [Memory.cells, if_pos hb, List.length_cons]
      cases hm : Memory.cells (a + 1) bs with
      | nil => rw [Memory.spell, ← hm, ih, hb]
      | cons e m =>
        obtain ⟨k, v⟩ := e
        have : a + 1 ≤ k := (hge (k, v) (by rw [hm]; simp)).1
        rw [Memory.spell, if_neg (by omega), ← hm, ih, hb]
    · simp only [Memory.cells, if_neg hb, List.length_cons, Memory.spell, if_pos trivial, ih]

/-- Of the cells of two strings in a row, those of a span below the second are the first's. -/
theorem cells_append (a : Nat) (x y : Bytes) : Memory.cells a (x ++ y) = Memory.cells a x ++ Memory.cells (a + x.length) y := by
  induction x generalizing a with
  | nil => simp [Memory.cells]
  | cons b x ih =>
    simp only [List.cons_append, Memory.cells, ih, List.length_cons]
    have : a + 1 + x.length = a + (x.length + 1) := by omega
    split <;> simp [this]

theorem readBytes_middle (x y z : Bytes) (a n : Nat) (hx : x.length = a) (hy : y.length = n) :
    Memory.readBytes (Memory.cells 0 (x ++ y ++ z)) a n = y := by
  subst hx hy
  unfold Memory.readBytes
  rw [cells_append, cells_append, List.filter_append, List.filter_append]
  have h1 : (Memory.cells 0 x).filter (fun e => decide (x.length ≤ e.1 ∧ e.1 < x.length + y.length)) = [] := by
    rw [List.filter_eq_nil_iff]; intro e he; have := Memory.cells_key _ _ e he; simp; omega
  have h2 : (Memory.cells (0 + x.length) y).filter (fun e => decide (x.length ≤ e.1 ∧ e.1 < x.length + y.length)) = Memory.cells x.length y := by
    rw [Nat.zero_add, List.filter_eq_self]; intro e he; have := Memory.cells_key _ _ e he; simp; omega
  have h3 : (Memory.cells (0 + (x ++ y).length) z).filter (fun e => decide (x.length ≤ e.1 ∧ e.1 < x.length + y.length)) = [] := by
    rw [List.filter_eq_nil_iff]; intro e he; have := Memory.cells_key _ _ e he; simp at this ⊢; omega
  rw [h1, h2, h3]
  simpa using spell_cells x.length y

/-- An image over all the banks lies in the scratchpad's bytes in a row. -/
theorem image_words (i : Nat) : imageWord (bitList 32 0xFFFFFFFF) i = i := by
  have h : bitList 32 0xFFFFFFFF = List.range 32 := by decide
  rw [h]
  unfold imageWord
  have h2 : (List.range 32).getD (i % (List.range 32).length) 0 = i % 32 := by
    have : i % 32 < 32 := Nat.mod_lt _ (by decide)
    simp [this]
  rw [h2, List.length_range]
  omega

theorem flat_words (x : Bytes) (k : Nat) : ∀ pre : Bytes, x.length = 8 * k → ∀ j, pre.length = 8 * j →
    ((List.range' j k).flatMap fun w => Memory.readBytes (Memory.cells 0 (pre ++ x)) (8 * w) 8) = x := by
  induction k generalizing x with
  | zero => intro pre h j _; have : x = [] := List.length_eq_zero_iff.mp (by omega); simp [this]
  | succ k ih =>
    intro pre h j hp
    have hx : x = x.take 8 ++ x.drop 8 := (List.take_append_drop 8 x).symm
    have h8 : (x.take 8).length = 8 := by simp; omega
    have hd : (x.drop 8).length = 8 * k := by simp; omega
    have e1 : pre ++ x = pre ++ x.take 8 ++ x.drop 8 := by rw [List.append_assoc, ← hx]
    have e2 := ih (x.drop 8) (pre ++ x.take 8) hd (j + 1) (by simp [hp] at *; omega)
    rw [List.range'_succ, List.flatMap_cons, e1, readBytes_middle pre (x.take 8) (x.drop 8) (8 * j) 8 hp h8, e2, ← hx]

/-- An image of whole words that stands in the scratchpad reads back. -/
theorem image_reads (s : State) (img : Bytes) (k : Nat) (h : img.length = 8 * k) (hm : s.scratch = ⟨Memory.cells 0 img, [], [], []⟩) :
    readImage s 0xFFFFFFFF (8 * k) = some img := by
  have hw : imageWords 0xFFFFFFFF (8 * k) = List.range k := by
    unfold imageWords
    have : (bitList 32 0xFFFFFFFF).isEmpty = false := by decide
    simp only [this]
    have hf : imageWord (bitList 32 0xFFFFFFFF) = id := funext image_words
    rw [hf]
    simp
  unfold readImage
  simp only [hw]
  have hb : (List.range k).any (wordBad s) = false := by
    rw [List.any_eq_false]; intro w _; simp [wordBad, hm, SMap.find?]
  rw [hb]
  have := flat_words img k [] h 0 rfl
  rw [← List.range_eq_range'] at this
  simpa [scratchRead, hm] using this

/-- Ring 0 waits with one command, and every bank is its Marionette's. -/
abbrev bankedState : State := withRing oneWaits (put ((List.range 32).map fun b => (O.bankOwner b, 1)) running)

/-- A working AES-128 key of vault entry 5 in slot 4,095. -/
abbrev heldKey : KeySlot := ⟨1, 1, 1, 5, 0, zeros 16⟩

/-- The device before the bundle; where `c` is set, a search's MAC operation runs with that key. -/
abbrev bundleBase (c : Bool) : State :=
  if c then withSlots [{ search 64 2 .mac with mac := some ⟨zeros 32, 1, zeros 16, 0, 0⟩ }] bankedState else bankedState

/-! A bundle: a REVOKE of vault entry 5. -/

/-- BUNDLE_SUBMIT of it, 180 bytes, in all banks. -/
abbrev submitDesc : Bytes := direct 0x38 (zeros 4 ++ leBytes 4 0xFFFFFFFF ++ leBytes 4 180)

/-- The bytes of the bundle before the device's identity, with counter 1. -/
abbrev bundleHead : Bytes := beBytes 4 0x42525956 ++ [1#8, 0x12#8, 0#8, 0#8]

/-- Between the identity and the signer's key. -/
abbrev bundleMiddle : Bytes := beBytes 8 1 ++ beBytes 4 12 ++ zeros 4

/-- Its payload. -/
abbrev bundleLoad : Bytes := [0#8, 0#8, 0#8, 1#8] ++ zeros 4 ++ [1#8, 0#8, 0#8, 5#8]

/-- The bundle without its signature. -/
def bundleBody (key : Bytes) : Bytes := bundleHead ++ uidBytes ++ bundleMiddle ++ key ++ bundleLoad

/-- The device's keys, with the authority's. -/
abbrev bundleKeys (c : Bool) (key : Bytes) (delivered : List (Bytes × Bytes)) : Keys :=
  { bankedState.keys with
    rootUp := true
    hashes := [(0, sha256 key)]
    slots := if c then [(4095, heldKey)] else []
    vault := { Vault.zero with delivered } }

/-- The device with an authority key, and the bundle in its banks. -/
abbrev submitted (c : Bool) (key sig : Bytes) (delivered : List (Bytes × Bytes)) : State :=
  { bundleBase c with keys := bundleKeys c key delivered, scratch := ⟨Memory.cells 0 (bundleBody key ++ sig ++ zeros 4), [], [], []⟩ }

theorem uid_length : uidBytes.length = 16 := by simp [uidBytes, beBytes, leBytes]

theorem body_length (key : Bytes) (hk : key.length = 64) : (bundleBody key).length = 116 := by
  simp [bundleBody, uid_length, hk, beBytes, leBytes, zeros]

/-- What the first eight bytes of the bundle say. -/
theorem bundle_starts (key x : Bytes) (i n : Nat) (h : i + n ≤ 8) : slice (bundleBody key ++ x) i n = slice bundleHead i n := by
  unfold bundleBody; simp only [List.append_assoc]; exact slice_left bundleHead _ _ _ h

theorem bundle_type (key x : Bytes) : buType (bundleBody key ++ x) = 0x12 := by
  unfold buType u8 le; rw [bundle_starts _ _ _ _ (by decide)]; decide

/-- A field of the bundle in front of its signature. -/
theorem bundle_field (key sig x y z : Bytes) (i n : Nat) (h : bundleBody key = x ++ y ++ z) (hx : x.length = i) (hy : y.length = n) :
    slice (bundleBody key ++ sig) i n = y := by
  rw [h, List.append_assoc]; exact slice_middle _ _ _ _ _ hx hy

/-- The bundle names no sealed table, so that its command waits for none. -/
theorem bundle_seals_none (c : Bool) (key sig : Bytes) (hk : key.length = 64) (hs : sig.length = 64) (del : List (Bytes × Bytes)) :
    readImage (submitted c key sig del) (le submitDesc 12 4) (ceil8 (le submitDesc 16 4)) = some (bundleBody key ++ sig ++ zeros 4) ∧
      sealedKind submitDesc (submitted c key sig del) = (0, 0) := by
  have hl : (bundleBody key ++ sig ++ zeros 4).length = 8 * 23 := by simp [body_length _ hk, hs, zeros]
  have e : le submitDesc 12 4 = 0xFFFFFFFF ∧ ceil8 (le submitDesc 16 4) = 8 * 23 := by decide +kernel
  have r : readImage (submitted c key sig del) (le submitDesc 12 4) (ceil8 (le submitDesc 16 4)) = some (bundleBody key ++ sig ++ zeros 4) := by
    rw [e.1, e.2]; exact image_reads _ _ 23 hl rfl
  refine ⟨r, ?_⟩
  unfold sealedKind
  rw [r, List.append_assoc]
  simp [bundle_type]

theorem sound_keeps {s : State} (k : Keys) (x : Scratch) (hx : Memory.wf x.mem = true) (h : Sound s) : Sound { s with keys := k, scratch := x } := by
  obtain ⟨h1, h2, h3, h4, h5, h6, -, h8⟩ := h
  exact ⟨h1, h2, h3, h4, h5, h6, hx, h8⟩

/-- What a command of this kind needs beside what its descriptor names in its banks. -/
theorem banked_runs (c : Bool) : Runs 0 0x38 (got submitDesc) submitDesc [] (bundleBase c) ∧ Sound (bundleBase c) ∧
    (∀ k ∈ bitList 32 (le submitDesc 12 4), mayAccess (bundleBase c) (1 + (bundleBase c).obj (O.ringExecutor 0)) k = true) ∧
    bundleWaits (bundleBase c) = false ∧ commandRegions submitDesc [] (bundleBase c) = [] := by
  unfold Runs Sound legalMode legalNmt; revert c; decide +kernel

theorem witness_BundlesAndFreshnessComplete_submit (c : Bool) (key sig : Bytes) (hk : key.length = 64) (hs : sig.length = 64) (del : List (Bytes × Bytes)) :
    let s := submitted c key sig del
    Runs 0 0x38 (got submitDesc) submitDesc [] s ∧ Sound s ∧ allZero submitDesc 8 4 = true ∧ allZero submitDesc 20 44 = true ∧
      le submitDesc 16 4 ≤ 1048576 ∧ le submitDesc 16 4 + 184 ≤ imageLimit (le submitDesc 12 4) ∧
      (∀ k ∈ bitList 32 (le submitDesc 12 4), mayAccess s (1 + s.obj (O.ringExecutor 0)) k = true) ∧
      readImage s (le submitDesc 12 4) (ceil8 (le submitDesc 16 4)) = some (bundleBody key ++ sig ++ zeros 4) ∧ bundleWaits s = false ∧
      takenUp 0 submitDesc [] s = setDesc 0 submitDesc [] s := by
  intro s
  obtain ⟨hr, hz⟩ := bundle_seals_none c key sig hk hs del
  have z : allZero submitDesc 8 4 = true ∧ allZero submitDesc 20 44 = true ∧ le submitDesc 16 4 ≤ 1048576 ∧
      le submitDesc 16 4 + 184 ≤ imageLimit (le submitDesc 12 4) ∧ dsOpcode submitDesc = 0x38 := by decide +kernel
  obtain ⟨z1, z2, z3, z4, op⟩ := z
  obtain ⟨⟨h1, h2, h3, h4, h5, h6, h7, h8, h9, h10, -, -, h13⟩, hs', ha, hw, hc⟩ := banked_runs c
  have wk : wakesDrowse submitDesc [] s = false := by unfold wakesDrowse; rw [op, hz]; rfl
  have se : serialized 0 submitDesc [] s = false := by unfold serialized bundleRegions; rw [op, hz]; rfl
  refine ⟨⟨h1, h2, h3, h4, h5, h6, h7, h8, h9, h10, fun h => (by rw [wk] at h; cases h), se, h13⟩, sound_keeps _ _ (Memory.wf_cells 0 _) hs',
    z1, z2, z3, z4, ha, hr, hw, ?_⟩
  unfold takenUp
  have : wakesDrowse submitDesc [] (setDesc 0 submitDesc [] s) = false := by
    have k : sealedKind submitDesc (setDesc 0 submitDesc [] s) = sealedKind submitDesc s := rfl
    unfold wakesDrowse; rw [op, k, hz]; rfl
  exact if_neg (by rw [this]; decide)

theorem bundle_facts (key sig : Bytes) (hk : key.length = 64) (hs : sig.length = 64) (s : State)
    (hh : authorityHash? s = some (sha256 key)) (he : epochNow s = 0) (hv : ecdsaVerify key (bundleBody key) sig = true) :
    let b := bundleBody key ++ sig
    bundleFormatOk b = true ∧ bundleOrigin b s = none ∧ buCounter b = 1 ∧ buScope b = 0 ∧ buCount b = 1 ∧ buItems b = [1#8, 0#8, 0#8, 5#8] := by
  have hu := uid_length
  have hb := body_length key hk
  have l24 : (bundleHead ++ uidBytes).length = 24 := by simp [hu, beBytes, leBytes]
  have inMid : ∀ i n, i + n ≤ 16 → slice (bundleBody key ++ sig) (24 + i) n = slice bundleMiddle i n := fun i n h => by
    have e : bundleBody key ++ sig = (bundleHead ++ uidBytes) ++ (bundleMiddle ++ (key ++ bundleLoad ++ sig)) := by simp [bundleBody]
    have d : ∀ k, (bundleBody key ++ sig).drop (24 + k) = (bundleMiddle ++ (key ++ bundleLoad ++ sig)).drop k := fun k => by
      rw [e, List.drop_append, ← l24]; simp
    have := slice_left bundleMiddle (key ++ bundleLoad ++ sig) i n h
    rw [← this]; unfold slice; rw [d]
  have uid : slice (bundleBody key ++ sig) 8 16 = uidBytes :=
    bundle_field key sig bundleHead _ (bundleMiddle ++ key ++ bundleLoad) _ _ (by simp [bundleBody]) (by decide) hu
  have kk : buKey (bundleBody key ++ sig) = key :=
    bundle_field key sig (bundleHead ++ uidBytes ++ bundleMiddle) _ bundleLoad _ _ (by simp [bundleBody]) (by rw [List.length_append, l24]; rfl) hk
  have py : slice (bundleBody key ++ sig) 104 12 = bundleLoad :=
    bundle_field key sig (bundleHead ++ uidBytes ++ bundleMiddle ++ key) _ [] _ _ (by simp [bundleBody])
      (by rw [List.length_append, List.length_append, l24, hk]; rfl) (by decide)
  have z4 : slice (bundleBody key ++ sig) 108 4 = zeros 4 :=
    bundle_field key sig (bundleHead ++ uidBytes ++ bundleMiddle ++ key ++ [0#8, 0#8, 0#8, 1#8]) _ [1#8, 0#8, 0#8, 5#8] _ _
      (by simp [bundleBody]) (by rw [List.length_append, List.length_append, List.length_append, l24, hk]; rfl) (by decide)
  have len : (bundleBody key ++ sig).length = 180 := by simp [hb, hs]
  have ep : buEpoch (bundleBody key ++ sig) = 0 := by unfold buEpoch u8 le; rw [bundle_starts _ _ _ _ (by decide)]; decide
  have pl : be (bundleBody key ++ sig) 32 4 = 12 := by unfold be; rw [inMid 8 4 (by decide)]; decide
  have z1 : be (bundleBody key ++ sig) 36 4 = 0 := by unfold be; rw [inMid 12 4 (by decide)]; decide
  have z2 : be (bundleBody key ++ sig) 108 4 = 0 := by unfold be; rw [z4]; decide
  have m : be (bundleBody key ++ sig) 0 4 = 0x42525956 := by unfold be; rw [bundle_starts _ _ _ _ (by decide)]; decide
  have v : u8 (bundleBody key ++ sig) 4 = 1 := by unfold u8 le; rw [bundle_starts _ _ _ _ (by decide)]; decide
  have w : u8 (bundleBody key ++ sig) 7 = 0 := by unfold u8 le; rw [bundle_starts _ _ _ _ (by decide)]; decide
  have pp : buPayload (bundleBody key ++ sig) = bundleLoad := by unfold buPayload; rw [pl, py]
  refine ⟨?_, ?_, ?_, ?_, ?_, ?_⟩
  · unfold bundleFormatOk; simp only [bundle_type, pl, z1, z2, m, v, w, len]; decide
  · unfold bundleOrigin
    have n : 180 - 64 = (bundleBody key).length := by rw [hb]
    have i1 : (bundleBody key ++ sig).take ((bundleBody key ++ sig).length - 64) = bundleBody key := by rw [len, n]; simp
    have i2 : (bundleBody key ++ sig).drop ((bundleBody key ++ sig).length - 64) = sig := by rw [len, n]; simp
    simp only [uid, kk, bundle_type, ep, i1, i2, hv]
    simp [hh, he]
  · unfold buCounter be; rw [inMid 0 8 (by decide)]; decide
  · unfold buScope; rw [pp]; decide
  · unfold buCount; rw [pp]; decide
  · unfold buItems; rw [pp]; decide

/-- What the arbiter counts touches no key, no flash and no search. -/
theorem contend_keeps (m : Nat) (bs : List Nat) (w : Bool) (s : State) :
    (contend m bs w s).keys = s.keys ∧ (contend m bs w s).flash = s.flash ∧ (contend m bs w s).jack = s.jack ∧
      (contend m bs w s).headgate = s.headgate := by
  unfold contend
  induction bs generalizing s with
  | nil => exact ⟨rfl, rfl, rfl, rfl⟩
  | cons b bs ih =>
    have one : (contendAt m w s b).keys = s.keys ∧ (contendAt m w s b).flash = s.flash ∧ (contendAt m w s b).jack = s.jack ∧
        (contendAt m w s b).headgate = s.headgate := by
      unfold contendAt onScratch drawFresh
      dsimp only
      repeat' split
      all_goals exact ⟨rfl, rfl, rfl, rfl⟩
    obtain ⟨h1, h2, h3, h4⟩ := ih (contendAt m w s b)
    exact ⟨h1.trans one.1, h2.trans one.2.1, h3.trans one.2.2.1, h4.trans one.2.2.2⟩

theorem set_slots (n : Nat) (v : KeySlot) (s : State) : (setKeySlot n v s).keys.slots = SMap.set KeySlot.empty s.keys.slots n v := rfl

/-- The revocation applies; where a MAC operation runs with a key that it marks, it waits for that. -/
theorem bundle_applies (c : Bool) (key sig : Bytes) (hk : key.length = 64) (hs : sig.length = 64)
    (hv : ecdsaVerify key (bundleBody key) sig = true) :
    let b := bundleBody key ++ sig
    let u := contend 3 (bitList 32 (le submitDesc 12 4)) true (setDesc 0 submitDesc [] (submitted c key sig []))
    if c then ∃ j t, submitBundle b u = .job j t else ∃ rc t, submitBundle b u = .accepted rc t := by
  intro b u
  have len : b.length = 180 := by simp [b, body_length _ hk, hs]
  obtain ⟨k1, k2, k3, k4⟩ := contend_keeps 3 (bitList 32 (le submitDesc 12 4)) true (setDesc 0 submitDesc [] (submitted c key sig []))
  have a1 : u.keys = bundleKeys c key [] := k1
  have a2 : u.flash.manifests = [] := by show (contend _ _ _ _).flash.manifests = []; rw [k2]; cases c <;> rfl
  have a3 : u.jack.opened = false := by show (contend _ _ _ _).jack.opened = false; rw [k3]; cases c <;> rfl
  have a4 : u.headgate.slots = (bundleBase c).headgate.slots := congrArg Headgate.slots k4
  clear_value u
  have ha : authorityHash? u = some (sha256 key) := by unfold authorityHash? epochNow; rw [a1]; rfl
  obtain ⟨f1, f2, f3, f5, f6, f7⟩ := bundle_facts key sig hk hs u ha (by unfold epochNow; rw [a1]; rfl) hv
  have f4 : buType b = 0x12 := bundle_type key sig
  have g : bundleGate b u = false := by
    unfold bundleGate commissioned
    simp only [f4, ha, a1, a3]; rfl
  have e : manifestEntries u = [] := by unfold manifestEntries liveManifest; rw [a2]; rfl
  have mf : manifestFits b u = true := by
    simp only [manifestFits, manifestWith, e, storeBytes]
    simp [packStore, len, ceil8]
  have sub : submitBundle b u = match applyPayload false b u with
      | .bad d => rejectBundle b d u
      | .wait => .wait
      | .absent => .absent
      | .ok s' => accepted b s'
      | .job j s' => sealJob b j s' := by
    have d : u.keys.vault.delivered = [] ∧ u.keys.vault.counter = 0 := by rw [a1]; exact ⟨rfl, rfl⟩
    have f1' : bundleFormatOk b = true := f1
    have f2' : bundleOrigin b u = none := f2
    have f3' : buCounter b = 1 := f3
    simp only [submitBundle, f1', f2', d, f3', g, mf]
    cases applyPayload false b u <;> rfl
  have e0 : (vaultEntry u 5).state = 0 := by unfold vaultEntry; rw [a1]; rfl
  have sl : u.keys.slots = if c then [(4095, heldKey)] else [] := by rw [a1]
  have go : applyPayload false b u =
      (let t := revokeEntry 5 1 u
       let marked := (u.keys.slots.filter fun k => k.2.state == 1 && (SMap.get KeySlot.empty t.keys.slots k.1).state == 2).map (·.2.key)
       if fenceHeld marked t then .job { ChainJob.none with fence := marked } t else .ok t) := by
    have f3' : buCounter b = 1 := f3
    have f5' : buScope b = 0 := f5
    have f6' : buCount b = 1 := f6
    have f7' : buItems b = [1#8, 0#8, 0#8, 5#8] := f7
    unfold applyPayload applyRevoke
    simp only [f3', f4, f5', f6', f7']
    rfl
  cases c with
  | false =>
    have rv : revokeEntry 5 1 u = u := by unfold revokeEntry; simp [e0, sl]
    have ap : ∃ t, applyPayload false b u = .ok t := ⟨u, by rw [go, rv, sl]; simp [fenceHeld]⟩
    obtain ⟨t, ht⟩ := ap
    rw [sub, ht]
    exact ⟨_, _, rfl⟩
  | true =>
    have rv : revokeEntry 5 1 u = setKeySlot 4095 { heldKey with state := 2, key := [] } u := by
      unfold revokeEntry; simp [e0, sl, revokeSlot]
    have ap : ∃ j t, applyPayload false b u = .job j t ∧ fenceHeld j.fence t = true ∧ j.fence ≠ [] := by
      have hf : fenceHeld [zeros 16] (setKeySlot 4095 { heldKey with state := 2, key := [] } u) = true := by
        show (u.headgate.slots.any _) = true; rw [a4]; decide +kernel
      refine ⟨{ ChainJob.none with fence := [zeros 16] }, setKeySlot 4095 { heldKey with state := 2, key := [] } u, ?_, hf, by simp⟩
      have ks : (setKeySlot 4095 { heldKey with state := 2, key := [] } u).keys.slots = [(4095, { heldKey with state := 2, key := [] })] := by
        rw [set_slots, sl]; decide +kernel
      have mk : (([(4095, heldKey)] : SMap KeySlot).filter fun k => k.2.state == 1 &&
          (SMap.get KeySlot.empty [(4095, { heldKey with state := 2, key := [] })] k.1).state == 2).map (·.2.key) = [zeros 16] := by decide +kernel
      rw [go, rv]
      simp only [sl, ks, if_true, mk, hf]
    obtain ⟨j, t, ht, hf, hn⟩ := ap
    rw [sub, ht]
    have r : runJob { j with bundle := b } t = ({ j with bundle := b }, t) := by unfold runJob; simp [hf]
    refine ⟨{ j with bundle := b }, t, ?_⟩
    simp [sealJob, r, ChainJob.over, hn]

theorem witness_BundlesAndFreshnessComplete_accepted (c : Bool) (key sig : Bytes) (hk : key.length = 64) (hs : sig.length = 64)
    (hv : ecdsaVerify key (bundleBody key) sig = true) :
    let s := submitted c key sig []
    let b := bundleBody key ++ sig
    let u := contend (3 + s.obj (O.ringExecutor 0)) (bitList 32 (le submitDesc 12 4)) true (takenUp 0 submitDesc [] s)
    (b ++ zeros 4).take (le submitDesc 16 4) = b ∧
      if c then ∃ j t, submitBundle b u = .job j t else ∃ rc t, submitBundle b u = .accepted rc t := by
  intro s b u
  have len : b.length = 180 := by simp [b, body_length _ hk, hs]
  have e : le submitDesc 16 4 = 180 := by decide +kernel
  have h : u = contend 3 (bitList 32 (le submitDesc 12 4)) true (setDesc 0 submitDesc [] s) := by
    obtain ⟨-, -, -, -, -, -, -, -, -, ht⟩ := witness_BundlesAndFreshnessComplete_submit c key sig hk hs []
    have x : s.obj (O.ringExecutor 0) = 0 := (by decide +kernel : ∀ c, (bundleBase c).obj (O.ringExecutor 0) = 0) c
    show contend _ _ _ (takenUp 0 submitDesc [] s) = _
    rw [ht, x]
  exact ⟨by rw [e, ← len, List.take_left], by rw [h]; exact bundle_applies c key sig hk hs hv⟩

theorem witness_BundlesAndFreshnessComplete_delivered (c : Bool) (key sig rc : Bytes) (hk : key.length = 64) (hs : sig.length = 64)
    (hv : ecdsaVerify key (bundleBody key) sig = true) :
    let b := bundleBody key ++ sig
    let s := submitted c key sig [(sha256 b, rc)]
    bundleFormatOk b = true ∧ bundleOrigin b s = none ∧ s.keys.vault.delivered.find? (fun x => x.1 == sha256 b) = some (sha256 b, rc) := by
  obtain ⟨f1, f2, -⟩ := bundle_facts key sig hk hs (submitted c key sig [(sha256 (bundleBody key ++ sig), rc)]) rfl rfl hv
  exact ⟨f1, f2, by simp⟩

/-- Profile 255 on the freshness counters 0 to 7 of the store `n`: AES-CMAC. -/
abbrev freshState (n : Nat) : State :=
  put [(O.authProfile 255, leNat ([BitVec.ofNat 8 (0x20 + 8 * n)] ++ zeros 11 ++ 3#8 :: zeros 19))] running

theorem witness_BundlesAndFreshnessComplete :
    (bundleFormatOk (zeros 180) = false ∧ readImage bankedState (le submitDesc 12 4) (ceil8 (le submitDesc 16 4)) = some (zeros 184)) ∧
    (255 < 256 ∧ (freshState 1).dict.kept = [] ∧ writable .pcie O.freshnessReset [255#8] (freshState 1) = true ∧
      profileSealed (freshState 1) 255 = false ∧ apDefined (authProfileIn (freshState 1).dict.live 255) = true ∧
      apStore (authProfileIn (freshState 1).dict.live 255) = 1) ∧
    (apStore (authProfileIn (freshState 0).dict.live 255) = 0 ∧ apDefined (authProfileIn (freshState 0).dict.live 255) = true ∧
      profileSealed (freshState 0) 255 = false ∧ Quiet (freshState 0) ∧ (∀ x ∈ (freshState 0).coh.redirects, 0x38000 ≤ x.2) ∧
      (apRange (authProfileIn (freshState 0).dict.live 255)).1 + (apRange (authProfileIn (freshState 0).dict.live 255)).2 ≤ 65536 ∧ (freshState 0).coh.caches = [] ∧
      writable .pcie O.freshnessReset [255#8] (freshState 0) = true) ∧
    (writable .can O.freshnessReset [0#8] running = true ∧ profileSealed running 0 = false ∧
      apDefined (authProfileIn running.dict.live 254) = false ∧ writable .can O.freshnessReset [254#8] running = true) ∧
    (let s : State := { running with dict := { running.dict with sealedBy := [(O.authProfile 255, 1)] } }
     profileSealed s 255 = true ∧ writable .pcie O.freshnessReset [255#8] s = true) ∧
    (running.power.core = true ∧ running.modes.fillEnded = true ∧ running.keys.rootUp = false ∧
      keyed.power.core = true ∧ keyed.modes.fillEnded = true ∧ keyed.keys.rootUp = true) := by
  unfold Quiet; refine ⟨?_, ?_, ?_, ?_, ?_, ?_⟩ <;> decide +kernel

/-! ### Rows that stand alone -/

theorem witness_RowsOfStartPairHostAndCareComplete :
    (filling.power.core = true ∧ filling.modes.halted = false ∧ bit filling.modes.refLost 5 = false ∧ filling.modes.rootDone = false ∧
      filling.modes.fillDone = false ∧
      (let s := inModes (fun m => { m with fillEnded := false, classReady := 0 }) running
       s.power.core = true ∧ s.modes.halted = false ∧ bit s.modes.refLost 5 = false ∧ s.modes.ready = true ∧ s.modes.fillEnded = false) ∧
      (let s := inModes (fun m => { m with classReady := 0 }) running
       s.power.core = true ∧ s.modes.halted = false ∧ bit s.modes.refLost 5 = false ∧ s.modes.fillEnded = true ∧ bit s.modes.classReady 0 = false) ∧
      (let s := inModes (fun m => { m with classReady := 1 }) running
       s.power.core = true ∧ bit s.modes.classReady 0 = true ∧ bit s.modes.classReady 1 = false)) ∧
    (pairState pairing = 1 ∧ culvertUp pairing = true ∧ pairedAs 1 (paired 1) = true ∧ culvertUp (paired 1) = true ∧ pairedAs 2 (paired 2) = true ∧
      (let s := onPair (fun p => { p with doneSeq := 3, digests := [(3, [])] }) (paired 1)
       pairedAs 1 s = true ∧ culvertUp s = true ∧ s.pair.digests.find? (fun x => x.1 == s.pair.doneSeq) = some (3, [])) ∧
      pairing.val O.culvertLinkState ≠ 0 ∧ pairState pairing ≠ 2 ∧
      (let s := put [(O.culvertLinkState, 4), (O.pairState, 3)] running
       s.power.core = true ∧ s.val O.culvertLinkState ≠ 0 ∧ culvertUp s = false ∧ s.modes.halted = false ∧ bit s.modes.refLost 1 = false)) ∧
    (let s := requesting 1 false
     let b := Memory.readBytes s.mailbox.request 0 4096
     let q := requestOf b
     Sound s ∧ served .pcie s = true ∧ s.mailbox.busy = false ∧ requestOk b q = true ∧ q.op = 1 ∧
       readChecked q.index q.sub q.offset s = .inr [0xE8#8, 3#8]) ∧
    (let s := put [(O.drowseExitMax, 9)] running
     Sound s ∧ served .can s = true ∧ readChecked (O.drowseExitMax / 256) (O.drowseExitMax % 256) 0 s = .inr (leBytes 2 9) ∧
       clearedByReading (objKey (O.drowseExitMax / 256) (O.drowseExitMax % 256)) = true ∧ 63 < 64 ∧
       readChecked (O.lastFailedKey 63 / 256) (O.lastFailedKey 63 % 256) 0 s = .inr (zeros 40) ∧ s.power.core = true ∧
       bit s.modes.refLost 3 = false ∧ endpointPowered s = true ∧ (⟨false, 0xFFF8, 8, [], false⟩ : BarAccess).offset + 8 ≤ 0x10000) ∧
    (let s := withScrub 0 { RegionScrub.off with pos := 4095 } running
     Sound s ∧ scrubbable s 0 = true ∧ regionUnits s 0 ≠ 0 ∧ s.obj (O.scrubMode 0) = 0 ∧ unitOf 0 5 < 8192) ∧
    (let s := put [(O.scrubMode 15, 1)] { running with integ := { running.integ with merge := [⟨63, 5, 1⟩] } }
     Sound s ∧ scrubbable s 15 = true ∧ regionUnits s 15 ≠ 0 ∧ s.obj (O.scrubMode 15) = 1 ∧ yoyoAllowed 15 = true ∧
       (scrubOf s 15).topFinishes = false ∧ mergeOf s 63 5 = some ⟨63, 5, 1⟩) ∧
    (let s := withScrub 2 { RegionScrub.off with weak := [(7, 1)] } running
     Sound s ∧ scrubbable s 2 = true ∧ (7, 1) ∈ (scrubOf s 2).weak ∧ wordMarked s 7 = false) := by
  unfold Sound legalMode legalNmt; refine ⟨?_, ?_, ?_, ?_, ?_, ?_, ?_⟩ <;> decide +kernel

/-- An image that the device's root signed is the one that runs. -/
theorem witness_RowsOfStartPairHostAndCareComplete_verified (sig : Bytes) (h : sig.length = 64)
    (hv : ecdsaVerify (beBytes 64 Config.nymmecyRootKey.toNat) header sig = true) :
    let s := { inModes (fun m => { m with rootDone := true, fillDone := true }) filling with flash := ⟨header ++ sig ++ [0#8], [], [], [], [], [], 0, 0⟩ }
    s.power.core = true ∧ s.modes.halted = false ∧ bit s.modes.refLost 5 = false ∧ s.modes.fillDone = true ∧ s.modes.rootDone = true ∧
      s.modes.ready = false ∧ ∃ x, chosenSlot s = some x := by
  obtain ⟨a, b, c, d, e, f, g⟩ := witness_StartStagesComplete_verified sig h hv
  exact ⟨a, b, c, d, e, f, _, g⟩

/-! ### Ill-formed commands -/

/-- A fetch that brings nothing. -/
abbrev noFetch : Fetch := ⟨none, none, true, true⟩

/-- A parcel of nothing. -/
abbrev noParcel : Parcel := ⟨0, [], [], 0, false⟩

/-- The SLEW setting, NodeId, chain position, rail, domain and paces of Tables 19-2, 2-2 and R11, R16. -/
theorem test_wf_refuses_supplies : ([.vauxRise 4, .pwrGoodAssert 128 false 0, .pwrGoodAssert 1 false 4, .supplyRangeTimer 0, .supplyRangeTimer 10,
    .referenceLost 0, .referenceLost 10, .paceUpdate 65536 0 0 0, .paceUpdate 0 65536 0 0, .paceUpdate 0 0 65536 0,
    .paceUpdate 0 0 0 65536] : List Instr).all (fun i => !i.wf) = true := by decide

/-- Links 0 to 7, lanes 0 and 1, classes 1 to 3, slots 0 to 255 and the Flume's 0 to 63. -/
theorem test_wf_refuses_links_and_slots : ([.dataParcelReceived 8 noParcel, .nullParcelReceived 8 noParcel, .payloadTimeout 8 1 0, .payloadTimeout 0 0 0,
    .payloadTimeout 0 4 0, .replayTimer 8, .laneLost 8 0, .laneLost 0 2, .linkUp 8 ⟨1, false, false, 2, true, 0, 0, 0⟩, .creditTokenTimer 8,
    .searchRun 256, .macOperationDone 256, .resultTokenSend 8 1 0, .resultTokenSend 0 0 0, .resultTokenSend 0 4 0,
    .chainTimeoutA 64, .chainTimeoutBc 256, .linkRetrain .can 8, .linkDiscardHeld .can 8, .resultDigest 8 false 0, .compareTimeout 8]
    : List Instr).all (fun i => !i.wf) = true := by decide

/-- Home slices, meters, table slices, tables, quarters, blocks and store granules. -/
theorem test_wf_refuses_tables : ([.counterFetchAdd 16, .meterIdleRefresh true 16384, .meterIdleRefresh false 131072, .learnApply 16, .refresh 16,
    .agingSweepRead 64, .ageDelete 16, .lastFailedKeyRead .can 64, .blockPowerDown 4 0, .blockPowerDown 0 8, .drainMarkerDone 16,
    .poisonRepair 6 0, .poisonRepair 0 (2 ^ 21), .poisonRepair 1 16384,
    .poisonRepair 2 16384, .poisonRepair 3 524288, .poisonRepair 4 32768, .poisonRepair 5 (2 ^ 21), .write 0 4 0 0, .write 0 0 8192 0, .writeAck 0 4 0,
    .writeAck 0 0 8192] : List Instr).all (fun i => !i.wf) = true := by decide

/-- Clients, TPDOs, objects, banks and the values of one-byte, four-byte and eight-byte objects. -/
theorem test_wf_refuses_objects : ([.usdoRequest 0 .uploadSegment, .usdoRequest 128 .uploadSegment, .tpdoEventTimer 16, .commit .can 256,
    .discardStaging .can 256, .stagingLock .can 256, .objectWrite .can 65536 0 [], .objectWrite .can 0 256 [], .peakReadClear .can 65536 0,
    .peakReadClear .can 0 256, .bankOwner .can 32 0, .bankOwner .can 0 256, .bankHandover .can (2 ^ 64), .bankCode .can 32 0,
    .bankCode .can 0 256, .freshnessReset .can 256 0, .freshnessReset .can 0 256, .sealNow .can 256, .advance .can 256 0,
    .advance .can 0 65536, .cursor .can (2 ^ 64), .tamperClear .can 256, .marionetteHalt .can 256, .traceControl .can (2 ^ 32),
    .hostRequest .can (2 ^ 64), .sleepAck .can (2 ^ 64), .sourceMaskClear .can 256, .promote .can 256, .pairRelease .can 256]
    : List Instr).all (fun i => !i.wf) = true := by decide

/-- Rings 0 to 7. -/
theorem test_wf_refuses_rings : ([.ringEnable 8, .ringDisable 8, .producerIndex 8 0, .haltRetry 8 noFetch, .haltSkip 8, .tcamInsert 8 noFetch,
    .tcamDelete 8 noFetch, .tcamModifyResult 8 noFetch, .trieAdd 8 noFetch, .trieDelete 8 noFetch, .bucketInsert 8 noFetch,
    .bucketDelete 8 noFetch, .bucketUpdate 8 noFetch, .resultWrite 8 noFetch, .meterConfigure 8 noFetch, .counterReadClear 8 noFetch,
    .flowFlush 8 noFetch, .fence 8 noFetch, .fenceTimeout 8, .bulkLoad 8 noFetch, .tableDump 8 noFetch, .bundleSubmit 8 noFetch]
    : List Instr).all (fun i => !i.wf) = true := by decide

/-- Agents 0 to 14, requesters 0 to 63 and lines 0 to 2^18 − 1. -/
theorem test_wf_refuses_agents : ([.rds 15 0, .rdo 15 0, .upg 15 0, .wbd 15 ⟨0, 0⟩, .evc 15 0, .cmp 15 0, .rdh 15 0 0, .rdh 64 0 0, .wrh 64 0 0 [],
    .atm 64 ⟨0, 0⟩ ⟨false, .fetchAdd 0 0⟩, .snpData 15 ⟨0, 0⟩ 0, .snpOwn 15 ⟨0, 0⟩ 0, .snpInv 15 ⟨0, 0⟩, .snpRecall 15 ⟨0, 0⟩ false, .dataFwd 15 ⟨0, 0⟩, .rspI 15 0, .rspFwd 15 0,
    .rspFwdData 15 ⟨0, 0⟩, .rspData 15 ⟨0, 0⟩, .rspEvInFlight 15 0, .dataH 15 ⟨0, 0⟩, .grant 15 0, .nack 64 0, .nackRetry 64 0, .atmRsp 64 0, .wrAck 64 0,
    .rdRsp 64 0, .evAck 15 0, .capacityEviction 15 ⟨0, 0⟩, .holdEnd 15 0, .snoopTimeout 15 0] : List Instr).all (fun i => !i.wf) = true := by decide

/-- The same commands name no line beyond the Reservoir. -/
theorem test_wf_refuses_lines : ([.rds 0 262144, .rdo 0 262144, .upg 0 262144, .wbd 0 ⟨262144, 0⟩, .evc 0 262144, .cmp 0 262144, .rdh 16 262144 0,
    .wrh 16 262144 0 [], .atm 16 ⟨262144, 0⟩ ⟨false, .fetchAdd 0 0⟩, .atm 16 ⟨0, 4⟩ ⟨false, .fetchAdd 0 0⟩, .snpData 0 ⟨262144, 0⟩ 0, .snpOwn 0 ⟨262144, 0⟩ 0, .snpInv 0 ⟨262144, 0⟩, .snpRecall 0 ⟨262144, 0⟩ false,
    .dataFwd 0 ⟨262144, 0⟩, .rspI 0 262144, .rspFwd 0 262144, .rspFwdData 0 ⟨262144, 0⟩, .rspData 0 ⟨262144, 0⟩, .rspEvInFlight 0 262144, .dataH 0 ⟨262144, 0⟩,
    .grant 0 262144, .nack 0 262144, .nackRetry 0 262144, .atmRsp 0 262144, .wrAck 0 262144, .rdRsp 0 262144, .evAck 0 262144,
    .capacityEviction 0 ⟨262144, 0⟩, .holdEnd 0 262144, .snoopTimeout 0 262144, .transactionTimeout 262144]
    : List Instr).all (fun i => !i.wf) = true := by decide

/-- Scrub regions, merge buffers, tamper sources, wake pins, wake sources, PNs and wake timers. -/
theorem test_wf_refuses_care_and_wake : ([.topScrubVisit 18 .clean, .outOfTurnScrub 18 0 .clean, .yoyoScrub 18 .clean, .yoyoLapTimeout 18,
    .weakWordRetest 18 0 false, .mergeEntryRetire 64 0, .tamperAlarm 13, .wakePinActive 8, .wakePinRelease 8, .wakeHit 15, .wakeHit 128,
    .sourceHoldExpired 128, .wakeSettleExpired 64, .holdTimeExpired 64, .ackTimeoutExpired 64, .gateStepExpired 64, .latchedRewake 64,
    .sourceMaxAwake 128 0, .sourceMaxAwake 0 64, .pnMaxAwake 64, .wakeTimer 4] : List Instr).all (fun i => !i.wf) = true := by decide

/-- A command that names no unit that exists is the fault. -/
theorem test_ill_formed_faults : exec (.ringEnable 8) State.reset = .fault .noSuchUnit := rfl

/-- No row of the table has bits. -/
theorem test_decode_reads_no_word (nbits w : Nat) : decodeTableWord nbits w = none := rfl

/-- A word that spells no command is not queued. -/
theorem test_withFetchWord_queues_nothing (nbits w : Nat) : State.reset.withFetchWord nbits w = State.reset := rfl

/-! ### Single steps -/

/-- The state that a step leaves, or the state before it. -/
abbrev after (c : Instr) (s : State) : State :=
  match step { s with pending := [c] } with
  | .next t => t
  | _ => s

/-- Table 18-1, R412: VAUX_RISE enters Sleep, mode 0x08, with PWR_HOLD asserted. -/
theorem test_vauxRise_sleeps : (after (.vauxRise 1) State.reset).modes.mode = 8 ∧ (after (.vauxRise 1) State.reset).sluice.pwrHold = true := by
  decide

/-- R29: the NMT start command puts the port in Operational, heartbeat state byte 0x05. -/
theorem test_nmtStart_operational : (after .nmtStart { running with can := { running.can with nmt := 0x7F } }).can.nmt = 5 := by decide

/-- R413: PWR_GOOD's fall stops the core. -/
theorem test_pwrGoodDeassert_stops : (after .pwrGoodDeassert running).power.core = false := by decide +kernel

end Sys2Proof.Tests
end

section
/-! PROOFS. A step: the front command, or a nanosecond (O1). -/

namespace Sys2Proof.Machine

/-! ### With no command waiting: a nanosecond passes -/

/-- What a nanosecond may change besides the clock: all but the supplies, the mailbox, Jack and the queue. -/
def restless : List Part :=
  [.wakes, .modes, .mode, .faults, .drowse, .busy, .live, .dict, .can, .keys, .vault, .flash, .tally, .tamper, .sluice, .endpoint, .rings,
   .scratch, .integ, .coh, .results, .buckets, .tcam, .furrow, .links, .slots, .headgate, .pair, .chain, .fresh, .out]

/-- The state a nanosecond later. -/
def State.later (s : State) : State := { s with clock := { s.clock with wall := s.clock.wall + 1 } }

/-- The TPDOs whose inhibit time has ended are sent, and what waits is tried again. -/
def tryAgain (s : State) : State :=
  let s := if s.can.tpdoDue = 0 then s else (bitList 16 s.can.tpdoDue).foldl settleTpdo s
  if s.power.core then resumeWaiting s else s

theorem tick_eq (s : State) : s.tick = tryAgain (judgeDomain s).later := rfl

theorem judgeDomain_restless (s : State) : Within restless s (judgeDomain s) := judgeDomain_within s (by decide) (within_refl _ s)

theorem tryAgain_restless (s : State) : Within restless s (tryAgain s) := by
  have sent : Within restless s (if s.can.tpdoDue = 0 then s else (bitList 16 s.can.tpdoDue).foldl settleTpdo s) :=
    within_ite (fun _ => within_refl _ s)
      fun _ => within_foldl (fun t m h => settleTpdo_within t m (by decide) h) (within_refl _ s)
  exact within_ite (fun _ => resumeWaiting_within _ (by decide) sent) fun _ => sent

/-! Where nothing waits, trying again changes nothing. -/

theorem foldl_fixed_of_mem {α β : Type} {f : β → α → β} {b : β} {l : List α} (h : ∀ a ∈ l, f b a = b) : l.foldl f b = b := by
  induction l with
  | nil => rfl
  | cons a l ih =>
    rw [List.foldl_cons, h a List.mem_cons_self]
    exact ih fun a m => h a (List.mem_cons_of_mem _ m)

/-- Ring `r` has no Skip and no command that passing time could let go on: `AtRest`, of one ring. -/
def RingAtRest (s : State) (r : Nat) : Prop :=
  (ringAt s r).skip = false ∧ ((ringAt s r).waiting = none ∨ ∃ ts sl, (ringAt s r).waiting = some (.fence ts sl))

theorem skipWaiting_atRest {s : State} {r : Nat} (h : RingAtRest s r) : skipWaiting s r = s := by
  unfold skipWaiting; rw [h.1]; rfl

theorem retryHeld_atRest {s : State} {r : Nat} (h : RingAtRest s r) : retryHeld s r = s := by
  unfold retryHeld
  obtain ⟨-, e | ⟨ts, sl, e⟩⟩ := h <;> rw [e]

theorem resumeRings_atRest {s : State} (h : ∀ r < 8, RingAtRest s r) : resumeRings s = s :=
  foldl_fixed_of_mem fun r hr => retryHeld_atRest (h r (List.mem_range.mp hr))

theorem judgeRing_undiscovered {s : State} (h : s.val O.chainState ≠ 1) : judgeRing s = s := if_pos (.inl h)

theorem resumeChain_atRest {s : State} (h : ∀ r < 8, RingAtRest s r) (hw : s.pair.chainWrites = []) (hc : s.val O.chainState ≠ 1)
    (ho : s.chain.rewrite.over = true) : resumeChain s = s := by
  unfold resumeChain
  split
  · rfl
  · extract_lets a b
    have ha : a = s := foldl_fixed_of_mem fun r hr => by
      obtain ⟨-, e | ⟨ts, sl, e⟩⟩ := h r (List.mem_range.mp hr) <;> rw [e]
    have hb : b = s := by
      unfold b; rw [ha, hw]; rfl
    rw [hb, if_neg (by simp [ho])]
    exact judgeRing_undiscovered hc

theorem resumeWaiting_atRest {s : State} (h : ∀ r < 8, RingAtRest s r) (hh : s.pair.held = []) (hw : s.pair.chainWrites = [])
    (hc : s.val O.chainState ≠ 1) (ho : s.chain.rewrite.over = true) : resumeWaiting s = s := by
  unfold resumeWaiting
  simp only [hh, List.foldl_nil, resumeChain_atRest h hw hc ho, resumeRings_atRest h]
  exact foldl_fixed_of_mem fun r hr => skipWaiting_atRest (h r (List.mem_range.mp hr))

theorem tick_atRest {s : State} (h : AtRest s) : s.tick = s.later := by
  obtain ⟨hi, hd, hcore⟩ := h
  have judged : judgeDomain s = s := by unfold judgeDomain; rw [hi]
  rw [tick_eq, judged]
  unfold tryAgain
  rw [if_pos (show s.later.can.tpdoDue = 0 from hd)]
  show (if s.power.core = true then resumeWaiting s.later else s.later) = s.later
  split
  · obtain ⟨hr, hh, hw, hc, ho⟩ := hcore ‹_›
    exact resumeWaiting_atRest hr hh hw hc ho
  · rfl

/-- Settles O1: the front command by the definition of a step; a nanosecond by the frames of what it tries again. -/
theorem stepRunsTheFrontCommand : Obligations.StepRunsTheFrontCommand := by
  refine ⟨fun s c rest h => by unfold step; rw [h], fun s h => ?_⟩
  have ticks : step s = .next s.tick := by unfold step; rw [h]
  refine ⟨⟨s.tick, ticks, ?_⟩, fun hr => by rw [ticks, tick_atRest hr]; rfl⟩
  obtain ⟨f, -, hp, -, -, -, ho⟩ := judgeDomain_restless s
  obtain ⟨g, -, hp', -, -, -, ho'⟩ := tryAgain_restless (judgeDomain s).later
  have clock : (judgeDomain s).clock = s.clock := f .clock (by decide)
  rw [tick_eq]
  refine ⟨?_, (g .power (by decide)).trans (f .power (by decide)), (g .mailbox (by decide)).trans (f .mailbox (by decide)),
    (g .jack (by decide)).trans (f .jack (by decide)), hp'.trans (hp.trans h), ho.trans ho'⟩
  calc (tryAgain (judgeDomain s).later).clock = (judgeDomain s).later.clock := g .clock (by decide)
    _ = _ := by rw [State.later, clock]

end Sys2Proof.Machine
end

section
/-! PROOFS. What goes on when a reference comes back keeps the mask of lost references (for O9). -/

namespace Sys2Proof.Machine

/-! ### The mask of lost references

What waits on the rings, at the peer and across the chain may apply a bundle, which writes LockedCause; nothing of it touches the mask of lost
references. Everything but `setLocked` on its way keeps the whole part `modes` (the Within lemmas). -/

/-- Every part but `modes`. -/
def elsewhere : List Part :=
  [.clock, .power, .wakes, .mode, .faults, .drowse, .busy, .live, .dict, .mailbox, .can, .keys, .vault, .flash, .tally, .tamper, .jack, .sluice,
   .endpoint, .rings, .scratch, .integ, .coh, .results, .buckets, .tcam, .furrow, .links, .slots, .headgate, .pair, .chain, .pending, .fresh, .out]

/-- `s` names the lost references that `r` names. -/
def RefKept (r s : State) : Prop := s.modes.refLost = r.modes.refLost

/-- `RefKept`, of every end of an operation of a ring command. -/
def OpRefKept (r : State) : OpRes → Prop
  | .chain _ _ s => RefKept r s
  | .done _ _ s => RefKept r s
  | .fail _ _ s => RefKept r s
  | .wait => True

/-- `RefKept`, of the end of a bundle. -/
def BundleRefKept (r : State) : BundleEnd → Prop
  | .job _ s => RefKept r s
  | .rejected _ s => RefKept r s
  | .already _ s => RefKept r s
  | .accepted _ s => RefKept r s
  | .wait => True
  | .absent => True

theorem RefKept.refl (s : State) : RefKept s s := rfl

theorem RefKept.trans {r s t : State} (h : RefKept r s) (g : RefKept s t) : RefKept r t := Eq.trans g h

theorem Within.refKept {r s : State} (h : Within elsewhere r s) : RefKept r s := by
  have rest : s.modes.rest = r.modes.rest := h.1 .modes (by decide)
  change s.modes.rest.refLost = r.modes.rest.refLost
  rw [rest]

/-- An operation that keeps `modes`, after one that keeps the mask. -/
theorem RefKept.then {r s t : State} (h : RefKept r s) (g : Within elsewhere s t) : RefKept r t := h.trans g.refKept

theorem OpWithin.refKept {r : State} : ∀ {o : OpRes}, OpWithin elsewhere r o → OpRefKept r o
  | .chain _ _ _, h => Within.refKept h
  | .done _ _ _, h => Within.refKept h
  | .fail _ _ _, h => Within.refKept h
  | .wait, _ => trivial

theorem OpRefKept.of_refKept {r s : State} (h : RefKept r s) : ∀ {o : OpRes}, OpRefKept s o → OpRefKept r o
  | .chain _ _ _, g => h.trans g
  | .done _ _ _, g => h.trans g
  | .fail _ _ _, g => h.trans g
  | .wait, _ => trivial

theorem BundleWithin.refKept {r : State} : ∀ {o : BundleEnd}, BundleWithin elsewhere r o → BundleRefKept r o
  | .job _ _, h => Within.refKept h
  | .rejected _ _, h => Within.refKept h
  | .already _ _, h => Within.refKept h
  | .accepted _ _, h => Within.refKept h
  | .wait, _ => trivial
  | .absent, _ => trivial

theorem BundleRefKept.of_refKept {r s : State} (h : RefKept r s) : ∀ {o : BundleEnd}, BundleRefKept s o → BundleRefKept r o
  | .job _ _, g => h.trans g
  | .rejected _ _, g => h.trans g
  | .already _ _, g => h.trans g
  | .accepted _ _, g => h.trans g
  | .wait, _ => trivial
  | .absent, _ => trivial

theorem refKept_ite {c : Prop} [Decidable c] {r a b : State} (ha : c → RefKept r a) (hb : ¬c → RefKept r b) : RefKept r (if c then a else b) := by
  split
  · exact ha ‹_›
  · exact hb ‹_›

theorem refKept_foldl {α : Type} {r : State} {f : State → α → State} {l : List α} {s : State} (hf : ∀ s x, RefKept s (f s x))
    (h : RefKept r s) : RefKept r (l.foldl f s) := by
  induction l generalizing s with
  | nil => exact h
  | cons x l ih => exact ih (h.trans (hf s x))

/-! A bundle -/

theorem setLocked_refKept (mask : Nat) (s : State) : RefKept s (setLocked mask s) := by
  unfold setLocked
  have locked : RefKept s { s with modes := { s.modes with locked := mask } } := rfl
  exact refKept_ite (fun _ => locked.then (settleMode_within _ _ (by decide) (clearFault_within _ _ (by decide) (within_refl _ _))))
    fun _ => locked.then (raiseFault_within _ _ _ (by decide) (settleMode_within _ _ (by decide) (within_refl _ _)))

theorem acceptBundle_refKept (b : Bytes) (s : State) : RefKept s (acceptBundle b s).2 := by
  unfold acceptBundle
  extract_lets counter s₁ time seq s₂
  have h₂ : Within elsewhere s s₂ := journal_within _ _ _ (by decide) (storeBundle_within _ _ _ (by decide) (within_refl _ _))
  have h₃ : Within elsewhere s (receiptOf b seq time s₂).2 := receiptOf_within _ _ _ _ (by decide) h₂
  split
  rename_i receipt s₃ e
  rw [e] at h₃
  extract_lets s₄ s₅ s₆
  have h₅ : RefKept s s₅ := Within.refKept (State.put_within _ _ _ (by decide) (State.bump_within _ _ (by decide)
    (onKeys_within _ _ (by decide) h₃ fun _ => Nat.le_refl _)))
  have h₆ : RefKept s s₆ := refKept_ite (fun _ => h₅.trans (setLocked_refKept _ _))
    fun _ => refKept_ite (fun _ => h₅.then (settleMode_within _ _ (by decide) (within_refl _ _))) fun _ => h₅
  exact h₆.then (keyEvent_within _ (by decide) (within_refl _ _))

theorem accepted_refKept (b : Bytes) (s : State) : BundleRefKept s (accepted b s) := acceptBundle_refKept b s

theorem sealJob_refKept (b : Bytes) (j : ChainJob) (s : State) : BundleRefKept s (sealJob b j s) := by
  unfold sealJob
  have run : RefKept s (runJob { j with bundle := b } s).2 := Within.refKept (runJob_within _ _ (by decide) (within_refl _ _))
  split
  rename_i j' s' e
  rw [e] at run
  split
  · exact (accepted_refKept b s').of_refKept run
  · exact run

theorem rejectBundle_refKept (b : Bytes) (d : Nat) (s : State) : BundleRefKept s (rejectBundle b d s) :=
  (rejectBundle_within b d s (by decide) (within_refl _ s)).refKept

theorem submitBundle_refKept (b : Bytes) (s : State) : BundleRefKept s (submitBundle b s) := by
  have payload : AppliedWithin elsewhere s (applyPayload false b s) := applyPayload_within _ _ _ (by decide) (within_refl _ _)
  unfold submitBundle
  split
  · exact rejectBundle_refKept ..
  split
  · exact rejectBundle_refKept ..
  split
  · exact Within.refKept (keyEvent_within _ (by decide) (State.put_within _ _ _ (by decide) (State.bump_within _ _ (by decide) (within_refl _ _))))
  split
  · exact rejectBundle_refKept ..
  split
  · exact rejectBundle_refKept ..
  cases e : applyPayload false b s with
  | bad d => exact rejectBundle_refKept ..
  | wait => trivial
  | absent => trivial
  | ok t =>
    rw [e] at payload
    dsimp only
    split
    · exact (accepted_refKept b t).of_refKept (Within.refKept payload)
    · exact rejectBundle_refKept ..
  | job j t =>
    rw [e] at payload
    dsimp only
    split
    · exact (sealJob_refKept b j t).of_refKept (Within.refKept payload)
    · exact rejectBundle_refKept ..

theorem opBundleSubmit_refKept (m : Nat) (d : Bytes) (s : State) : OpRefKept s (opBundleSubmit m d s) := by
  unfold opBundleSubmit
  extract_lets mask length no t
  split
  · exact RefKept.refl s
  split
  · exact Within.refKept (countRefusals_within _ _ (by decide) (within_refl _ _))
  split
  · exact RefKept.refl s
  split
  · exact (failUnreadable_within _ (by decide) (within_refl _ _)).refKept
  extract_lets img
  have ht : RefKept s t := Within.refKept (contend_within _ _ _ _ (by decide) (within_refl _ _))
  split
  · trivial
  have bundle := (submitBundle_refKept img t).of_refKept ht
  cases e : submitBundle img t <;> rw [e] at bundle <;> dsimp only
  case job j u => exact bundle
  case rejected d u => exact bundle
  case already r u => exact RefKept.then bundle (writeReceipt_within _ _ _ (by decide) (within_refl _ _))
  case accepted r u => exact RefKept.then bundle (writeReceipt_within _ _ _ (by decide) (within_refl _ _))
  case wait => trivial
  case absent => exact ht

/-! The rings -/

theorem ringOp_refKept (m : Nat) (ok : Bool) (d block : Bytes) (s : State) : OpRefKept s (ringOp m ok d block s) := by
  have h := within_refl elsewhere s
  unfold ringOp
  split
  · exact (opTcamInsert_within _ _ (by decide) h).refKept
  · exact (opTcamDelete_within _ _ (by decide) h).refKept
  · exact (opTcamModify_within _ _ (by decide) h).refKept
  · exact (opTrieAdd_within _ _ (by decide) h).refKept
  · exact (opTrieDelete_within _ _ (by decide) h).refKept
  · exact (opBucket_within _ _ _ _ (by decide) h fun b t => insertBlock_within b t (by decide)).refKept
  · exact (opBucket_within _ _ _ _ (by decide) h fun b t => deleteBlock_within b t (by decide)).refKept
  · exact (opBucket_within _ _ _ _ (by decide) h fun b t => updateBlock_within b t (by decide)).refKept
  · exact (opResultWrite_within _ _ (by decide) h).refKept
  · exact (opMeterConfigure_within _ _ (by decide) h).refKept
  · exact (opCounterReadClear_within _ _ _ (by decide) h).refKept
  · exact (opFlush_within _ _ (by decide) h).refKept
  · exact (opBulkLoad_within _ _ _ (by decide) h).refKept
  · exact (opTableDump_within _ _ _ (by decide) h).refKept
  · exact opBundleSubmit_refKept m d s

theorem holdCommand_refKept (r : Nat) (dataOk ok : Bool) (s : State) : RefKept s (holdCommand r dataOk ok s) :=
  Within.refKept (holdCommand_within _ _ _ _ (by decide) (within_refl _ _))

theorem failCommand_refKept (r st d : Nat) (s : State) : RefKept s (failCommand r st d s) :=
  Within.refKept (failCommand_within _ _ _ _ (by decide) (within_refl _ _))

theorem completed_refKept (r st x : Nat) (ok : Bool) (s : State) : RefKept s (settleFences 8 (completeCommand r st x ok s)) :=
  Within.refKept (settleFences_within _ _ (by decide) (completeCommand_within _ _ _ _ _ (by decide) (within_refl _ _)))

theorem sendPrepare_refKept (r : Nat) (ps : List Nat) (d block : Bytes) (s : State) : RefKept s (sendPrepare r ps d block s) :=
  Within.refKept (sendPrepare_within _ _ _ _ _ (by decide) (within_refl _ _))

theorem endOp_refKept (r : Nat) (dataOk ok marked : Bool) {o : OpRes} {s : State} (h : OpRefKept s o) :
    RefKept s (endOp r dataOk ok marked o s) := by
  unfold endOp
  cases o with
  | wait => exact holdCommand_refKept ..
  | fail st d t => exact RefKept.trans h (failCommand_refKept ..)
  | done st x t => exact refKept_ite (fun _ => holdCommand_refKept ..) fun _ => RefKept.trans h (completed_refKept ..)
  | chain j x t => exact refKept_ite (fun _ => holdCommand_refKept ..) fun _ => h

theorem forward_refKept (r m : Nat) (dataOk ok : Bool) (d block : Bytes) (s : State) : RefKept s (forward r m dataOk ok d block s) := by
  unfold forward
  refine refKept_ite (fun _ => holdCommand_refKept ..) fun _ => ?_
  have op := ringOp_refKept m dataOk d block s
  cases e : ringOp m dataOk d block s <;> rw [e] at op <;> dsimp only
  case wait => exact holdCommand_refKept ..
  case fail st x t => exact RefKept.trans op (failCommand_refKept ..)
  case done | chain => exact sendPrepare_refKept ..

theorem runCommand_refKept (r : Nat) (dataOk ok : Bool) (d block : Bytes) (s : State) : RefKept s (runCommand r dataOk ok d block s) := by
  unfold runCommand
  extract_lets m t
  have ht : RefKept s t := Within.refKept (within_ite (fun _ => drowseTrigger_within _ (by decide) (within_refl _ _)) fun _ => within_refl _ _)
  refine refKept_ite (fun _ => ht.trans (holdCommand_refKept ..)) fun _ => ?_
  refine refKept_ite (fun _ => ht.then (startFence_within _ _ _ (by decide) (within_refl _ _))) fun _ => ?_
  exact refKept_ite (fun _ => ht.trans (forward_refKept ..)) fun _ => ht.trans (endOp_refKept _ _ _ _ (ringOp_refKept ..))

theorem retryHeld_refKept (s : State) (r : Nat) : RefKept s (retryHeld s r) := by
  unfold retryHeld
  split
  · refine refKept_ite (fun _ => RefKept.refl s) fun _ => refKept_ite (fun _ => ?_) fun _ => ?_
    · exact Within.refKept (failCommand_within _ _ _ _ (by decide) (keyEvent_within _ (by decide) (onRing_within _ _ _ (by decide) (within_refl _ _))))
    · exact RefKept.trans (Within.refKept (onRing_within _ _ _ (by decide) (within_refl _ _))) (runCommand_refKept ..)
  · exact RefKept.refl s

theorem resumeRings_refKept (s : State) : RefKept s (resumeRings s) := refKept_foldl retryHeld_refKept (RefKept.refl s)

/-! The chain -/

theorem finishBundle_refKept (r : Nat) (b : Bytes) (result : Nat) (s : State) : RefKept s (finishBundle r b result s) :=
  (acceptBundle_refKept b s).then (settleFences_within _ _ (by decide) (completeCommand_within _ _ _ _ _ (by decide)
    (writeReceipt_within _ _ _ (by decide) (within_refl _ _))))

theorem continueRing_refKept (r : Nat) (j : ChainJob) (result seq : Nat) (s : State) : RefKept s (continueRing r j result seq s) := by
  unfold continueRing
  refine refKept_ite (fun _ => ?_) fun _ => ?_
  · exact Within.refKept (failCommand_within _ _ _ _ (by decide) (keyEvent_within _ (by decide) (recallJob_within _ _ (by decide) (within_refl _ _))))
  · extract_lets b
    have run : RefKept s (runJob j s).2 := Within.refKept (runJob_within _ _ (by decide) (within_refl _ _))
    split
    rename_i j' t e
    rw [e] at run
    refine refKept_ite (fun _ => run) fun _ => refKept_ite (fun _ => run.trans (finishBundle_refKept ..)) fun _ => ?_
    refine refKept_ite (fun _ => run.then ?_) fun _ => run.then (sendCommit_within _ _ _ _ _ (by decide) (within_refl _ _))
    exact settleFences_within _ _ (by decide) (completeCommand_within _ _ _ _ _ (by decide)
      (within_ite (fun _ => drowseBusy_within _ (by decide) (within_refl _ _)) fun _ => within_refl _ _))

theorem continuePair_refKept (key : Nat) (j : ChainJob) (s : State) : RefKept s (continuePair key j s) :=
  Within.refKept (continuePair_within _ _ _ (by decide) (within_refl _ _))

theorem resumeChain_refKept (s : State) : RefKept s (resumeChain s) := by
  unfold resumeChain
  refine refKept_ite (fun _ => RefKept.refl s) fun _ => ?_
  extract_lets t u
  have ht : RefKept s t := refKept_foldl (fun s r => by
    split
    · exact refKept_ite (fun _ => continueRing_refKept ..) fun _ => RefKept.refl s
    · exact RefKept.refl s) (RefKept.refl s)
  have hu : RefKept s u := refKept_foldl (fun s e => refKept_ite (fun _ => continuePair_refKept ..) fun _ => RefKept.refl s) ht
  exact refKept_ite (fun _ => hu.then (continueRewrite_within _ (by decide) (within_refl _ _)))
    fun _ => hu.then (judgeRing_within _ (by decide) (within_refl _ _))

/-! The peer -/

theorem peerOp_refKept (p : Prepared) (s : State) : OpRefKept s (peerOp p s) := by
  unfold peerOp
  extract_lets img
  split
  · split
    · exact RefKept.refl s
    · exact (loadImage_within _ _ _ _ (by decide) (within_refl _ _)).refKept
  · split
    · exact RefKept.refl s
    · exact ringOp_refKept ..

theorem unhold_refKept (seq : Nat) (s : State) : RefKept s (unhold seq s) := Within.refKept (unhold_within _ _ (by decide) (within_refl _ _))

theorem applyPrepared_refKept (p : Prepared) (s : State) : RefKept s (applyPrepared p s) := by
  unfold applyPrepared
  refine refKept_ite (fun _ => RefKept.refl s) fun _ => ?_
  extract_lets free
  have op := (peerOp_refKept p free).of_refKept (Within.refKept (freeHeld_within p s (by decide) (within_refl _ _)))
  cases e : peerOp p free <;> rw [e] at op <;> dsimp only
  case wait => exact RefKept.refl s
  case fail st d t => exact unhold_refKept ..
  case done st x t => exact RefKept.then op (appliedPrepared_within _ _ (by decide) (unhold_within _ _ (by decide) (within_refl _ _)))
  case chain j x t => exact RefKept.then op (unhold_within _ _ (by decide) (onPair_within _ _ (by decide) (within_refl _ _)))

theorem tryVote_refKept (p : Prepared) (s : State) : RefKept s (tryVote p s) := by
  unfold tryVote
  extract_lets bulk landed no yes
  have hno (st d : Nat) (t : State) : RefKept t (no st d t) :=
    Within.refKept (sendVote_within _ _ _ _ (by decide) (unhold_within _ _ (by decide) (within_refl _ _)))
  have hyes (places : List Nat) : RefKept s (yes places) :=
    Within.refKept (sendVote_within _ _ _ _ (by decide) (hold_within _ _ (by decide) (within_refl _ _)))
  refine refKept_ite (fun _ => RefKept.refl s) fun _ => refKept_ite (fun _ => hno ..) fun _ => ?_
  refine refKept_ite (fun _ => RefKept.refl s) fun _ => refKept_ite (fun _ => RefKept.refl s) fun _ => ?_
  have op := peerOp_refKept p s
  cases e : peerOp p s <;> rw [e] at op <;> dsimp only
  case wait => exact RefKept.refl s
  case fail st d t => exact RefKept.trans op (hno ..)
  case done | chain => exact hyes _

theorem resumePair_refKept (s : State) : RefKept s (resumePair s) := by
  unfold resumePair
  extract_lets t u v
  have ht : RefKept s t := refKept_foldl (fun s p => refKept_ite (fun _ => applyPrepared_refKept ..) fun _ => tryVote_refKept ..)
    (Within.refKept (endResyncs_within _ (by decide) (within_refl _ _)))
  have hu : RefKept s u := ht.then (within_foldl (fun s i h => tryResync_within i s (by decide) h) (within_refl _ _))
  have hv : RefKept s v := hu.then (within_foldl (fun s r h => serveRegion_within r s (by decide) h) (within_refl _ _))
  refine refKept_ite (fun _ => hv) fun _ => refKept_foldl (fun s r => ?_) hv
  split
  · exact completed_refKept ..
  · exact RefKept.refl s

theorem resumeAll_refKept (s : State) : RefKept s (resumeAll s) :=
  (((resumePair_refKept s).trans (resumeChain_refKept _)).trans (resumeRings_refKept _)).then
    (settleFences_within _ _ (by decide) (within_foldl (fun s r h => skipWaiting_within s r (by decide) h) (within_refl _ _)))

end Sys2Proof.Machine
end

section
/-! PROOFS. Faults as they are raised and cleared, references, rails, the pace and telemetry (O9). -/

namespace Sys2Proof.Machine

/-! ### What a raised or cleared fault writes (R402) -/

/-! Objects alone -/

theorem ObjectsOnly.refl (ks : List Nat) (s : State) : ObjectsOnly ks s s := ⟨fun _ _ => rfl, rfl, rfl, rfl, rfl⟩

theorem ObjectsOnly.trans {ks : List Nat} {r s t : State} (h : ObjectsOnly ks r s) (g : ObjectsOnly ks s t) : ObjectsOnly ks r t := by
  obtain ⟨hv, hs, hb, hk, ha⟩ := h
  obtain ⟨gv, gs, gb, gk, ga⟩ := g
  exact ⟨fun k n => (gv k n).trans (hv k n), gs.trans hs, gb.trans hb, gk.trans hk, ga.trans ha⟩

theorem ObjectsOnly.of_dict {s t : State} (ks : List Nat) (h : t.dict = s.dict) : ObjectsOnly ks s t :=
  ⟨fun k _ => by simp only [State.val, h], congrArg Dict.staging h, congrArg Dict.sealedBy h, congrArg Dict.kept h, congrArg Dict.assembly h⟩

theorem objectsOnly_put {ks : List Nat} {k : Nat} (h : k ∈ ks) (v : Nat) (s : State) : ObjectsOnly ks s (s.put k v) :=
  ⟨fun j n => by rw [State.val_put, if_neg (by rintro rfl; exact n h)], rfl, rfl, rfl, rfl⟩

theorem objectsOnly_bump {ks : List Nat} {k : Nat} (h : k ∈ ks) (s : State) : ObjectsOnly ks s (s.bump k) := objectsOnly_put h _ s

/-! The report by EMCY: it touches no active fault and, of the dictionary, EmcySuppressed alone -/

@[simp] theorem canSend_modes (cob : Nat) (b : Bytes) (s : State) : (canSend cob b s).modes = s.modes := by unfold canSend; split <;> rfl

@[simp] theorem canSend_dict (cob : Nat) (b : Bytes) (s : State) : (canSend cob b s).dict = s.dict := by unfold canSend; split <;> rfl

@[simp] theorem emcyNow_active (code : Nat) (b : Bytes) (s : State) : (emcyNow code b s).modes.active = s.modes.active := by
  unfold emcyNow; dsimp only; split
  · rfl
  · rw [canSend_modes]

@[simp] theorem emcyNow_dict (code : Nat) (b : Bytes) (s : State) : (emcyNow code b s).dict = s.dict := by
  unfold emcyNow; dsimp only; split
  · rfl
  · rw [canSend_dict]

@[simp] theorem emcySpaced_active (code : Nat) (b : Bytes) (s : State) : (emcySpaced code b s).modes.active = s.modes.active := by
  unfold emcySpaced; dsimp only; split
  · dsimp only; split <;> rfl
  · exact emcyNow_active code b s

@[simp] theorem emcy_active (code : Nat) (raised : Bool) (d : Nat) (s : State) : (emcy code raised d s).modes.active = s.modes.active := by
  unfold emcy; dsimp only; split
  · rfl
  · split
    · rfl
    · exact emcySpaced_active ..

theorem emcySpaced_objects (code : Nat) (b : Bytes) (s : State) : ObjectsOnly [O.emcySuppressed] s (emcySpaced code b s) := by
  unfold emcySpaced; dsimp only; split
  · split
    · exact objectsOnly_bump List.mem_cons_self s
    · exact .of_dict _ rfl
  · exact .of_dict _ (emcyNow_dict code b s)

theorem emcy_objects (code : Nat) (raised : Bool) (d : Nat) (s : State) : ObjectsOnly [O.emcySuppressed] s (emcy code raised d s) := by
  unfold emcy; dsimp only; split
  · exact .refl _ s
  · split
    · exact .of_dict _ rfl
    · exact emcySpaced_objects ..

/-- A fault is reported: by EMCY and by vector 17. -/
def reported (code : Nat) (raised : Bool) (d : Nat) (s : State) : State := vector 17 (emcy code raised d s)

@[simp] theorem reported_active (code : Nat) (raised : Bool) (d : Nat) (s : State) : (reported code raised d s).modes.active = s.modes.active := by
  rw [reported, vector_modes, emcy_active]

theorem reported_objects (code : Nat) (raised : Bool) (d : Nat) (s : State) : ObjectsOnly [O.emcySuppressed] s (reported code raised d s) :=
  (emcy_objects code raised d s).trans (.of_dict _ (vector_dict 17 _))

theorem ObjectsOnly.mono {ks js : List Nat} {s t : State} (h : ObjectsOnly ks s t) (hk : ∀ k ∈ ks, k ∈ js) : ObjectsOnly js s t :=
  ⟨fun k n => h.1 k fun m => n (hk k m), h.2⟩

/-- The last-fault objects as a raise or a clear leaves them. -/
def noted (code d : Nat) (s : State) : State := ((s.put O.lastFaultCode code).put O.lastFaultDetail d).put O.lastFaultTime
  (timebase ((s.put O.lastFaultCode code).put O.lastFaultDetail d))

theorem noted_objects (code d : Nat) (s : State) : ObjectsOnly faultObjects s (noted code d s) :=
  ((objectsOnly_put (by decide) _ _).trans (objectsOnly_put (by decide) _ _)).trans (objectsOnly_put (by decide) _ _)

@[simp] theorem noted_code (code d : Nat) (s : State) : (noted code d s).val O.lastFaultCode = code := by
  simp [noted, O.lastFaultTime, O.lastFaultCode, O.lastFaultDetail]

theorem reported_noted_objects (code : Nat) (raised : Bool) (d : Nat) (s : State) :
    ObjectsOnly faultObjects s (reported code raised d (noted code d s)) :=
  (noted_objects code d s).trans ((reported_objects _ _ _ _).mono (by decide))

/-! Raised and cleared -/

/-- The active faults with one more. -/
def withActive (m : SMap Nat) (s : State) : State := { s with modes := { s.modes with active := m } }

theorem withActive_objects (ks : List Nat) (m : SMap Nat) (s : State) : ObjectsOnly ks s (withActive m s) := .of_dict ks rfl

theorem raiseFault_eq (code d : Nat) (s : State) : raiseFault code d s =
    let t := withActive (SMap.insert s.modes.active code (d % 65536)) s
    if faultActive code s = true then t else reported code true (d % 65536) (noted code (d % 65536) (t.bump O.faultsRaised)) := rfl

theorem clearFault_eq (code : Nat) (s : State) : clearFault code s =
    match SMap.find? s.modes.active code with
    | none => s
    | some d => reported code false d (noted code d (withActive (SMap.erase s.modes.active code) s)) := by
  unfold clearFault; cases SMap.find? s.modes.active code <;> rfl

@[simp] theorem raiseFault_find? (code d j : Nat) (s : State) :
    SMap.find? (raiseFault code d s).modes.active j = if j = code then some (d % 65536) else SMap.find? s.modes.active j := by
  rw [← SMap.find?_insert, raiseFault_eq]
  dsimp only
  split
  · rfl
  · rw [reported_active]; rfl

@[simp] theorem clearFault_find? (code j : Nat) (s : State) :
    SMap.find? (clearFault code s).modes.active j = if j = code then none else SMap.find? s.modes.active j := by
  rw [clearFault_eq]
  cases e : SMap.find? s.modes.active code with
  | none =>
    dsimp only
    split
    · subst_vars; exact e
    · rfl
  | some d =>
    dsimp only
    rw [reported_active, ← SMap.find?_erase]; rfl

theorem raiseFault_objects (code d : Nat) (s : State) : ObjectsOnly faultObjects s (raiseFault code d s) := by
  rw [raiseFault_eq]
  dsimp only
  split
  · exact withActive_objects ..
  · exact ((withActive_objects ..).trans (objectsOnly_bump (by decide) _)).trans (reported_noted_objects ..)

theorem clearFault_objects (code : Nat) (s : State) : ObjectsOnly faultObjects s (clearFault code s) := by
  rw [clearFault_eq]
  split
  · exact .refl _ s
  · exact (withActive_objects ..).trans (reported_noted_objects ..)

theorem raiseFault_lastFaultCode (code d : Nat) (s : State) :
    (raiseFault code d s).val O.lastFaultCode = if faultActive code s = true then s.val O.lastFaultCode else code := by
  rw [raiseFault_eq]
  dsimp only
  split
  · rfl
  · rw [(reported_objects _ _ _ _).1 _ (by decide), noted_code]

theorem clearFault_inactive (code : Nat) (s : State) : faultActive code (clearFault code s) = false := by
  rw [faultActive, clearFault_find?, if_pos rfl]; rfl

theorem clearFault_others (code c : Nat) (s : State) (h : c ≠ code) : faultActive c (clearFault code s) = faultActive c s := by
  rw [faultActive, clearFault_find?, if_neg h]; rfl

theorem raiseFault_refKept (code d : Nat) (s : State) : RefKept s (raiseFault code d s) :=
  Within.refKept (raiseFault_within _ _ _ (by decide) (within_refl _ _))

theorem clearFault_refKept (code : Nat) (s : State) : RefKept s (clearFault code s) :=
  Within.refKept (clearFault_within _ _ (by decide) (within_refl _ _))

/-! ### References lost and restored (R16) -/

/-- The mask of lost references is `m`. -/
def State.lost (m : Nat) (s : State) : State := { s with modes := { s.modes with refLost := m } }

theorem stopDomain_refKept (k : Nat) (s : State) : RefKept s (stopDomain k s) := by
  have h := within_refl elsewhere s
  unfold stopDomain
  split
  · exact Within.refKept (within_foldl (fun t m ht => within_ite (fun _ => ht) fun _ => linkDown_within _ _ (by decide) ht) h)
  · exact Within.refKept (within_ite (fun _ => h) fun _ => State.put_within _ _ _ (by decide) h)
  · exact Within.refKept (within_ite (fun _ => breakRing_within _ (by decide) h) fun _ => h)
  all_goals rfl

theorem restartDomain_refKept (k : Nat) (s : State) : RefKept s (restartDomain k s) := by
  have h := within_refl elsewhere s
  unfold restartDomain
  split
  · exact Within.refKept (within_ite (fun _ => h) fun _ => within_foldl (fun t m ht => within_ite (fun _ =>
      startTraining_within _ _ (by decide) (onLink_within _ _ _ (by decide) ht)) fun _ => ht) h)
  · exact Within.refKept (within_ite (fun _ => h) fun _ => trainCulvert_within _ _ (by decide) (State.put_within _ _ _ (by decide) h))
  · exact Within.refKept (within_ite (fun _ => h) fun _ => startDomino_within _ (by decide) h)
  · rfl
  · exact (Within.refKept (takeHeld_within _ (by decide) (within_refl _ _)) : RefKept { s with clock := restartRtc s.clock s.clock.wall } _)
  · rfl

theorem referenceLost_eq {s : State} {k : Nat} (h1 : 1 ≤ k) (h9 : k ≤ 9) (hp : s.power.core = true) (hb : bit s.modes.refLost (k - 1) = false) :
    exec (.referenceLost k) s =
      let t := stopDomain k (s.lost (s.modes.refLost + 2 ^ (k - 1)))
      .next (raiseFault 0x0110 t.modes.refLost t) := by
  change execReferenceLost k s = _
  unfold execReferenceLost onUnit
  rw [if_pos (by simp [h1, h9]), if_neg (by simp [hp, hb])]
  rfl

theorem referenceRestored_eq {s : State} {k : Nat} (h1 : 1 ≤ k) (h9 : k ≤ 9) (hp : s.power.core = true) (hb : bit s.modes.refLost (k - 1) = true) :
    exec (.referenceRestored k) s =
      let t := resumeAll (restartDomain k (s.lost (s.modes.refLost - 2 ^ (k - 1))))
      .next (if t.modes.refLost = 0 then clearFault 0x0110 t else raiseFault 0x0110 t.modes.refLost t) := by
  change execReferenceRestored k s = _
  unfold execReferenceRestored onUnit
  rw [if_pos (by simp [h1, h9]), if_neg (by simp [hp, hb])]
  dsimp only [State.lost]

/-- An operation that keeps `clock` and `modes` keeps the Timebase. -/
theorem timebase_of_same {s t : State} (hc : t.clock = s.clock) (hm : t.modes.k8At = s.modes.k8At) : timebase t = timebase s := by
  simp only [timebase, elapsed, hc, hm]

theorem raiseFault_timebase (code d : Nat) (s : State) : timebase (raiseFault code d s) = timebase s := by
  obtain ⟨f, -⟩ := raiseFault_within (cs := faultParts) code d s (by decide) (within_refl _ s)
  have rest : (raiseFault code d s).modes.rest = s.modes.rest := f .modes (by decide)
  refine timebase_of_same (f .clock (by decide)) ?_
  change (raiseFault code d s).modes.rest.k8At = s.modes.rest.k8At
  rw [rest]

/-- The instant at which K8 stops is kept, so the Timebase stands where it stood. -/
theorem timebase_stopDomain_k8 {s : State} (m : Nat) (h : s.modes.k8At = 0) : timebase (stopDomain 8 (s.lost m)) = timebase s := by
  simp [timebase, elapsed, stopDomain, State.lost, h]

theorem referenceLost_complete {s : State} {k : Nat} (h1 : 1 ≤ k) (h9 : k ≤ 9) (hp : s.power.core = true)
    (hb : bit s.modes.refLost (k - 1) = false) : ∃ t, exec (.referenceLost k) s = .next t ∧
      t.modes.refLost = s.modes.refLost + 2 ^ (k - 1) ∧ SMap.find? t.modes.active 0x0110 = some (t.modes.refLost % 65536) ∧
      (k = 8 → s.modes.k8At = 0 → timebase t = timebase s) := by
  refine ⟨_, referenceLost_eq h1 h9 hp hb, ?_, ?_, ?_⟩
  · exact (RefKept.trans (stopDomain_refKept ..) (raiseFault_refKept ..) : RefKept (s.lost _) _)
  · rw [raiseFault_find?, if_pos rfl, raiseFault_refKept 0x0110 _ _]
  · rintro rfl h0
    rw [raiseFault_timebase, timebase_stopDomain_k8 _ h0]

theorem referenceRestored_complete {s : State} {k : Nat} (h1 : 1 ≤ k) (h9 : k ≤ 9) (hp : s.power.core = true)
    (hb : bit s.modes.refLost (k - 1) = true) : ∃ t, exec (.referenceRestored k) s = .next t ∧
      t.modes.refLost = s.modes.refLost - 2 ^ (k - 1) ∧ (t.modes.refLost = 0 → faultActive 0x0110 t = false) ∧
      (t.modes.refLost ≠ 0 → SMap.find? t.modes.active 0x0110 = some (t.modes.refLost % 65536)) := by
  refine ⟨_, referenceRestored_eq h1 h9 hp hb, ?_⟩
  generalize ht : resumeAll (restartDomain k (s.lost (s.modes.refLost - 2 ^ (k - 1)))) = t
  have kept : t.modes.refLost = s.modes.refLost - 2 ^ (k - 1) := by
    subst ht
    exact ((restartDomain_refKept k (s.lost _)).trans (resumeAll_refKept _) :)
  by_cases h0 : t.modes.refLost = 0
  · have cleared : (clearFault 0x0110 t).modes.refLost = t.modes.refLost := clearFault_refKept ..
    rw [if_pos h0, cleared]
    exact ⟨kept, fun _ => clearFault_inactive .., fun n => absurd h0 n⟩
  · have raised : (raiseFault 0x0110 t.modes.refLost t).modes.refLost = t.modes.refLost := raiseFault_refKept ..
    rw [if_neg h0, raised]
    exact ⟨kept, fun e => absurd e h0, fun _ => by rw [raiseFault_find?, if_pos rfl]⟩

/-! ### Rails, the pace and the fault timers (R11, R12, R402) -/

theorem supplyRange_complete {s : State} {r : Nat} (hp : s.power.core = true) (h1 : 1 ≤ r) (h9 : r ≤ 9) :
    ∃ t, exec (.supplyRangeTimer r) s = .next t ∧ SMap.find? t.modes.active 0x0102 = some r ∧
      t.val O.lastFaultCode = (if faultActive 0x0102 s = true then s.val O.lastFaultCode else 0x0102) ∧ ObjectsOnly faultObjects s t := by
  refine ⟨raiseFault 0x0102 r s, by simp [exec, execSupplyRangeTimer, onUnit, hp, h1, h9], ?_, raiseFault_lastFaultCode .., raiseFault_objects ..⟩
  rw [raiseFault_find?, if_pos rfl, Nat.mod_eq_of_lt (by omega)]

/-- The pace objects as a window leaves them. -/
def paced (p0 p1 p2 p3 : Nat) (s : State) : State :=
  let low := min (min p0 p1) (min p2 p3)
  (((((s.put (O.quadrantPace 0) p0).put (O.quadrantPace 1) p1).put (O.quadrantPace 2) p2).put (O.quadrantPace 3) p3).put O.minPace low).put
    O.pipelineRate (low / 2)

theorem paceUpdate_eq {s : State} {p0 p1 p2 p3 : Nat} (hp : s.power.core = true) (h0 : p0 < 65536) (h1 : p1 < 65536) (h2 : p2 < 65536)
    (h3 : p3 < 65536) : exec (.paceUpdate p0 p1 p2 p3) s =
      let low := min (min p0 p1) (min p2 p3)
      .next (if low < 1200 then raiseFault 0x0101 low (paced p0 p1 p2 p3 s) else paced p0 p1 p2 p3 s) := by
  simp only [exec, execPaceUpdate, onUnit, hp, h0, h1, h2, h3, decide_true, Bool.and_self, if_true, Bool.not_true, Bool.false_eq_true, if_false]
  rfl

theorem paced_objects (p0 p1 p2 p3 : Nat) (s : State) :
    (paced p0 p1 p2 p3 s).val (O.quadrantPace 0) = p0 ∧ (paced p0 p1 p2 p3 s).val (O.quadrantPace 1) = p1 ∧
    (paced p0 p1 p2 p3 s).val (O.quadrantPace 2) = p2 ∧ (paced p0 p1 p2 p3 s).val (O.quadrantPace 3) = p3 ∧
    (paced p0 p1 p2 p3 s).val O.minPace = min (min p0 p1) (min p2 p3) ∧
    (paced p0 p1 p2 p3 s).val O.pipelineRate = min (min p0 p1) (min p2 p3) / 2 := by
  simp [paced, O.quadrantPace, O.minPace, O.pipelineRate]

theorem paceUpdate_complete {s : State} {p0 p1 p2 p3 : Nat} (hp : s.power.core = true) (h0 : p0 < 65536) (h1 : p1 < 65536) (h2 : p2 < 65536)
    (h3 : p3 < 65536) : ∃ t, exec (.paceUpdate p0 p1 p2 p3) s = .next t ∧
      t.val (O.quadrantPace 0) = p0 ∧ t.val (O.quadrantPace 1) = p1 ∧ t.val (O.quadrantPace 2) = p2 ∧ t.val (O.quadrantPace 3) = p3 ∧
      t.val O.minPace = min (min p0 p1) (min p2 p3) ∧ t.val O.pipelineRate = t.val O.minPace / 2 ∧
      (t.val O.minPace < 1200 → SMap.find? t.modes.active 0x0101 = some (t.val O.minPace)) ∧
      (1200 ≤ t.val O.minPace → t.modes = s.modes) := by
  refine ⟨_, paceUpdate_eq hp h0 h1 h2 h3, ?_⟩
  obtain ⟨v0, v1, v2, v3, vm, vr⟩ := paced_objects p0 p1 p2 p3 s
  generalize hl : min (min p0 p1) (min p2 p3) = low at *
  by_cases h : low < 1200
  · obtain ⟨kept, -⟩ := raiseFault_objects 0x0101 low (paced p0 p1 p2 p3 s)
    rw [if_pos h, kept _ (by decide), kept _ (by decide), kept _ (by decide), kept _ (by decide), kept _ (by decide), kept _ (by decide)]
    refine ⟨v0, v1, v2, v3, vm, by rw [vr, vm], fun _ => ?_, fun g => absurd h (by omega)⟩
    rw [raiseFault_find?, if_pos rfl, vm, Nat.mod_eq_of_lt (by omega)]
  · rw [if_neg h]
    exact ⟨v0, v1, v2, v3, vm, by rw [vr, vm], fun g => absurd g (by omega), fun _ => rfl⟩

theorem faultClearTimer_complete {s : State} {code : Nat}
    (h : code = 0x0102 ∨ code = 0x0170 ∨ code = 0x0172 ∨ (code = 0x0101 ∧ 1230 ≤ s.val O.minPace)) :
    ∃ t, exec (.faultClearTimer code) s = .next t ∧ faultActive code t = false ∧ ∀ c, c ≠ code → faultActive c t = faultActive c s :=
  ⟨clearFault code s, congrArg _ (if_pos h), clearFault_inactive .., fun c => clearFault_others code c s⟩

theorem faultClearTimer_paceLow {s : State} (h : s.val O.minPace < 1230) : exec (.faultClearTimer 0x0101) s = .next s :=
  congrArg _ (if_neg (by omega))

/-! ### Telemetry (R406) -/

theorem putRow_succ (o : Nat → Nat) (w n : Nat) (vs : List Nat) (s : State) :
    putRow o w (n + 1) vs s = (putRow o w n vs s).put (o n) (vs.getD n 0 % 2 ^ w) := by
  simp [putRow, List.range_succ, List.foldl_append]

theorem putRow_other {o : Nat → Nat} {n k : Nat} (w : Nat) (vs : List Nat) (s : State) (h : ∀ i < n, k ≠ o i) :
    (putRow o w n vs s).val k = s.val k := by
  induction n with
  | zero => rfl
  | succ n ih =>
    rw [putRow_succ, State.val_put, if_neg (h n (Nat.lt_succ_self n))]
    exact ih fun i hi => h i (Nat.lt_succ_of_lt hi)

theorem putRow_own {o : Nat → Nat} (inj : Function.Injective o) {n i : Nat} (w : Nat) (vs : List Nat) (s : State) (hi : i < n) :
    (putRow o w n vs s).val (o i) = vs.getD i 0 % 2 ^ w := by
  induction n with
  | zero => omega
  | succ n ih =>
    rw [putRow_succ, State.val_put]
    by_cases e : i = n
    · rw [if_pos (congrArg o e), e]
    · rw [if_neg fun h => e (inj h)]
      exact ih (by omega)

/-- The greater of two temperatures, read as two's complement. -/
def hotter (m v : Nat) : Nat := if signed 16 m < signed 16 v then v else m

theorem hotter_le (m v : Nat) : signed 16 m ≤ signed 16 (hotter m v) ∧ signed 16 v ≤ signed 16 (hotter m v) := by
  unfold hotter; split <;> omega

theorem foldl_hotter_mem (l : List Nat) (m : Nat) : l.foldl hotter m = m ∨ l.foldl hotter m ∈ l := by
  induction l generalizing m with
  | nil => exact .inl rfl
  | cons v l ih =>
    rw [List.foldl_cons]
    obtain e | e := ih (hotter m v)
    · rw [e]; unfold hotter; split
      · exact .inr List.mem_cons_self
      · exact .inl rfl
    · exact .inr (List.mem_cons_of_mem _ e)

theorem le_foldl_hotter (l : List Nat) (m : Nat) :
    signed 16 m ≤ signed 16 (l.foldl hotter m) ∧ ∀ v ∈ l, signed 16 v ≤ signed 16 (l.foldl hotter m) := by
  induction l generalizing m with
  | nil => exact ⟨Int.le_refl _, fun v h => nomatch h⟩
  | cons v l ih =>
    rw [List.foldl_cons]
    obtain ⟨hm, hl⟩ := ih (hotter m v)
    obtain ⟨h1, h2⟩ := hotter_le m v
    refine ⟨Int.le_trans h1 hm, fun u hu => ?_⟩
    obtain rfl | hu := List.mem_cons.mp hu
    · exact Int.le_trans h2 hm
    · exact hl u hu

theorem checkTemperature_objects (s : State) : ObjectsOnly faultObjects s (checkTemperature s) := by
  unfold checkTemperature
  extract_lets t warn u
  have hu : ObjectsOnly faultObjects s u := by
    unfold u; split
    · exact raiseFault_objects ..
    · split
      · exact clearFault_objects ..
      · exact .refl _ s
  split
  · exact hu.trans (raiseFault_objects ..)
  · split
    · exact hu.trans (clearFault_objects ..)
    · exact hu

/-- The quadrant temperatures of an update. -/
def quadrantsOf (x : Telemetry) : List Nat := (List.range 4).map fun i => x.temps.getD i 0 % 65536

/-- The block powers of an update. -/
def blockPowersOf (x : Telemetry) : List Nat := (List.range 10).map fun i => x.powers.getD i 0 % 2 ^ 32

/-- The telemetry objects as an update leaves them. -/
def measured (x : Telemetry) (s : State) : State :=
  let s := putRow O.quadrantTemp 16 4 (quadrantsOf x) s
  let s := (s.put O.maxTemp ((quadrantsOf x).foldl hotter ((quadrantsOf x).headD 0))).put O.batteryIslandTemp (x.battery % 65536)
  let s := putRow O.blockPower 32 10 (blockPowersOf x) (putRow O.railVoltage 16 9 x.rails s)
  let s := s.put O.totalPower ((blockPowersOf x).sum % 2 ^ 32)
  let s := s.put O.searchRate (x.searches % 2 ^ 32)
  let s := (s.put O.topOperations (x.topOps % 2 ^ 32)).put O.sweepOperations (x.sweepOps % 2 ^ 32)
  s.put O.backgroundShare (x.share % 65536)

theorem telemetryUpdate_eq {s : State} (x : Telemetry) (hp : s.power.core = true) :
    exec (.telemetryUpdate x) s = .next (checkTemperature (measured x s)) := by
  simp only [exec, execTelemetryUpdate, hp, Bool.not_true, Bool.false_eq_true, if_false]
  rfl

theorem measured_objects (x : Telemetry) (s : State) :
    let m := measured x s
    (∀ i < 4, m.val (O.quadrantTemp i) = (quadrantsOf x).getD i 0 % 65536) ∧
    m.val O.maxTemp = (quadrantsOf x).foldl hotter ((quadrantsOf x).headD 0) ∧
    (∀ i < 9, m.val (O.railVoltage i) = x.rails.getD i 0 % 65536) ∧ (∀ i < 10, m.val (O.blockPower i) = (blockPowersOf x).getD i 0 % 2 ^ 32) ∧
    m.val O.totalPower = (blockPowersOf x).sum % 2 ^ 32 ∧ m.val O.batteryIslandTemp = x.battery % 65536 ∧
    m.val O.searchRate = x.searches % 2 ^ 32 ∧ m.val O.topOperations = x.topOps % 2 ^ 32 ∧ m.val O.sweepOperations = x.sweepOps % 2 ^ 32 ∧
    m.val O.backgroundShare = x.share % 65536 := by
  have temps : Function.Injective O.quadrantTemp := fun _ _ => Nat.add_left_cancel
  have rails : Function.Injective O.railVoltage := fun _ _ => Nat.add_left_cancel
  have powers : Function.Injective O.blockPower := fun _ _ => Nat.add_left_cancel
  refine ⟨fun i hi => ?_, ?_, fun i hi => ?_, fun i hi => ?_, ?_, ?_, ?_, ?_, ?_, ?_⟩
  all_goals
    simp (disch := intros; dsimp only [O.quadrantTemp, O.maxTemp, O.railVoltage, O.blockPower, O.totalPower, O.batteryIslandTemp, O.searchRate,
      O.topOperations, O.sweepOperations, O.backgroundShare] at *; omega) only
      [measured, State.val_put, if_neg, if_true, putRow_other, putRow_own temps, putRow_own rails, putRow_own powers, Nat.reducePow]

theorem measurement_not_mem_faultObjects {k : Nat} (h : 0x400000 ≤ k) : k ∉ faultObjects := by
  simp only [faultObjects, O.faultsRaised, O.lastFaultCode, O.lastFaultDetail, O.lastFaultTime, O.emcySuppressed, List.mem_cons,
    List.not_mem_nil, or_false]
  omega

theorem quadrantsOf_getD (x : Telemetry) {i : Nat} (hi : i < 4) : (quadrantsOf x).getD i 0 = x.temps.getD i 0 % 65536 := by
  simp [quadrantsOf, List.getD, hi]

theorem blockPowersOf_getD (x : Telemetry) {i : Nat} (hi : i < 10) : (blockPowersOf x).getD i 0 = x.powers.getD i 0 % 2 ^ 32 := by
  simp [blockPowersOf, List.getD, hi]

/-- MaxTemp is one of the quadrant temperatures, and none is higher. -/
theorem hottest_quadrant (x : Telemetry) :
    let top := (quadrantsOf x).foldl hotter ((quadrantsOf x).headD 0)
    (∃ i < 4, top = x.temps.getD i 0 % 65536) ∧ ∀ i < 4, signed 16 (x.temps.getD i 0 % 65536) ≤ signed 16 top := by
  intro top
  have mem : ∀ v, v ∈ quadrantsOf x ↔ ∃ i < 4, x.temps.getD i 0 % 65536 = v := fun v => by simp only [quadrantsOf, List.mem_map, List.mem_range]
  refine ⟨?_, fun i hi => (le_foldl_hotter _ _).2 _ ((mem _).mpr ⟨i, hi, rfl⟩)⟩
  obtain e | e := foldl_hotter_mem (quadrantsOf x) ((quadrantsOf x).headD 0)
  · exact ⟨0, by omega, e⟩
  · obtain ⟨i, hi, h⟩ := (mem _).mp e
    exact ⟨i, hi, h.symm⟩

theorem telemetryUpdate_complete {s : State} (x : Telemetry) (hp : s.power.core = true) : ∃ t, exec (.telemetryUpdate x) s = .next t ∧
    (∀ i < 4, t.val (O.quadrantTemp i) = x.temps.getD i 0 % 65536 ∧ signed 16 (t.val (O.quadrantTemp i)) ≤ signed 16 (t.val O.maxTemp)) ∧
    (∃ i < 4, t.val O.maxTemp = t.val (O.quadrantTemp i)) ∧
    (∀ i < 9, t.val (O.railVoltage i) = x.rails.getD i 0 % 65536) ∧ (∀ i < 10, t.val (O.blockPower i) = x.powers.getD i 0 % 2 ^ 32) ∧
    t.val O.totalPower = ((List.range 10).map fun i => x.powers.getD i 0 % 2 ^ 32).sum % 2 ^ 32 ∧
    t.val O.batteryIslandTemp = x.battery % 65536 ∧ t.val O.searchRate = x.searches % 2 ^ 32 ∧ t.val O.topOperations = x.topOps % 2 ^ 32 ∧
    t.val O.sweepOperations = x.sweepOps % 2 ^ 32 ∧ t.val O.backgroundShare = x.share % 65536 := by
  refine ⟨_, telemetryUpdate_eq x hp, ?_⟩
  have kept (k : Nat) (h : 0x400000 ≤ k) : (checkTemperature (measured x s)).val k = (measured x s).val k :=
    (checkTemperature_objects (measured x s)).1 k (measurement_not_mem_faultObjects h)
  obtain ⟨vt, vm, vr, vp, vs, vb, vq, vo, vw, vg⟩ := measured_objects x s
  obtain ⟨⟨j, hj, top⟩, below⟩ := hottest_quadrant x
  have temp : ∀ i < 4, (checkTemperature (measured x s)).val (O.quadrantTemp i) = x.temps.getD i 0 % 65536 := fun i hi => by
    rw [kept (O.quadrantTemp i) (by unfold O.quadrantTemp; omega), vt i hi, quadrantsOf_getD x hi, Nat.mod_mod]
  have max : (checkTemperature (measured x s)).val O.maxTemp = _ := (kept _ (by decide)).trans vm
  refine ⟨fun i hi => ⟨temp i hi, ?_⟩, ⟨j, hj, ?_⟩, fun i hi => ?_, fun i hi => ?_, (kept _ (by decide)).trans vs, (kept _ (by decide)).trans vb,
    (kept _ (by decide)).trans vq, (kept _ (by decide)).trans vo, (kept _ (by decide)).trans vw, (kept _ (by decide)).trans vg⟩
  · rw [temp i hi, max]
    exact below i hi
  · rw [temp j hj, max, top]
  · rw [kept (O.railVoltage i) (by unfold O.railVoltage; omega), vr i hi]
  · rw [kept (O.blockPower i) (by unfold O.blockPower; omega), vp i hi, blockPowersOf_getD x hi, Nat.mod_mod]

/-- Settles O9: a fault's report changes no other fault and no object but its own; what goes on when a reference comes back keeps the mask. -/
theorem referencesPaceAndTelemetryComplete : Obligations.ReferencesPaceAndTelemetryComplete := by
  refine ⟨fun s k h1 h9 hp => ⟨referenceLost_complete h1 h9 hp, referenceRestored_complete h1 h9 hp⟩, fun s hp => ?_,
    fun s x hp => telemetryUpdate_complete x hp⟩
  exact ⟨fun r h1 h9 => supplyRange_complete hp h1 h9, fun p0 p1 p2 p3 h0 h1 h2 h3 => paceUpdate_complete hp h0 h1 h2 h3,
    fun code h => faultClearTimer_complete h, faultClearTimer_paceLow⟩

end Sys2Proof.Machine
end

section
/-! PROOFS. A search runs to a verdict or to what it waits for (O27). -/

namespace Sys2Proof.Machine

/-! ### The slot of a search

Every end and every wait of a search puts its slot back; nothing that a step reads or posts on its way touches the slots. -/

/-- Every part but `slots`. -/
def besideSlots : List Part :=
  [.clock, .power, .wakes, .modes, .mode, .faults, .drowse, .busy, .live, .dict, .mailbox, .can, .keys, .vault, .flash, .tally, .tamper, .jack,
   .sluice, .endpoint, .rings, .scratch, .integ, .coh, .results, .buckets, .tcam, .furrow, .links, .headgate, .pair, .chain, .pending, .fresh, .out]

/-- A search stands in the slot with this id. -/
def Occupied (id : Nat) (s : State) : Prop := (slotById s id).isSome

theorem slotById_of_slots {s t : State} (h : t.headgate.slots = s.headgate.slots) (id : Nat) : slotById t id = slotById s id := by
  unfold slotById; rw [h]

theorem Within.slotById {s t : State} (h : Within besideSlots s t) (id : Nat) : slotById t id = slotById s id :=
  slotById_of_slots (h.1 .slots (by decide)) id

theorem Occupied.then {id : Nat} {s t : State} (h : Occupied id s) (g : Within besideSlots s t) : Occupied id t := by
  unfold Occupied; rw [g.slotById]; exact h

theorem slotById_id {s : State} {id : Nat} {x : Slot} (h : slotById s id = some x) : x.id = id := by
  simpa using List.find?_some h

theorem slotById_putSlot {x : Slot} {s : State} (h : Occupied x.id s) : slotById (putSlot x s) x.id = some x := by
  have replaced : ((fun y : Slot => y.id == x.id) ∘ fun y : Slot => if y.id = x.id then x else y) = fun y => y.id == x.id := by
    funext y
    by_cases e : y.id = x.id <;> simp [e]
  obtain ⟨y, hy⟩ := Option.isSome_iff_exists.mp h
  change List.find? _ (List.map _ s.headgate.slots) = _
  change List.find? (fun y : Slot => y.id == x.id) s.headgate.slots = some y at hy
  rw [List.find?_map, replaced, hy, Option.map_some, if_pos (slotById_id hy)]

theorem occupied_putSlot {x : Slot} {s : State} (h : Occupied x.id s) : Occupied x.id (putSlot x s) := by
  unfold Occupied; rw [slotById_putSlot h]; rfl

/-- The search of slot `x` is no more to be run: it has its verdict, or it waits. -/
def Settled (x : Slot) (t : State) : Prop := ∃ y, slotById t x.id = some y ∧ y.phase ≠ .assigned ∧ y.header = x.header ∧ y.link = x.link

theorem settled_putSlot {x : Slot} {s : State} (h : Occupied x.id s) (hp : x.phase ≠ .assigned) : Settled x (putSlot x s) :=
  ⟨x, slotById_putSlot h, hp, rfl, rfl⟩

/-! ### Its end -/

/-- The search of slot `x` has ended with the verdict `v`, but for the time and, of status 0, the learn that was predicted full (R204). -/
def EndsWith (x : Slot) (v : Verdict) (t : State) : Prop :=
  ∃ y, slotById t x.id = some y ∧ y.phase = .done ∧ y.header = x.header ∧ y.link = x.link ∧ y.verdict.action = v.action ∧
    (v.status ≠ 0 → y.verdict.status = v.status)

theorem EndsWith.settled {x : Slot} {v : Verdict} {t : State} (h : EndsWith x v t) : Settled x t := by
  obtain ⟨y, hy, hp, hh, hl, -, -⟩ := h
  exact ⟨y, hy, by rw [hp]; decide, hh, hl⟩

theorem finishSearch_ends {x : Slot} {s : State} (v : Verdict) (h : Occupied x.id s) : EndsWith x v (finishSearch x v s) := by
  unfold finishSearch
  extract_lets s₁
  have h₁ : Occupied x.id s₁ := by
    unfold s₁; split
    · exact h
    · exact h
  have posted : Within besideSlots s₁ (if rankLearns v.status = true then postReads x x.reads s₁ else (false, s₁)).2 :=
    pairWithin_ite (fun _ => postReads_within _ _ _ (by decide) (within_refl _ _)) fun _ => within_refl _ _
  split
  rename_i full s₂ e
  rw [e] at posted
  exact ⟨_, slotById_putSlot (h₁.then posted), rfl, rfl, rfl, rfl, fun n => by simp [n]⟩

theorem finishSearch_settled {x : Slot} {s : State} (v : Verdict) (h : Occupied x.id s) : Settled x (finishSearch x v s) :=
  (finishSearch_ends v h).settled

/-! ### Authentication -/

theorem startMac_settled {x : Slot} {s : State} (w : MacWork) (waited : Bool) (h : Occupied x.id s) : Settled x (startMac x w waited s) := by
  unfold startMac
  extract_lets r
  cases pickEngine x.config s (slotClass x) with
  | none =>
    refine settled_putSlot (x := { x with phase := .contextWait, mac := some w }) (h.then ?_) nofun
    exact within_ite (fun _ => within_refl _ _) fun _ => State.bump_within _ _ (by decide) (within_refl _ _)
  | some e =>
    dsimp only
    cases keyFor s w.profile (recKey r) with
    | inl st => exact finishSearch_settled _ h
    | inr key =>
      refine settled_putSlot (x := { x with phase := .mac, mac := some { w with key, engine := e } }) (h.then ?_) nofun
      exact within_ite (fun _ => onLink_within _ _ _ (by decide) (within_refl _ _)) fun _ => within_refl _ _

theorem authPayload_settled {x : Slot} {s : State} (h : Occupied x.id s) : Settled x (authPayload x s) := by
  unfold authPayload
  extract_lets r n v p
  split
  · split
    · exact finishSearch_settled _ h
    · refine finishSearch_settled _ (h.then ?_)
      exact within_ite (fun _ => within_refl _ _) fun _ => State.bump_within _ _ (by decide) (within_refl _ _)
  split
  · exact finishSearch_settled _ h
  split
  · exact finishSearch_settled _ h
  rename_i f _
  split
  · exact finishSearch_settled _ (h.then (freshSeen_within _ _ _ (by decide) (within_refl _ _)))
  have rows : Within besideSlots s (authRows67 p v.record x.payload f s).2 := authRows67_within _ _ _ _ _ (by decide) (within_refl _ _)
  split <;> (rename_i e; rw [e] at rows)
  · exact finishSearch_settled _ (h.then rows)
  · exact startMac_settled _ _ (h.then rows)

theorem authBegin_settled {x : Slot} {s : State} (h : Occupied x.id s) : Settled x (authBegin x s) := by
  unfold authBegin
  extract_lets r early
  clear_value early
  cases early with
  | some f => exact finishSearch_settled _ h
  | none =>
    dsimp only
    split
    · exact settled_putSlot (x := { x with phase := .payloadWait }) h nofun
    · exact authPayload_settled h

theorem combine_settled {x : Slot} {s : State} (cand : Nat) (fromDefault : Bool) (h : Occupied x.id s) :
    Settled x (combine x cand fromDefault s) := by
  unfold combine
  extract_lets store bad r s₁
  split
  · exact finishSearch_settled _ h
  have h₁ : Occupied x.id s₁ := h.then (within_ite (fun _ => within_refl _ _) fun _ => State.bump_within _ _ (by decide) (within_refl _ _))
  have metered : Within besideSlots s₁ (recordMeter x r s₁).2 := recordMeter_within _ _ _ (by decide) (within_refl _ _)
  split
  rename_i meter s₂ e
  rw [e] at metered
  extract_lets s₃
  have h₃ : Occupied x.id s₃ := (h₁.then metered).then
    (within_ite (fun _ => postCount_within _ _ _ (by decide) (within_refl _ _)) fun _ => within_refl _ _)
  split
  · exact finishSearch_settled _ h₃
  · exact authBegin_settled (x := { x with verdict := _, resultRecord := r }) h₃

theorem flowVerdict_settled {x : Slot} {s : State} (v : Verdict) (h : Occupied x.id s) : Settled x (flowVerdict x v s) := by
  unfold flowVerdict
  split
  · exact finishSearch_settled v h
  extract_lets y
  split
  · exact settled_putSlot (x := { y with phase := .payloadWait }) h nofun
  · exact authPayload_settled (x := y) h

/-! ### The sequencer -/

/-- The slot that a flow carries. -/
def Flow.slot : Flow → Slot
  | .next x => x
  | .combine x => x
  | .verdict x _ => x
  | .wait x => x

/-- `y` is the slot of the search of `x`, run further under the same configuration. -/
def SameSearch (x y : Slot) : Prop := y.id = x.id ∧ y.header = x.header ∧ y.link = x.link ∧ y.config = x.config

theorem SameSearch.program {x y : Slot} (h : SameSearch x y) : slotProgram y = slotProgram x := by
  obtain ⟨-, hh, -, hc⟩ := h
  unfold slotProgram; rw [hh, hc]

theorem Settled.of_sameSearch {x y : Slot} {t : State} (h : SameSearch x y) (g : Settled y t) : Settled x t := by
  obtain ⟨hi, hh, hl, -⟩ := h
  obtain ⟨z, hz, hp, zh, zl⟩ := g
  exact ⟨z, hi ▸ hz, hp, zh.trans hh, zl.trans hl⟩

/-- `f` goes on with the search of `x`: a `next` one step further, a wait in a phase that tells of it. -/
def Follows (x : Slot) (f : Flow) : Prop :=
  SameSearch x f.slot ∧ match f with
    | .next y => y.step = x.step + 1
    | .wait y => y.phase ≠ .assigned
    | _ => True

theorem afterLookup_follows (x : Slot) (t : Nat) (hit : Option Nat) : Follows x (afterLookup x t hit) := by
  unfold afterLookup
  cases hit with
  | some r =>
    dsimp only
    split
    · exact ⟨⟨rfl, rfl, rfl, rfl⟩, trivial⟩
    · exact ⟨⟨rfl, rfl, rfl, rfl⟩, rfl⟩
  | none =>
    dsimp only
    split
    · exact ⟨⟨rfl, rfl, rfl, rfl⟩, rfl⟩
    all_goals exact ⟨⟨rfl, rfl, rfl, rfl⟩, trivial⟩

theorem oneStep_over {x : Slot} (s : State) (h : pgSteps (slotProgram x) ≤ x.step) : oneStep x s = (.combine x, s) := if_pos h

theorem oneStep_follows {x : Slot} {s : State} (h : x.step < pgSteps (slotProgram x)) :
    Follows x (oneStep x s).1 ∧ (oneStep x s).2.headgate.slots = s.headgate.slots := by
  unfold oneStep
  extract_lets p t
  rw [if_neg (Nat.not_le.mpr h)]
  split
  · exact ⟨⟨⟨rfl, rfl, rfl, rfl⟩, nofun⟩, rfl⟩
  have looked : Within besideSlots s (lookupStep x t (stepKey p x.link x.header x.snapshot x.chain t) s).2.2 :=
    lookupStep_within _ _ _ _ (by decide) (within_refl _ _)
  have slots := looked.1 .slots (by decide)
  split
  rename_i r read s₁ e
  rw [e] at slots
  extract_lets y
  cases r with
  | hit v => exact ⟨afterLookup_follows y t (some v), slots⟩
  | miss => exact ⟨afterLookup_follows y t none, slots⟩
  | bad => exact ⟨⟨⟨rfl, rfl, rfl, rfl⟩, trivial⟩, slots⟩
  | timeout => exact ⟨⟨⟨rfl, rfl, rfl, rfl⟩, trivial⟩, slots⟩
  | chain own word => exact ⟨⟨⟨rfl, rfl, rfl, rfl⟩, nofun⟩, slots⟩

/-- The fuel that a flow needs: a turn for each step still to come, one to combine, and one to begin. -/
def Flow.needs : Flow → Nat
  | .next x => pgSteps (slotProgram x) - x.step + 2
  | _ => 1

theorem pgSteps_lt (p : Bytes) : pgSteps p < 8 := Nat.mod_lt _ (by decide)

theorem runFlow_settled {n : Nat} {f : Flow} {s : State} (hn : f.needs ≤ n) (ho : Occupied f.slot.id s)
    (hw : ∀ x, f = .wait x → x.phase ≠ .assigned) : Settled f.slot (runFlow n (f, s)) := by
  induction n generalizing f s with
  | zero => cases f <;> simp only [Flow.needs] at hn <;> omega
  | succ n ih =>
    cases f with
    | combine x =>
      rw [runFlow]; split
      · exact flowVerdict_settled _ ho
      · exact combine_settled _ _ ho
    | verdict x v => exact flowVerdict_settled v ho
    | wait x => exact settled_putSlot ho (hw x rfl)
    | next x =>
      rw [runFlow]
      simp only [Flow.needs] at hn
      by_cases h : pgSteps (slotProgram x) ≤ x.step
      · rw [oneStep_over s h]
        exact ih (f := .combine x) (by simp only [Flow.needs]; omega) ho fun _ e => nomatch e
      · obtain ⟨follows, slots⟩ := oneStep_follows (s := s) (Nat.not_le.mp h)
        generalize oneStep x s = g at follows slots
        obtain ⟨f, t⟩ := g
        obtain ⟨same, own⟩ := follows
        refine Settled.of_sameSearch same (ih ?_ ?_ ?_)
        · cases f with
          | next y =>
            have hp : slotProgram y = slotProgram x := same.program
            have hs : y.step = x.step + 1 := own
            simp only [Flow.needs, hp, hs]; omega
          | combine | verdict | wait => simp only [Flow.needs]; omega
        · unfold Occupied; rw [slotById_of_slots slots, same.1]; exact ho
        · rintro y rfl; exact own

theorem runSearch_settled {x : Slot} {s : State} (h : Occupied x.id s) : Settled x (runSearch x s) :=
  runFlow_settled (f := .next x) (by have := pgSteps_lt (slotProgram x); simp only [Flow.needs]; omega) h fun _ e => nomatch e

/-! ### A program without a candidate (R121, R125) -/

/-- The search of `x` met no candidate: it is dropped, once its payload is there. -/
def NoMatch (x : Slot) (t : State) : Prop :=
  ∃ y, slotById t x.id = some y ∧ y.header = x.header ∧ y.link = x.link ∧ y.verdict.action = 1 ∧
    if x.payState = .awaited then y.phase = .payloadWait
    else y.phase = .done ∧ y.verdict.status = (if x.payState = .inconsistent then 0x21 else 1)

/-- The verdict of a search without a record: LEN_MISMATCH where its payload is inconsistent (R125). -/
def unrecorded (x : Slot) : Verdict := { x.verdict with status := if x.payState = .inconsistent then 0x21 else x.verdict.status }

theorem authPayload_withoutRecord {x : Slot} {s : State} (hr : x.resultRecord = 0) (h : Occupied x.id s) :
    EndsWith x (unrecorded x) (authPayload x s) := by
  unfold authPayload
  extract_lets r n v
  have none : (!recValid r || n == 0) = true := by unfold r; rw [hr]; rfl
  rw [if_pos none]
  unfold unrecorded
  split
  · exact finishSearch_ends _ h
  · refine finishSearch_ends _ (h.then ?_)
    exact within_ite (fun _ => within_refl _ _) fun _ => State.bump_within _ _ (by decide) (within_refl _ _)

theorem flowVerdict_noMatch {x : Slot} {s : State} (prio : Nat) (h : Occupied x.id s) :
    NoMatch x (flowVerdict x (.plain 1 1 0 prio) s) := by
  unfold flowVerdict
  rw [if_neg (by simp [Verdict.plain, rankLearns])]
  extract_lets y
  split
  · rename_i awaited
    exact ⟨_, slotById_putSlot (x := { y with phase := .payloadWait }) h, rfl, rfl, rfl, (if_pos awaited).mpr rfl⟩
  · rename_i here
    obtain ⟨z, hz, hp, hh, hl, ha, hs⟩ := authPayload_withoutRecord (x := y) (s := s) rfl h
    have status : (unrecorded y).status = if x.payState = .inconsistent then 0x21 else 1 := rfl
    rw [status] at hs
    exact ⟨z, hz, hh, hl, ha, (if_neg here).mpr ⟨hp, hs (by split <;> decide)⟩⟩

theorem runSearch_noMatch {x : Slot} {s : State} (hs : pgSteps (slotProgram x) ≤ x.step) (hc : x.cand = none) (h : Occupied x.id s) :
    NoMatch x (runSearch x s) := by
  unfold runSearch
  rw [runFlow, oneStep_over s hs, runFlow, hc]
  exact flowVerdict_noMatch _ h

/-! ### SEARCH_RUN -/

/-- The slot of a search that enters Lateral `lat`, or the Flume with 8. -/
def entering (x : Slot) (lat : Nat) : Slot := { x with lateral := lat, phase := .assigned }

/-- The state in which a search starts or goes on: its slot has its Lateral, and a start is counted and traced. -/
def entered (x : Slot) (lat : Nat) (s : State) : State :=
  if (x.phase == .assigned) = true then
    traceRecord (entering x lat) (putSlot (entering x lat) (s.bump (O.programSearches (ktProgram x.header))))
  else putSlot (entering x lat) s

/-- The Lateral that a search runs in: none (8) for the Flume, its own, or the one of R17. -/
def lateralOf (x : Slot) (s : State) : Nat := if slotClass x == 1 then 8 else if x.lateral < 8 then x.lateral else chooseLateral s

theorem entered_occupied {x : Slot} {s : State} (lat : Nat) (h : Occupied x.id s) : Occupied x.id (entered x lat s) := by
  unfold entered
  split
  · have counted : Occupied x.id (s.bump (O.programSearches (ktProgram x.header))) := h
    exact (occupied_putSlot (x := entering x lat) counted).then (traceRecord_within _ _ (by decide) (within_refl _ _))
  · exact occupied_putSlot (x := entering x lat) h

theorem searchRun_eq {s : State} {id : Nat} {x : Slot} (hid : id < 256) (hx : slotById s id = some x) (hp : x.phase = .assigned ∨ x.phase = .stepWait)
    (hl : (slotClass x == 1) = true ∨ (s.modes.quarantine % 256 ≠ 255 ∧ (x.lateral < 8 ∨ chooseLateral s < 8))) :
    exec (.searchRun id) s =
      .next (settleGrants (underConfig x.config (fun t => runSearch (entering x (lateralOf x s)) (entered x (lateralOf x s) t)) s)) := by
  change execSearchRun id s = _
  unfold execSearchRun onUnit
  rw [if_pos (decide_eq_true hid), hx]
  dsimp only
  have goes : ¬((slotClass x == 1) = false ∧ s.modes.quarantine % 256 = 255) := by
    rintro ⟨ha, hq⟩
    obtain h | ⟨h, -⟩ := hl
    · rw [h] at ha; cases ha
    · exact h hq
  have placed : ¬((slotClass x == 1) = false ∧ lateralOf x s = 8) := by
    rintro ⟨ha, h8⟩
    unfold lateralOf at h8
    rw [ha, if_neg Bool.false_ne_true] at h8
    obtain h | ⟨-, h⟩ := hl
    · rw [h] at ha; cases ha
    · split at h8 <;> omega
  rw [if_neg (by rintro ⟨n, m⟩; exact hp.elim n m), if_neg goes]
  exact congrArg _ (if_neg placed)

theorem searchRun_quarantined_eq {s : State} {id : Nat} {x : Slot} (hid : id < 256) (hx : slotById s id = some x)
    (hp : x.phase = .assigned ∨ x.phase = .stepWait) (ha : (slotClass x == 1) = false) (hq : s.modes.quarantine % 256 = 255) :
    exec (.searchRun id) s = .next (settleGrants (finishSearch x (fallbackVerdict 0x40 (slotProgram x)) s)) := by
  change execSearchRun id s = _
  unfold execSearchRun onUnit
  rw [if_pos (decide_eq_true hid), hx]
  dsimp only
  rw [if_neg (by rintro ⟨n, m⟩; exact hp.elim n m), if_pos ⟨ha, hq⟩]

/-- Credit grants that a search has freed touch no slot. -/
theorem slotById_settleGrants (s : State) (id : Nat) : slotById (settleGrants s) id = slotById s id :=
  Within.slotById (settleGrants_within _ (by decide) (within_refl _ _)) id

theorem searchRun_settled {s : State} {x : Slot} (lat : Nat) (h : Occupied x.id s) :
    Settled x (settleGrants (underConfig x.config (fun t => runSearch (entering x lat) (entered x lat t)) s)) := by
  unfold Settled
  rw [slotById_settleGrants]
  exact runSearch_settled (x := entering x lat) (entered_occupied lat h)

theorem searchRun_noMatch {s : State} {x : Slot} (lat : Nat) (hs : pgSteps (slotProgram x) ≤ x.step) (hc : x.cand = none) (h : Occupied x.id s) :
    NoMatch x (settleGrants (underConfig x.config (fun t => runSearch (entering x lat) (entered x lat t)) s)) := by
  unfold NoMatch
  rw [slotById_settleGrants]
  exact runSearch_noMatch (x := entering x lat) hs hc (entered_occupied lat h)

theorem NoMatch.settled {x : Slot} {t : State} (h : NoMatch x t) : Settled x t := by
  obtain ⟨y, hy, hh, hl, -, hp⟩ := h
  refine ⟨y, hy, ?_, hh, hl⟩
  split at hp
  · rw [hp]; decide
  · rw [hp.1]; decide

/-- Settles O27: the fuel of the sequencer is enough for the seven steps that a program can have, and each flow ends by putting its slot back. -/
theorem searchRunCompletes : Obligations.SearchRunCompletes := by
  intro s id x hid hx hp
  obtain rfl : x.id = id := slotById_id hx
  have occupied : Occupied x.id s := by unfold Occupied; rw [hx]; rfl
  refine ⟨fun hl => ?_, fun ha hq => ?_⟩
  · have run := searchRun_eq hid hx hp hl
    by_cases hn : pgSteps (slotProgram x) ≤ x.step ∧ x.cand = none
    · have noMatch := searchRun_noMatch (lateralOf x s) hn.1 hn.2 occupied
      obtain ⟨z, hz, hph, -, -⟩ := noMatch.settled
      obtain ⟨y, hy, hh, hlk, ha, hv⟩ := noMatch
      obtain rfl : z = y := Option.some.inj (hz.symm.trans hy)
      exact ⟨_, z, run, hy, hph, hh, hlk, fun _ _ => ⟨ha, hv⟩⟩
    · obtain ⟨y, hy, hph, hh, hlk⟩ := searchRun_settled (lateralOf x s) occupied
      exact ⟨_, y, run, hy, hph, hh, hlk, fun hs hc => absurd ⟨hs, hc⟩ hn⟩
  · obtain ⟨y, hy, hph, -, -, ha', hst⟩ := finishSearch_ends (fallbackVerdict 0x40 (slotProgram x)) occupied
    exact ⟨_, y, searchRun_quarantined_eq hid hx hp ha hq, (slotById_settleGrants _ _).trans hy, hph, hst (by simp [fallbackVerdict, Verdict.plain]), ha'⟩

end Sys2Proof.Machine
end
